-- ==== Sys2Proof/Word.lean ====
section
/-! DEFINITION. The word types of the Breidline BL-3 and their plainest arithmetic (00 R7, R12).
Bit-field helpers that a later reading of the spec could change stand in Machine/Ops.lean. -/

namespace Sys2Proof

abbrev U8 := BitVec 8
abbrev U16 := BitVec 16
abbrev U32 := BitVec 32
abbrev U64 := BitVec 64

/-- The bit of a Bool. -/
def b2n (b : Bool) : Nat := if b then 1 else 0

/-- Increment that saturates at all ones (the RC counters of the register tables). -/
def satInc {w : Nat} (x : BitVec w) : BitVec w :=
  if x.toNat + 1 < 2 ^ w then x + 1 else x

/-- Addition of a natural number that saturates at all ones. -/
def satAdd {w : Nat} (x : BitVec w) (n : Nat) : BitVec w :=
  if x.toNat + n < 2 ^ w then BitVec.ofNat w (x.toNat + n) else BitVec.ofNat w (2 ^ w - 1)

/-- Division rounded up. -/
def cdiv (a b : Nat) : Nat := (a + b - 1) / b

end Sys2Proof
end

