-- ==== Sys2Proof/Syntax.lean ====
section
/-! DEFINITION. The commands of the Breidline BL-3: one constructor of Instr for each row of spec/opcode_table.json, with
the operands the spec gives the row. Operands that stand for what the block reads from outside (host memory, a report of
a core, an engine or a controller) are named so. -/

namespace Sys2Proof

/-! ### Messages (04) -/

/-- The header of a message (R81). `rsv`: some reserved bit of it is not 0. -/
structure Hdr where
  fence  : Bool
  noIrq  : Bool
  gen    : U8
  tag    : U16
  length : U8
  rsv    : Bool
deriving DecidableEq, Repr

/-- How a message travels: through the page's submission ring, or through an urgent slot, written and submitted with
GO (03 R71). -/
inductive Via where
  | ring   (h : Hdr)
  | urgent (slot : Fin 8) (irq : Bool) (h : Hdr)
deriving DecidableEq, Repr

/-- ADMIT fields (04). `rsv` in this and the following records: some reserved bit of the message is not 0. -/
structure AdmitF where
  promptAddr : U64
  promptLen  : BitVec 24
  maxNew     : BitVec 24
  deadline   : U64
  model      : BitVec 5
  cls        : BitVec 2
  graftSlot  : BitVec 12
  graftValid : Bool
  graftVer   : U16
  profile    : BitVec 12
  spool      : U16
  holdOnEnd  : Bool
  noMatch    : Bool
  noOffer    : Bool
  graftCurrent : Bool
  turnTtl    : U32
  budgetTime   : U64
  budgetBytes  : U64
  budgetEnergy : U64
  rsv        : Bool
deriving DecidableEq, Repr

/-- The unit layout shared by CANCEL, PAUSE, RESUME and QUERY_REQ (04); `ttl` belongs to PAUSE. -/
structure HandleF where
  handle : U32
  ttl    : U32
  rsv    : Bool
deriving DecidableEq, Repr

structure ExtendF where
  handle     : U32
  count      : BitVec 24
  tokensAddr : U64
  maxNew     : BitVec 24
  rsv        : Bool
deriving DecidableEq, Repr

structure ProfileF where
  profile   : BitVec 12
  topK      : BitVec 7
  draftMax  : BitVec 3
  temp      : U32
  topP      : U32
  minP      : U32
  seed      : U64
  stopLen   : U16
  biasCount : BitVec 9
  biasAddr  : U64
  stop      : List (List U32)
  rsv       : Bool
deriving DecidableEq, Repr

structure SpoolF where
  spool    : U16
  log2     : BitVec 5
  hdrAddr  : U64
  ringAddr : U64
  rsv      : Bool
deriving DecidableEq, Repr

structure TimeF where
  host : U64
  rsv  : Bool
deriving DecidableEq, Repr

structure SelectF where
  src      : U64
  dst      : U64
  rows     : U32
  rowLen   : BitVec 23
  stride   : U64
  format   : BitVec 3
  k        : BitVec 7
  smallest : Bool
  space    : Bool
  threshEn : Bool
  thresh   : U32
  rsv      : Bool
deriving DecidableEq, Repr

structure TenantOpenF where
  tenant : BitVec 4
  pasid  : BitVec 20
  follow : Bool
  rsv    : Bool
deriving DecidableEq, Repr

structure TenantResetF where
  tenant : BitVec 4
  close  : Bool
  rsv    : Bool
deriving DecidableEq, Repr

structure LedgerF where
  tenant  : BitVec 4
  perReq  : Bool
  handle  : U32
  outAddr : U64
  rsv     : Bool
deriving DecidableEq, Repr

structure PinF where
  handle : U32
  plots  : BitVec 18
  scope  : U8
  rsv    : Bool
deriving DecidableEq, Repr

structure UnpinF where
  pin : U16
  rsv : Bool
deriving DecidableEq, Repr

structure FlushF where
  handle : U32
  all    : Bool
  rsv    : Bool
deriving DecidableEq, Repr

structure ModelLoadF where
  slot     : BitVec 5
  fallback : BitVec 5
  fbValid  : Bool
  srcSpace : BitVec 2
  descAddr : U64
  srcAddr  : U64
  rsv      : Bool
deriving DecidableEq, Repr

structure EvictF where
  slot : BitVec 5
  rsv  : Bool
deriving DecidableEq, Repr

/-- GRAFT_LOAD and GRAFT_REPLACE (04); `version` is reserved in GRAFT_REPLACE. -/
structure GraftF where
  graftSlot : BitVec 12
  base      : BitVec 5
  srcSpace  : BitVec 2
  version   : U16
  descAddr  : U64
  srcAddr   : U64
  rsv       : Bool
deriving DecidableEq, Repr

structure RetireF where
  graftSlot : BitVec 12
  rsv       : Bool
deriving DecidableEq, Repr

structure BedF where
  bed       : BitVec 5
  firstCore : BitVec 10
  cores     : BitVec 10
  ctxValid  : BitVec 4
  ctxModel  : List (BitVec 5)
  rsv       : Bool
deriving DecidableEq, Repr

structure SharesF where
  tenant   : BitVec 4
  weight   : U16
  rowCap   : BitVec 14
  maxClass : BitVec 2
  rsv      : Bool
deriving DecidableEq, Repr

structure BudgetF where
  tenant  : BitVec 4
  warnPct : BitVec 7
  quota   : BitVec 21
  period  : U32
  time    : U64
  bytes   : U64
  energy  : U64
  rsv     : Bool
deriving DecidableEq, Repr

/-- `entries`: the 64 entries, each WHO and the positions reserved (04). -/
structure CyclicF where
  tenantA : BitVec 4
  tenantB : BitVec 4
  length  : BitVec 7
  entries : List (BitVec 2 × BitVec 14)
  rsv     : Bool
deriving DecidableEq, Repr

structure PolicyF where
  tenant : BitVec 4
  policy : BitVec 2
  margin : U32
  rsv    : Bool
deriving DecidableEq, Repr

structure TraceF where
  en       : Bool
  log2     : BitVec 5
  events   : U32
  tenants  : U16
  ringAddr : U64
  rsv      : Bool
deriving DecidableEq, Repr

structure ThermF where
  stackSet : BitVec 12
  rsv      : Bool
deriving DecidableEq, Repr

/-- The model descriptor that firmware reads at DESC_ADDR (08 R211). -/
structure ModelDesc where
  descVer      : U32
  vocab        : BitVec 23
  contextLen   : BitVec 25
  eos          : U32
  kvBytes      : U32
  plotCount    : U32
  crossover    : U16
  fillLimit    : U16
  layerFirst   : U16
  layerCount   : U16
  draftHeads   : BitVec 3
  weightFormat : BitVec 4
  scratch      : BitVec 4
  staging      : U32
  tokenizer    : U64
  modelId      : U64
  weightBytes  : U64
  regionCount  : BitVec 13
  kernelCount  : BitVec 24
  regionTableOff : U64
  kernelTableOff : U64
  rsv          : Bool
deriving DecidableEq, Repr

/-- The graft descriptor (08 R220). -/
structure GraftDesc where
  descVer       : U32
  deltaCount    : BitVec 13
  baseModelId   : U64
  deltaTableOff : U64
  graftBytes    : U64
  rsv           : Bool
deriving DecidableEq, Repr

/-- One entry of the region table (08). -/
structure Region where
  srcOff : U64
  length : U32
  layer  : U16
  kind   : BitVec 4
  rsv    : Bool
deriving DecidableEq, Repr

/-- What the copies of a load or a reload met (08 R214, R228): all written, a read refused or poisoned at a region, or a part that
stays poisoned. -/
inductive CopySeen where
  | ok
  | refused  (region : Nat)
  | poisoned (region : Nat)
  | badPart  (region : Nat)
deriving DecidableEq, Repr

/-- The tables of a load as read (08 R211, R214): the region table and the longest tile of each kernel. -/
structure LoadTables where
  regions : List Region
  tiles   : List Nat
deriving DecidableEq, Repr

/-- What a model load met on its way (08 R214). Without tables a read of them was refused or poisoned. -/
structure LoadSeen where
  tables : Option LoadTables
  copy   : CopySeen
deriving DecidableEq, Repr

/-- One delta entry of a graft (08 R220): the base region and its block numbers in the order of the table. -/
structure Delta where
  region : BitVec 12
  blocks : List U32
  indexOff : U64
  dataOff  : U64
  scaleOff : U64
  rsv    : Bool
deriving DecidableEq, Repr

/-- What a graft load met (08 R223). Without deltas a read of their table was refused or poisoned. -/
structure GraftSeen where
  deltas : Option (List Delta)
  copy   : CopySeen
deriving DecidableEq, Repr

/-- What a region's reload met (08 R228): a read of the backing copy refused or poisoned, or the parts whose first and second
read-backs returned poison. -/
inductive ReloadSeen where
  | refused
  | poisoned
  | readBack (first second : BitVec 12)
deriving DecidableEq, Repr

/-- One entry of a bias list, with its reserved bits (04 R96). -/
structure Bias where
  index : BitVec 22
  rsv   : BitVec 10
  value : U32
deriving DecidableEq, Repr

/-! ### Register accesses (03, 17) -/

/-- The aperture through which a page register is reached (01 R22): a page of the PF window, or a VF's own page. -/
inductive Apt where
  | pf (page : Fin 17)
  | vf (tenant : Fin 16)
deriving DecidableEq, Repr

/-- The four ring-configuration registers of a page (03 R62). -/
inductive RingReg where
  | sqBase | cqBase | sqCfg | cqCfg
deriving DecidableEq, Repr

/-- The cold-frame tier registers (07 R200). -/
inductive TierReg where
  | poolBase | poolSize | hostBase (t : Fin 16) | hostSize (t : Fin 16)
deriving DecidableEq, Repr

inductive GroupReg where
  | groupId | memberIndex
deriving DecidableEq, Repr

/-- Where a block reset comes from (16 R405). -/
inductive ResetFrom where
  | ctrl | warm
deriving DecidableEq, Repr

/-! ### Reports from outside -/

/-- The rows of a SELECT job's tensor as read, in the job's own format (09 R255); where the job fails, the rows whose outputs
were all written (09 R259). -/
structure SelectSeen where
  rows : List (List U32)
deriving DecidableEq, Repr

/-- Power sample (14 R356). -/
structure Sample where
  seq     : U16
  module  : U16
  nodes   : List U16
  coolant : U16
deriving DecidableEq, Repr

/-- The structure a poisoned address lies in, as the block's own map of stack memory resolves it (01 R19, 15 R386, R387).
`lost` is the 64 B line of a plot table, eight entries of it; `level` the level of a match that met a token log's poison, none for a read
by a step, a fallback or a replay; `gone` the places of the buffered records that cannot be read. -/
inductive PoisonAt where
  | weights (slot : Fin 32) (region : Nat)
  | graft (slot : Nat) (version : U16) (region : Nat)
  | plot (plot : Nat) (handle : U32)
  | descriptor (slot : Nat)
  | tokenLog (handle : U32) (level : Option Nat)
  | plotTable (handle : U32) (lost : Nat)
  | node (node : Nat)
  | footer (node : Nat)
  | argBlock (rows : List (BitVec 13))
  | overflow (handle : U32) (gone : List Nat)
  | profileCopy (tenant : Fin 16) (profile : BitVec 12)
  | saveArea (bed : Fin 32) (ctx : Fin 4)
  | kernelTable (slot : Fin 32)
  | selectRead (page : Fin 17) (tag : U16) (seen : SelectSeen)
deriving DecidableEq, Repr

/-- A poisoned read (15 R386): `chunk` names the row of the carried chunk whose item made it. -/
structure Poison where
  addr  : U64
  step  : U64
  bed   : Fin 32
  core  : Bool
  unit  : Nat
  place : PoisonAt
  chunk : Option (BitVec 13) := none
deriving DecidableEq, Repr

/-- The access the host, or the pooled memory, refused (01 R25, R447; 15 R377). `back` of a plot table's copy: it returns from the cold
frame. -/
inductive Refused where
  | ring (page : Fin 17) (addr : U64)
  | prompt (handle : U32) (addr : U64)
  | extend (handle : U32) (addr : U64)
  | bias (page : Fin 17) (tag : U16) (addr : U64)
  | spool (tenant : Fin 16) (spool : U16) (addr : U64)
  | spill (slot : Nat) (plot : Nat) (addr : U64) (pooled : Bool)
  | restore (slot : Nat) (plot : Nat) (addr : U64) (pooled : Bool)
  | select (page : Fin 17) (tag : U16) (seen : SelectSeen) (addr : U64)
  | load (slot : Fin 32) (tables : Option LoadTables) (region : Nat) (addr : U64)
  | graftLoad (slot : Nat) (version : U16) (deltas : Option (List Delta)) (region : Nat) (addr : U64)
  | table (handle : U32) (back : Bool) (addr : U64) (pooled : Bool)
  | trace (addr : U64)
deriving DecidableEq, Repr

/-- The kinds of a core fault (15 R377). -/
inductive CoreFaultKind where
  | trap | scratchpad | forbidden | swapSave | swapRestore
deriving DecidableEq, Repr

structure CoreFault where
  core : Nat
  kind : CoreFaultKind
  item : Option Nat
  bed  : Fin 32
  ctx  : Fin 4
deriving DecidableEq, Repr

/-- What an uncorrectable SRAM error hit (15 R377). -/
inductive SramAt where
  | row (row : BitVec 13)
  | nodeCache
  | gardener (core : Fin 8)
  | other (island : Fin 18) (lost : List U32)
deriving DecidableEq, Repr

/-- Why a gardener core restarts (15 R383). -/
inductive GdnWhy where
  | silent | selfReported
deriving DecidableEq, Repr

/-! ### Tether frames (13) -/

/-- START, common words and END of a frame as it arrives (R336, R337, R340); `words` is WORDS, `alien` the control blocks of unknown
type that came since the frame before it, `cut` that one of them came within it. -/
structure FrameMeta where
  origin : BitVec 10
  hops   : BitVec 11
  group  : U16
  epoch  : U16
  full   : Bool
  fresh  : Bool
  part   : BitVec 15
  last   : Bool
  step   : U64
  words  : Nat
  crc    : U32
  alien  : Nat
  cut    : Bool
  stomp  : Bool
deriving DecidableEq, Repr

/-- The JOIN entry (R341). -/
structure JoinE where
  row       : BitVec 13
  depth     : BitVec 3
  holdOnEnd : Bool
  model     : BitVec 5
  handle    : U32
  graftSlot : BitVec 12
  graftValid : Bool
  graftVer  : U16
  profile   : BitVec 12
  stopMatch : U16
  committed : BitVec 24
  committedValid : Bool
  newLeft   : BitVec 24
  draw      : U64
deriving DecidableEq, Repr

/-- Manifest entries (R341). -/
inductive ManEntry where
  | join (e : JoinE)
  | leave (row : BitVec 13) (status : U8) (keep spill : Bool)
  | depth (row : BitVec 13) (d : BitVec 3)
  | chunk (row : BitVec 13) (first : BitVec 24) (len : U32) (bound : Bool) (flow : BitVec 12)
  | cover (row : BitVec 13) (pos : BitVec 24)
  | switch (row : BitVec 13) (ver : U16)
  | keep (handle : U32)
deriving DecidableEq, Repr

/-- STEP_TOKEN entry (R342). -/
structure TokenE where
  row    : BitVec 13
  strike : Bool
  depth  : BitVec 3
  status : U8
  handle : U32
deriving DecidableEq, Repr

/-- TOKENS entry (R343). -/
structure CommitE where
  row       : BitVec 13
  tokens    : List U32
  status    : U8
  accepted  : BitVec 3
  trunc     : BitVec 5
  draftOk   : BitVec 5
  stopMatch : U16
  draw      : U64
deriving DecidableEq, Repr

/-- STATUS payload (R344). -/
structure StatusE where
  free         : U32
  hot          : BitVec 12
  slow         : Bool
  intact       : Bool
  ballast      : BitVec 4
  manifestStep : U64
  grafts       : List (BitVec 12 × U16)
  restored     : List U32
deriving DecidableEq, Repr

/-! ### Work, lists and guesses (06, 09, 10) -/

/-- Work-item classes (06 R146). -/
inductive WClass where
  | cyclic | decode | select | prefill | swap
deriving DecidableEq, Repr

/-- One core-stream item as the step's work list names it (06 R145): what the model's kernels fix. The Sower fills the
epoch, the step and the BOUND and ROW_VALID bits (R147). `rows`: the rows its argument block lists. -/
structure ItemIn where
  kernel   : BitVec 24
  cls      : WClass
  bed      : Fin 32
  ctx      : Fin 4
  part     : Nat
  rows     : List (BitVec 13)
  deps     : U16
  waitGate : BitVec 14
  sigGate  : Option (BitVec 14)
  args     : U64
deriving DecidableEq, Repr

/-- One stack-stream item (05 R126): its stack, the rows it serves, and whether it projects onto the vocabulary (09 R242). -/
structure StackIn where
  stack : Fin 12
  rows  : List (BitVec 13)
  proj  : Bool
deriving DecidableEq, Repr

/-- The work of a step that the model compiler fixes (05 R126, R147; 01 R20). -/
structure StepWork where
  items       : List ItemIn
  stack       : List StackIn
  collectives : Nat
deriving DecidableEq, Repr

/-- Partial list (09 R237): an entry is its score, index and VALID bit. -/
structure PList where
  row     : BitVec 13
  parity  : Bool
  dpos    : BitVec 3
  shard   : BitVec 12
  count   : BitVec 7
  lse     : U32
  max     : U32
  entries : List (U32 × BitVec 22 × Bool)
  core    : Bool
  unit    : Nat
deriving DecidableEq, Repr

/-- Guess record (10 R270). -/
structure Guess where
  row     : BitVec 13
  parity  : Bool
  dpos    : BitVec 3
  heads   : BitVec 3
  guesses : List U32
  core    : Bool := false
  unit    : Nat := 0
deriving DecidableEq, Repr

/-- What the block watchdog sees at a bite that its tables do not hold (15 R379, R380): the cores without a tile
boundary since the last progress, the island of the oldest unanswered handshake, and for an arbiter's stuck holder the row
of the list it was delivering or the page of the SELECT job it served (12 R325). -/
structure BiteSeen where
  hung   : List Nat
  row    : Option (BitVec 13)
  job    : Option (Fin 17)
  island : Fin 18
  origin : BitVec 3
  unit   : Nat
deriving DecidableEq, Repr

/-- What the debug network uses a port of an unfrozen block for (18 R442). -/
inductive DebugAsk where
  | entry (slot j : Nat) | refcount (plot : Nat) | node (n : Nat) | lane (k : Fin 64) | copy (island : Fin 18) (addr : U64)
  | other
deriving DecidableEq, Repr

/-- A use of a port by the debug network: how many beats its transaction has, and what it asks for (12 R323; 18 R442). -/
structure DebugUse where
  beats : Nat
  ask   : DebugAsk
deriving DecidableEq, Repr

/-- What a reload rewrites: a model slot's tainted region, or a graft version's delta region (08 R228, R231). -/
inductive ReloadOf where
  | model (slot : Fin 32)
  | graft (slot : Nat) (version : U16)
deriving DecidableEq, Repr

/-- A firmware image as the boot sequencer reads it at `FW_IMG_ADDR` (16 R400, R402): the address of a refused read (01 R25), and the
bytes read, LEN of them where none is refused. -/
structure ImageSeen where
  refused : Option U64
  bytes   : List U8
deriving DecidableEq, Repr

/-- A plot that a move has copied to the cold frame; `poisoned` where its read was (07 R201, 15 R395). -/
structure PlotCopied where
  plot     : Nat
  poisoned : Bool
deriving DecidableEq, Repr

/-- A cycle of an arbiter at the end of its quota window, with the requests raised at its start: input and beats (12 R322). -/
structure WindowCycle where
  inst  : Fin 4
  posts : List (Fin 32 × Nat)
deriving DecidableEq, Repr

/-- One command. The docstring of each constructor names its row's rule. -/
inductive Instr where
  -- messages (04)
  | admitReq (page : Fin 17) (h : Hdr) (f : AdmitF)
  | cancel (page : Fin 17) (via : Via) (f : HandleF)
  | pause (page : Fin 17) (h : Hdr) (f : HandleF)
  | resume (page : Fin 17) (h : Hdr) (f : HandleF)
  | extend (page : Fin 17) (h : Hdr) (f : ExtendF)
  | setProfile (page : Fin 17) (h : Hdr) (f : ProfileF)
  | openSpool (page : Fin 17) (h : Hdr) (f : SpoolF) (refused : Bool)
  | queryReq (page : Fin 17) (h : Hdr) (f : HandleF)
  | timeXchg (page : Fin 17) (via : Via) (f : TimeF)
  | select (page : Fin 17) (h : Hdr) (f : SelectF)
  | tenantOpen (page : Fin 17) (h : Hdr) (f : TenantOpenF)
  | tenantReset (page : Fin 17) (h : Hdr) (f : TenantResetF)
  | queryLedger (page : Fin 17) (h : Hdr) (f : LedgerF) (refused : Bool)
  | seedbedPin (page : Fin 17) (h : Hdr) (f : PinF)
  | seedbedUnpin (page : Fin 17) (h : Hdr) (f : UnpinF)
  | coldFlush (page : Fin 17) (h : Hdr) (f : FlushF)
  | modelLoad (page : Fin 17) (h : Hdr) (f : ModelLoadF) (desc : Option ModelDesc)
  | modelEvict (page : Fin 17) (h : Hdr) (f : EvictF)
  | graftLoad (page : Fin 17) (h : Hdr) (f : GraftF) (desc : Option GraftDesc)
  | graftReplace (page : Fin 17) (h : Hdr) (f : GraftF) (desc : Option GraftDesc)
  | graftRetire (page : Fin 17) (h : Hdr) (f : RetireF)
  | bedConfig (page : Fin 17) (h : Hdr) (f : BedF)
  | setShares (page : Fin 17) (h : Hdr) (f : SharesF)
  | setBudget (page : Fin 17) (h : Hdr) (f : BudgetF)
  | setCyclic (page : Fin 17) (h : Hdr) (f : CyclicF)
  | setDeadlinePolicy (page : Fin 17) (h : Hdr) (f : PolicyF)
  | traceConfig (page : Fin 17) (h : Hdr) (f : TraceF)
  | thermalQuery (page : Fin 17) (h : Hdr) (f : ThermF)
  | fwInfo (page : Fin 17) (h : Hdr) (rsv : Bool)
  | badOpcode (page : Fin 17) (via : Via) (opcode : U8)
  -- register accesses (03, 12 to 17)
  | sqTail (a : Apt) (v : U32)
  | cqHead (a : Apt) (v : U32)
  | sqEn (a : Apt) (v : U32)
  | cqEn (a : Apt) (v : U32)
  | ringCfgWrite (a : Apt) (r : RingReg) (v : U64)
  | urgGo (a : Apt) (slot : Fin 8) (irq : Bool)
  | blockReset (src : ResetFrom)
  | dormantEnter
  | dormantExit
  | resumeHold
  | freezeSet
  | freezeClear
  | load (len : BitVec 23)
  | traceTail (v : U32)
  | arbClear (inst : Fin 4)
  | prioCommit (inst : Fin 4)
  | quota (inst : Fin 4) (i : Fin 32) (v : U32)
  | window (inst : Fin 4) (v : U32)
  | pendingDepth (v : U32)
  | coldTierWrite (r : TierReg) (v : U64)
  | pwrLimit (v : U32)
  | thermLimit (v : U64)
  | wdogLimit (v : U32)
  | tetherCtrlEn (v : U64)
  | groupConfigWrite (r : GroupReg) (v : U64)
  | lccLo
  | readLatch (fn : Fin 17) (off : Nat)
  | pairedRegisterWrite (fn : Fin 17) (off : Nat) (v : U32)
  | rcRead (fn : Fin 17) (off : Nat) (wide : Bool)
  | ghEventRead
  | regAccess (fn : Fin 17) (off : Nat) (bits : Nat) (write : Bool) (v : U64)
  | registerWrite (fn : Fin 17) (off : Nat) (wide : Bool) (v : U64)
  -- resets, power and reports from outside
  | coldReset
  | supplySag
  | droop (island : Fin 18)
  | powerSample (p : Sample)
  | poisonIndication (p : Poison)
  | hostAccessRefused (r : Refused)
  | atomicWrite (addr : U64) (core : Bool) (unit : Nat) (bed : Fin 32) (ctx : Fin 4)
  | coreFault (f : CoreFault)
  | sramUe (a : SramAt)
  | freezeSignal
  | freezeSignalClear
  | freezeDone
  | debugReadout (island : Fin 18)
  | lockLost
  | lockRegained
  -- Tether frames
  | rollcall (m : FrameMeta) (modelId : U64) (present intact : List Nat)
  | manifest (m : FrameMeta) (es : List ManEntry)
  | stepToken (m : FrameMeta) (es : List TokenE)
  | tokens (m : FrameMeta) (es : List CommitE)
  | status (m : FrameMeta) (e : StatusE)
  | slow (m : FrameMeta) (hot : BitVec 12) (ballast : BitVec 4)
  | profile (m : FrameMeta) (tenant : Fin 16) (f : ProfileF) (bias : List Bias)
  | break_ (m : FrameMeta)
  | ownFrameReturned (kind : U8) (step : U64) (part : BitVec 15) (stomp : Bool)
  -- timed events
  | intCoalRaise (page : Fin 17) (v : Fin 8)
  | expiryScan
  | ledgerRollup (tenant : Fin 16)
  | budgetPeriod (tenant : Fin 16)
  | thermalUpdate
  | ladderMove (ladder : Fin 13)
  | sensorRead (node : Fin 24)
  | sensorAnswer (node : Fin 24) (t : U16)
  | sensorTimeout (node : Fin 24)
  | samplesSilent
  | wdogBite (seen : BiteSeen)
  | islandResetDone (island : Fin 18)
  | gdnRestart (core : Fin 8) (why : GdnWhy)
  | gdnOut (core : Fin 8)
  | gdnReattach (core : Fin 8) (verified : Bool)
  | frameLoss (kind : U8) (step : U64) (part : BitVec 15)
  | rollcallResend
  | groupAbandon
  | spoolTailPoll
  | spoolTailRead (tenant : Fin 16) (spool : U16) (tail : U32)
  | idleGate (island : Fin 18)
  | arbitrationEvent (inst : Fin 4) (posts : List (Fin 32)) (cycles : List (List (Fin 32 × Nat))) (beats : List Nat)
  | arbWindowEnd (w : WindowCycle)
  | debugRevoke (inst : Fin 4) (use : DebugUse)
  | seedbedSweep
  -- steps
  | sealWithoutStep
  | layout
  | seal
  | argumentBlockAck (w : StepWork)
  | spoolRelease
  | workItemDeliver
  | workItemComplete (core : Nat) (busy : Nat)
  | stackItemComplete (idx : Nat) (ns stackBytes nocBytes : Nat)
  | collectiveComplete
  | tileBoundaryPark (core : Nat)
  | contextSwitchStart (bed : Fin 32)
  | swapSaveDone (bed : Fin 32)
  | contextRearm (bed : Fin 32) (coreBusy : Nat)
  | partialList (l : PList)
  | guessRecord (g : Guess)
  -- completions of the block's own work
  | admissionAttempt (tenant : Fin 16)
  | promptCopied (handle : U32) (tokens : List U32)
  | extendTokensCopied (handle : U32) (tokens : List U32)
  | biasListCopied (page : Fin 17) (tag : U16) (entries : List Bias)
  | spillMoveDone (slot : Nat) (plot : PlotCopied)
  | restoreStart (handle : U32)
  | restoreMoveDone (slot : Nat) (plot : Nat) (poisoned : Bool)
  | modelLoadDone (slot : Fin 32) (seen : LoadSeen)
  | graftLoadDone (slot : Nat) (version : U16) (seen : GraftSeen)
  | reloadStart (t : ReloadOf)
  | reloadDone (t : ReloadOf) (seen : ReloadSeen)
  | seedbedRemovalDone (model : Option (Fin 32)) (graft : Nat) (version : U16)
  | tenantResetDone (tenant : Fin 16) (refused : List (U16 × U64))
  | selectDone (page : Fin 17) (tag : U16) (seen : SelectSeen)
  | imageVerified (seen : ImageSeen)
  | ready
  | blockResetReady (refused : List (U32 × U64))
  | dormantEntryDone
  | wakeDone (seen : ImageSeen)
  | teardownEnd (bed : Fin 32) (ctx : Fin 4) (coreBusy : Nat)
  | joiningCoreRestoreDone (core : Nat)
deriving DecidableEq, Repr

end Sys2Proof
end

