-- ==== Sys2Proof/Config.lean ====
section
/-! DEFINITION. What a part or the environment fixes and the spec leaves open: free constants and free functions
without a body, so that no proof can see a value of them (log entries 2 to 6). -/

namespace Sys2Proof.Config

/-- DESIGN CHOICE (log entry 3). The silicon stepping of BL_REV, not constant over parts (17 R419). -/
opaque stepping : U8
/-- DESIGN CHOICE (log entry 3). The revocation fuse of the first key digest (17 R422). -/
opaque revoked0 : Bool
/-- DESIGN CHOICE (log entry 3). The revocation fuse of the second key digest (17 R422). -/
opaque revoked1 : Bool

/-- DESIGN CHOICE (log entry 3). The first key digest fused into the SA9 (16 R400). -/
opaque keyDigest0 : BitVec 384
/-- DESIGN CHOICE (log entry 3). The second key digest (16 R400). -/
opaque keyDigest1 : BitVec 384

/-- DESIGN CHOICE (log entry 3). SHA-384 of a byte string (16 R400): the spec names the function and leaves its definition to its standard. -/
opaque sha384 : List U8 → BitVec 384
/-- DESIGN CHOICE (log entry 3). ECDSA over P-384 (16 R399, R400): whether the signature r, s verifies over a digest under a public key,
defined by its standard. Arguments: key, digest, r, s. -/
opaque ecdsa : BitVec 776 → BitVec 384 → BitVec 384 → BitVec 384 → Bool

/-- DESIGN CHOICE (log entry 2). The free value number `n`: the choice of an unspecified outcome (00 R6). The state's
counter `free` says which is next. -/
opaque freeNat : Nat → Nat

/-- DESIGN CHOICE (log entry 4). How exp is rounded to binary64: the nearest value, or one beside it (09 R248, 10 R264). -/
opaque expUlp : U64 → Fin 3
/-- DESIGN CHOICE (log entry 4). How the natural logarithm is rounded to binary64 (09 R248). -/
opaque lnUlp : U64 → Fin 3

/-- DESIGN CHOICE (log entry 5). The capacitance Cᵢ of a thermal node in J/°C, from the module thermal table of the signed firmware
image (14 R358). -/
opaque thermalCap : Nat → Rat
/-- DESIGN CHOICE (log entry 5). The conductance Gᵢ of a node to the coolant in W/°C (14 R358). -/
opaque thermalCond : Nat → Rat
/-- DESIGN CHOICE (log entry 5). The conductance Gᵢⱼ between two nodes in W/°C (14 R358). -/
opaque thermalLink : Nat → Nat → Rat
/-- DESIGN CHOICE (log entry 5). How an exact estimate in 1/16 °C is rounded to the signed units that hold it (14 R358). -/
opaque thermalRound : Rat → Int

/-- DESIGN CHOICE (log entry 6). The address of a sequence's plot table (07 R179), chosen by the plot keeper within the slot's heap.
Arguments: request slot, size. -/
opaque tableAddr : Nat → Nat → U64

/-- DESIGN CHOICE (log entry 6). The base of the 2 MiB atomic region that start-up reserves in the shared cache (01 R16). -/
opaque atomicBase : U64
/-- DESIGN CHOICE (log entry 6). The address of the save area in a model slot's storage, which every context of the slot shares (06 R141,
R168). Argument: model slot. -/
opaque saveArea : Nat → U64
/-- DESIGN CHOICE (log entry 6). The address of a step's argument block in stack memory (05 R139). Argument: step number. -/
opaque argBlock : Nat → U64

end Sys2Proof.Config
end

