-- ==== Sys2Proof/Machine/State.lean ====
section
/-! DEFINITION. The state of the Breidline BL-3, as plain data: every register, queue, table and mode the spec gives the
block, the model's own record of what it put on its ports, and the queue of waiting commands. -/

namespace Sys2Proof.Machine

/-! ### Error log and register port -/

/-- One error-log entry (15 R375, R376, R396). -/
structure ErrRec where
  addr : U64 := 0
  src  : U32 := 0
  code : U32 := 0
  lcc  : U64 := 0
  aux  : U64 := 0
deriving DecidableEq, Repr

/-- The error log and ERR_HEAD (15 R375, R396). -/
structure ErrLog where
  recs  : List ErrRec := List.replicate 32 {}
  next  : BitVec 5 := 0
  total : U32 := 0
deriving DecidableEq, Repr

/-- A register write as it arrived: function, window offset, 64-bit or 32-bit, value, the low half that the function held, and the island that it
waits for (17 R425, R428). -/
structure RegWr where
  fn   : Fin 17
  off  : Nat
  wide : Bool
  v    : U64
  low  : Option (Nat × U32) := none
  island : Nat := 0
deriving DecidableEq, Repr

/-- The register port: read latches and held low halves per function (17 R424, R425); what the last read returned. -/
structure Port where
  latch    : List (Nat × (Nat × U32)) := []
  held     : List (Nat × (Nat × U32)) := []
  lastRead : U64 := 0
deriving DecidableEq, Repr

/-! ### Control, time, firmware, freeze -/

/-- BL_STATUS.PHASE (16 R398). -/
inductive Phase where
  | bootWait | verifying | init | ready | sleeping | dormant | waking | failed
deriving DecidableEq, Repr

/-- Which sequence the phase INIT belongs to (16 R403, R405). -/
inductive InitOf where
  | start | blockReset
deriving DecidableEq, Repr

/-- The AON island (16, 17 R421, R422). `atomic` is the base of the 2 MiB atomic region once start-up has reserved it (01 R16);
`worked` is when each island last had an event or work (16 R408); `fwTexts` are the instruction sections in the gardener SRAMs: core, offset and bytes (16 R399, R400); `gdnClear` says that a rejected image left
those SRAMs cleared (R401), `fwReread` that a block reset has read its image again (R405); `goSeq` numbers the urgent messages in the order of their GO writes (03 R72); `lastGdn` is the gardener core whose page
read was served last (01 R31). -/
structure Ctl where
  lcc         : U64 := 0
  lccLatch    : U32 := 0
  phase       : Phase := .bootWait
  initOf      : InitOf := .start
  fwErr       : U8 := 0
  blockResets : U16 := 0
  dormant     : Bool := false
  resumeHold  : Bool := false
  wakeNext    : Bool := false
  entrySealed : Bool := false
  gated       : BitVec 18 := 0
  worked      : List U64 := List.replicate 18 0
  fwImgAddr   : BitVec 52 := 0
  fwLen       : BitVec 23 := 0
  fwLine      : U8 := 0
  fwMinor     : U8 := 0
  fwBuild     : U16 := 0
  fwAccepted  : Bool := false
  fwKey       : BitVec 2 := 0
  fwDigest    : BitVec 384 := 0
  fwCores     : List (BitVec 384) := []
  fwTexts     : List (Nat × Nat × List U8) := []
  gdnClear    : Bool := false
  fwReread    : Bool := false
  byCtrl      : Bool := false
  byDebug     : Bool := false
  frozen      : Bool := false
  stopped     : BitVec 18 := 0
  freezes     : U16 := 0
  droppedWrites : U16 := 0
  freezeLcc   : U64 := 0
  bellTail    : List (Nat × U32) := []
  bellHead    : List (Nat × U32) := []
  latchReset  : Bool := false
  latchSleep  : Bool := false
  latchWake   : Bool := false
  sagged      : Bool := false
  atomic      : Option U64 := none
  goSeq       : Nat := 0
  lastGdn     : Nat := 7
deriving DecidableEq, Repr

/-- Watchdogs, islands, gardener watchdog, fences and retirement (15 R378 to R387, R396). `retiredFrames` are poisoned
frames, kept out of the pool once their count is 0; `keptFrames` keep a reference that poison left without a holder; `gdnWaits` are the
reports that wait for a gardener core's restart (R384). -/
structure Wdog where
  limit       : U32 := 100000
  bitten      : Bool := false
  stalled     : Bool := false
  lastCode    : U8 := 0
  lastIsland  : BitVec 5 := 0
  bites       : U16 := 0
  progress    : U64 := 0
  resetting   : BitVec 18 := 0
  resetSeen   : BitVec 18 := 0
  islandResets : U32 := 0
  lastReset   : List (Nat × U64) := []
  heldWrites  : List RegWr := []
  gdnOut      : U8 := 0
  gdnRestarting : U8 := 0
  gdnRestarts : U16 := 0
  gdnTimes    : List (Nat × List U64) := []
  retiredFrames : List Nat := []
  keptFrames  : List Nat := []
  retiredSlots  : List Nat := []
  fenced      : List Nat := []
  gdnWaits    : List Instr := []
deriving DecidableEq, Repr

/-! ### Mailbox pages -/

/-- An urgent slot (03 R71). -/
structure Urg where
  msg    : BitVec 512 := 0
  status : U16 := 0
  busy   : Bool := false
  done   : Bool := false
  irq    : Bool := false
  reply0 : U64 := 0
  reply1 : U64 := 0
  reply2 : U64 := 0
  lcc    : U64 := 0
deriving DecidableEq, Repr

/-- A vector's coalescing and pending events (03 R74). -/
structure Vec where
  count   : U8 := 1
  time    : U16 := 0
  en      : Bool := false
  pending : Nat := 0
  oldest  : U64 := 0
deriving DecidableEq, Repr

/-- A setting accepted and applied at a composition (04 R107). -/
inductive Setting where
  | bed (f : BedF)
  | shares (f : SharesF)
  | cyclic (f : CyclicF)
  | policy (f : PolicyF)
deriving DecidableEq, Repr

/-- What a started message waits for (04 R86, and each message's completion rule). -/
inductive Wait where
  | prompt (handle : U32) (addr : U64)
  | extend (handle : U32) (f : ExtendF)
  | bias (f : ProfileF)
  | cancel (handle : U32) (due : Nat) (first : Bool)
  | pause (handle : U32) (due : Nat) (ttl : U32)
  | resume (handle : U32)
  | setting (due : Nat) (x : Setting)
  | reset (tenant : Fin 16)
  | evict (slot : BitVec 5)
  | flush (handles : List U32) (all : Bool) (moved : Nat) (failed : Bool)
  | select (f : SelectF)
  | thermal (left : BitVec 12) (vals : List (Nat × U8))
deriving DecidableEq, Repr

/-- A message started and not complete (03 R67). -/
structure Started where
  hdr    : Hdr
  opcode : U8
  wait   : Wait
  mute   : Bool := false
deriving DecidableEq, Repr

/-- A completion before it has a place in the ring (03 R64, R70). `result` holds bytes 16 to 63. -/
structure Cpl where
  opcode : U8
  hdr    : Hdr
  status : U16
  result : BitVec 384
deriving DecidableEq, Repr

/-- The phase of a started message in its ring's journal (16 R407). -/
inductive JPhase where
  | started | applied | completed
deriving DecidableEq, Repr

/-- A journal entry: the message's ring index, its tag, its completion entry and its phase (16 R407). -/
structure JEntry where
  index : U16
  tag   : U16
  entry : Option Cpl := none
  phase : JPhase := .started
deriving DecidableEq, Repr

/-- A tenant reset in progress (04 R102): CLOSE, and the composition at which the rows end. -/
structure Stopping where
  close : Bool
  due   : Nat
  ended : Bool
deriving DecidableEq, Repr

/-- A mailbox page (03 R59 to R76, 04). `urgQueue` are the urgent messages that wait: slot, place in the order of GO writes and
message; `begun` are the units fetched of a message whose rest is not in the ring yet (R66); `journal` is the ring's message journal, oldest
entry first (16 R407). -/
structure Page where
  gen       : U8 := 0
  gardener  : BitVec 4 := 0
  isOpen    : Bool := false
  pasid     : BitVec 20 := 0
  follow    : Bool := false
  sqEn      : Bool := false
  cqEn      : Bool := false
  faultStop : Bool := false
  sqBase    : BitVec 52 := 0
  cqBase    : BitVec 52 := 0
  sqLog2    : BitVec 5 := 6
  cqLog2    : BitVec 5 := 6
  sqTail    : U16 := 0
  sqHead    : U16 := 0
  cqHead    : U16 := 0
  cqTail    : U16 := 0
  phase     : Bool := false
  errAddr   : U64 := 0
  errCode   : U8 := 0
  errCount  : U16 := 0
  errValid  : Bool := false
  cause     : U8 := 0
  slots     : List Urg := List.replicate 8 {}
  vecs      : List Vec := List.replicate 8 {}
  urgQueue  : List (Nat × Nat × Instr) := []
  ring      : List Instr := []
  begun     : Nat := 0
  started   : List Started := []
  waiting   : List Cpl := []
  stopping  : Option Stopping := none
  journal   : List JEntry := []
deriving DecidableEq, Repr

/-! ### Outputs -/

/-- Completion entry as written (03 R64). -/
structure Cqe where
  opcode : U8
  phase  : Bool
  gen    : U8
  tag    : U16
  status : U16
  sqHead : U16
  result : BitVec 384
deriving DecidableEq, Repr

/-- Spool record (10 R277). -/
structure Rec where
  token    : U32 := 0
  position : BitVec 24 := 0
  draft    : Bool := false
  trunc    : Bool := false
  switched : Bool := false
  fellBack : Bool := false
  isEnd    : Bool := false
  lcc      : U32 := 0
  status   : U8 := 0
  accepted : BitVec 4 := 0
deriving DecidableEq, Repr

/-- The eight Ledger counters (11 R286). -/
structure Ledg where
  coreNs      : U64 := 0
  stackNs     : U64 := 0
  stackBytes  : U64 := 0
  nocBytes    : U64 := 0
  hostBytes   : U64 := 0
  pooledBytes : U64 := 0
  energyNj    : U64 := 0
  positions   : U64 := 0
deriving DecidableEq, Repr

/-- Ledger record (11 R292). -/
structure LedgerRec where
  perReq  : Bool
  ended   : Bool
  tenant  : BitVec 4
  live    : BitVec 21
  handle  : U32
  since   : U64
  ctr     : Ledg
  tokensIn  : U64
  tokensOut : U64
  time    : U64
  bytes   : U64
  energy  : U64
  last    : U64
deriving DecidableEq, Repr

/-- Trace record (18 R433). -/
structure TraceRec where
  lcc    : U64
  step   : U32
  cls    : BitVec 5
  source : BitVec 2
  gdn    : BitVec 3
  tenant : Option (BitVec 4)
  handle : U32
  arg0   : U32
  arg1   : U32
  arg2   : U32
deriving DecidableEq, Repr

/-- What the block writes to host memory; a SELECT output may go to stack memory. `page` 16 is the management partition. -/
inductive HostWr where
  | cqe (page : Nat) (addr : U64) (e : Cqe)
  | spoolInit (tenant : Nat) (addr : U64) (lcc : U64)
  | spoolHdr (tenant : Nat) (addr : U64) (head owner : U32) (lcc : U64)
  | spoolRec (tenant : Nat) (addr : U64) (r : Rec)
  | ledger (page : Nat) (addr : U64) (r : LedgerRec)
  | trace (addr : U64) (r : TraceRec)
  | select (page : Nat) (stackMem : Bool) (addr : U64) (entries : List (U32 × BitVec 22 × Bool)) (zeros : Nat)
deriving DecidableEq, Repr

/-- Frames sent on the Tether ring (13 R338, R340). -/
inductive FrameOut where
  | rollcall (m : FrameMeta) (modelId : U64) (present intact : List Nat)
  | manifest (m : FrameMeta) (es : List ManEntry)
  | stepToken (m : FrameMeta) (es : List TokenE)
  | tokens (m : FrameMeta) (es : List CommitE)
  | status (m : FrameMeta) (e : StatusE)
  | slow (m : FrameMeta) (hot : BitVec 12) (ballast : BitVec 4)
  | profile (m : FrameMeta) (tenant : Nat) (f : ProfileF) (bias : List Bias)
  | break_ (m : FrameMeta)
deriving DecidableEq, Repr

/-- A write as issued: the PASID that tags it, none for the PF (01 R24). -/
structure HostOut where
  pasid : Option (BitVec 20)
  wr    : HostWr
deriving DecidableEq, Repr

/-- Where the block reads or copies outside itself: host memory under a PASID or the PF, the pooled memory, stack memory. -/
inductive Space where
  | host (pasid : Option (BitVec 20)) | pooled | stack
deriving DecidableEq, Repr

/-- One read of at most 512 B (01 R24, R447). -/
structure HostRd where
  space : Space
  addr  : U64
  bytes : Nat
deriving DecidableEq, Repr

/-- The fixed structures that start-up clears in stack memory (16 R403). -/
inductive FixedArea where
  | requestStore | seedbedNodes | overflowAreas | journals
deriving DecidableEq, Repr

/-- One NoC copy request of the egress port: a plot to or from the cold frame, with its frame (07 R201, R205); a part of a
weight region, with its stack, or the delta blocks of such a part, their elements and scales (08 R214, R223, R228); a kernel table; a plot table (07 R202, R205); the clearing of a fixed structure (16 R403). -/
inductive CopyReq where
  | spill (frame : Nat) (dst : Space) (addr : Nat) (bytes : Nat)
  | restore (frame : Nat) (src : Space) (addr : Nat) (bytes : Nat)
  | part (model : Nat) (region part : Nat) (stack : Nat) (src : Space) (addr : Nat) (bytes : Nat)
  | delta (slot : Nat) (ver : U16) (region part : Nat) (stack : Nat) (src : Space) (blocks : List U32) (data scale : Nat)
  | kernels (model : Nat) (src : Space) (addr : Nat) (bytes : Nat)
  | table (root : U64) (out : Bool) (cold : Space) (addr : Nat) (bytes : Nat)
  | fill (area : FixedArea)
deriving DecidableEq, Repr

/-- An argument-block row: the row, its first position and five token ids (05 R139). -/
structure ArgRow where
  row    : BitVec 13
  first  : BitVec 24
  tokens : List U32
deriving DecidableEq, Repr

/-- What a core finds in its inbox: a work item by its index, or a `SWAP` item that saves an outgoing context or restores an
incoming one (06 R146, R166). -/
inductive InboxItem where
  | work (idx : Nat)
  | save (bed ctx : Nat)
  | restore (bed ctx : Nat)
deriving DecidableEq, Repr

/-- A write to a core's inbox, with the dispatch interrupt (06 R152). -/
structure Inbox where
  core : Nat
  item : InboxItem
deriving DecidableEq, Repr

/-! ### Requests -/

/-- Request states (02 R35). -/
inductive RState where
  | queued | admitted | prefill | decode | fallback | heldPlots | heldWeights | heldGraft | heldSpool | heldGroup
  | paused | cold | ended
deriving DecidableEq, Repr

/-- Pending hold conditions (02 R38). -/
structure Holds where
  group   : Bool := false
  weights : Bool := false
  graft   : Bool := false
  spool   : Bool := false
  plots   : Bool := false
deriving DecidableEq, Repr

/-- Plot-table entry (07 R179); `loc` is WHERE. -/
structure PlotEnt where
  plot   : Nat
  stack  : Nat
  loc    : BitVec 2
  seeded : Bool
  cold   : U32
deriving DecidableEq, Repr

/-- A cold-frame tier: the pooled memory, or a tenant's host area (07 R200). -/
inductive Tier where
  | pool | host (t : Nat)
deriving DecidableEq, Repr

/-- A range of cold-frame granules in use. -/
structure ColdRun where
  tier : Tier
  base : Nat
  len  : Nat
deriving DecidableEq, Repr

/-- The restore of a COLD or HELD_PLOTS request (07 R205, R206): waiting, or copying the plots left in `left`;
`replay` is the lowest plot without a copy. -/
structure Restore where
  running : Bool
  left    : List Nat
  replay  : Option Nat
  done    : Bool
deriving DecidableEq, Repr

/-- The open or last chunk of a row (05 R123). -/
structure Chunk where
  first   : Nat
  len     : Nat
  bound   : Bool
  ends    : Bool
  step    : U64
  began   : U64
  layers  : Bool
  projDue : Bool
deriving DecidableEq, Repr

/-- A request: its descriptor, token log, plot table, row and ledger (02, 05 R111, 07, 11). `doomed` is the end status that waits
for the prompt's copy (02 R40), `replayTo` the state that a replay returns to (07 R206), `tableBlock` the bytes of the heap block that
holds its plot table (07 R180), `handSeq` its place in the order of handovers to the Sower (05 R122), `badLog` the level at
which a match met poison in the token log (15 R387), `rowSeal` the row
counters as of the last seal (11 R292). -/
structure Req where
  handle   : U32
  adm      : AdmitF
  order    : Nat
  born     : U64
  since    : U64
  state    : RState := .queued
  left     : Option RState := none
  holds    : Holds := {}
  endStatus : U8 := 0
  turnEnd  : Bool := false
  fellBack : Bool := false
  switched : Bool := false
  noOffer  : Bool := false
  copied   : Bool := false
  model    : BitVec 5
  graft    : Option (BitVec 12 × U16)
  extendPending : Bool := false
  cancelPending : Bool := false
  pausePending  : Bool := false
  expiry   : Option U64 := none
  row      : Option (BitVec 13) := none
  bed      : BitVec 5 := 0
  affinity : Option (BitVec 10) := none
  flow     : Option (BitVec 12) := none
  log      : List U32 := []
  promptEnd : Nat := 0
  committed : Option Nat := none
  newLeft  : Nat := 0
  tokensIn : Nat := 0
  tokensOut : Nat := 0
  draftsOk : Nat := 0
  draw     : U64 := 0
  stopMatch : U16 := 0
  stops    : Option (U16 × List (List U32)) := none
  depth    : Nat := 0
  tokens   : List U32 := []
  chunk    : Option Chunk := none
  lastChunk : Option (Nat × Nat) := none
  stepIn   : U64 := 0
  joinStep : U64 := 0
  idle     : Bool := false
  replay   : Bool := false
  replayTo : RState := .decode
  next     : Nat := 0
  admitSeq : Nat := 0
  table    : List PlotEnt := []
  fbTable  : Option (BitVec 5 × List PlotEnt) := none
  tableRoot : U64 := 0
  tableBlock : Nat := 0
  tableCold : Option ColdRun := none
  offered  : Nat := 0
  named    : Nat := 0
  heldSeq  : Nat := 0
  restore  : Option Restore := none
  rowCtr   : Ledg := {}
  ctr      : Ledg := {}
  budTime  : U64 := 0
  budBytes : U64 := 0
  budEnergy : U64 := 0
  bufRecs  : List Rec := []
  newRecs  : List Rec := []
  rate     : U32 := 0x3F800000
  warned   : Bool := false
  doomed   : Option U8 := none
  handSeq  : Nat := 0
  rowSeal  : Ledg := {}
  late     : Option Int := none
  reported : Bool := false
  badLog   : Option Nat := none
deriving DecidableEq, Repr

/-- A profile defined by SET_PROFILE with its bias list summed per index (04 R96, R97). -/
structure Prof where
  f    : ProfileF
  bias : List (Nat × U32)
deriving DecidableEq, Repr

/-- An open spool (10 R276, R279, R282). -/
structure Spool where
  log2     : BitVec 5
  hdrAddr  : U64
  ringAddr : U64
  head     : U32 := 0
  tail     : U32 := 0
  owner    : Option U32 := none
  broken   : Bool := false
deriving DecidableEq, Repr

/-- A Seedbed pin (07 R196). -/
structure Pin where
  id    : U16
  scope : U8
  nodes : List Nat
deriving DecidableEq, Repr

/-- A tenant's settings and totals (07 R186, 11 R291 to R301). Entry 16 of the table holds the management partition's pins
and nothing else. -/
structure Ten where
  weight   : U16 := 1
  rowCap   : BitVec 14 := 8192
  maxClass : BitVec 2 := 0
  deficit  : Int := 0
  policy   : BitVec 2 := 0
  margin   : U32 := 0
  budTime  : U64 := 0
  budBytes : U64 := 0
  budEnergy : U64 := 0
  quota    : BitVec 21 := 1048576
  period   : U32 := 0
  warnPct  : BitVec 7 := 100
  periodAt : U64 := 0
  useNs    : Nat := 0
  useBytes : Nat := 0
  useNj    : Nat := 0
  warnT    : Bool := false
  warnB    : Bool := false
  warnE    : Bool := false
  warnQ    : Bool := false
  epoch    : U32 := 0
  openedAt : U64 := 0
  lastWarn : U32 := 0
  ctr      : Ledg := {}
  tokensIn  : U64 := 0
  tokensOut : U64 := 0
  profiles : List (Nat × Prof) := []
  spools   : List (Nat × Spool) := []
  pins     : List Pin := []
  passed   : Bool := false
deriving DecidableEq, Repr

/-! ### The Sower and the step -/

/-- A row laid out: its handle, first position and role (05 R118); `flow` is the flow its chunk is given (06 R159), `had` the plots its table held
before the layout reserved for it (15 R381). -/
structure Member where
  handle : U32
  depth  : Nat
  chunk  : Option Chunk
  joins  : Bool
  cyclic : Bool
  row    : Option (BitVec 13)
  flow   : Option (BitVec 12) := none
  had    : Option Nat := none
deriving DecidableEq, Repr

/-- The layout of the next step (05 R118): its members, the rows that enter fallback, the rows whose hold was lifted that it
considered, the rows of a group that it moves to a newer graft version (08 R225), and the table of 11 R302 under which it was
made. -/
structure Laid where
  members  : List Member
  fallen   : List U32
  back     : List U32 := []
  switches : List (U32 × (BitVec 12 × U16)) := []
  cycGen   : Nat := 0
deriving DecidableEq, Repr

/-- What a stack item still owed to the step serves (05 R126); `proj` for a vocabulary projection, which
the Sower may hold and has not `issued` then (09 R242); `at_` is when it was issued (15 R379). -/
structure StackItem where
  idx   : Nat
  stack : Nat
  rows  : List (BitVec 13)
  proj  : Bool := false
  issued : Bool := false
  at_    : U64 := 0
deriving DecidableEq, Repr

/-- The step that executes (05 R114 to R127). -/
structure Step where
  num      : U64
  members  : List Member
  small    : List Nat
  dispatched : Bool := false
  start    : U64 := 0
  stack    : List StackItem := []
  coll     : Nat := 0
  discard  : List U32 := []
  sealAt   : Option U64 := none
  ended    : Bool := false
  slowed   : Bool := false
deriving DecidableEq, Repr

/-- What firmware hands the Sower about a request (05 R118). -/
inductive RowEv where
  | cancel | pause (ttl : U32) | stop (status : U8) | hold (kind : Fin 5) | fallback | preempt
deriving DecidableEq, Repr

structure Ev where
  due    : Nat
  handle : U32
  ev     : RowEv
deriving DecidableEq, Repr

/-- The cyclic table (11 R302); `gen` counts its replacements. -/
structure Cyc where
  a       : BitVec 4 := 0
  b       : BitVec 4 := 0
  len     : BitVec 7 := 0
  entries : List (BitVec 2 × BitVec 14) := []
  next    : Nat := 0
  gen     : Nat := 0
deriving DecidableEq, Repr

/-- The fields of a Trellis row that the Sower writes, as of the last composition (05 R111, R113). The live fields of the plot
keeper and the Ledger stand in the request. -/
structure Row where
  handle   : U32
  state    : RState
  left     : Option RState
  holds    : Holds
  cancel   : Bool
  pause    : Bool
  idle     : Bool
  fellBack : Bool
  switched : Bool
  holdOnEnd : Bool
  noOffer  : Bool
  model    : BitVec 5
  bed      : BitVec 5
  cls      : BitVec 2
  graft    : Option (BitVec 12 × U16)
  profile  : BitVec 12
  depth    : Nat
  spoolBuf : Nat
  committed : Option Nat
  promptEnd : Nat
  newLeft  : Nat
  spool    : U16
  flow     : Option (BitVec 12)
  deadline : U64
  affinity : Option (BitVec 10)
  carried  : Bool
  chunkEnd : Nat
  stepIn   : U64
  joinStep : U64
  draw     : U64
  tokens   : List U32
  stopMatch : U16
deriving DecidableEq, Repr

/-- The Sower (05). `trellis` are the rows as of the last composition; `back` the rows whose hold was lifted that a layout without
a member considered (02 R38). -/
structure Sow where
  step     : U64 := 0
  comp     : Nat := 0
  exec     : Option Step := none
  laid     : List Laid := []
  short    : Nat := 0
  freeFrom : List (Nat × Nat) := []
  events   : List Ev := []
  cyc      : Cyc := {}
  est      : List (Nat × (U32 × U32)) := []
  idleWant : List U32 := []
  returning : List U32 := []
  waves    : BitVec 3 := 0
  meanE    : Nat := 1
  hist     : List ((Nat × Nat × Nat) × Nat) := []
  histNow  : List ((Nat × Nat × Nat) × Nat) := []
  affNow   : List (U32 × Nat) := []
  trellis  : List (Nat × Row) := []
  back     : List U32 := []
deriving DecidableEq, Repr

/-! ### The dispatcher (06 R168) -/

/-- State of a work item in the table. -/
inductive IState where
  | waiting | ready | placed (core : Nat) | running (core : Nat) | parked (core : Nat) | complete (core busy : Nat)
deriving DecidableEq, Repr

/-- The addresses in an item's argument block (15 R389): the plot tables of the rows it serves, their model slot and their
graft versions. -/
structure ArgBlk where
  tables : List U64
  model  : Option (BitVec 5)
  grafts : List (BitVec 12 × U16)
deriving DecidableEq, Repr

/-- A work item with its state (06 R145, R168) and what its argument block holds (15 R389). -/
structure Item where
  idx      : Nat
  kernel   : BitVec 24
  cls      : WClass
  bed      : Nat
  ctx      : Nat
  bound    : Bool
  epoch    : U16
  flow     : Option (BitVec 12)
  seq      : BitVec 20
  affinity : Option (BitVec 10)
  deps     : U16
  waitGate : Nat
  sigGate  : Option Nat
  args     : U64
  blk      : ArgBlk
  step     : U64
  part     : Nat
  rows     : List (BitVec 13)
  state    : IState
deriving DecidableEq, Repr

structure Flow where
  next  : BitVec 20
  sub   : BitVec 20
  count : Nat
deriving DecidableEq, Repr

/-- A bed context (06 R141, R160, R168); `save` is the address of its save area. -/
structure Ctx where
  model    : Option (BitVec 5) := none
  epoch    : U16 := 0
  resident : Bool := false
  lastRel  : Nat := 0
  carriedSince : Option Nat := none
  tearing  : Bool := false
  save     : U64 := 0
deriving DecidableEq, Repr

/-- A context switch in progress (06 R166): the outgoing contexts, the incoming one and its phase; the cores whose `SWAP` item is in
flight and the stack engines that reload their staging share. -/
inductive SwPhase where
  | drain | save | restore
deriving DecidableEq, Repr

structure Switch where
  out   : List Nat
  inc   : Nat
  phase : SwPhase
  swaps : List Nat := []
  staging : List Nat := []
deriving DecidableEq, Repr

structure Bed where
  first : BitVec 10 := 0
  cores : BitVec 10 := 0
  epoch : U16 := 0
  rel   : Nat := 0
  ctxs  : List Ctx := List.replicate 4 {}
  sw    : Option Switch := none
deriving DecidableEq, Repr

/-- An item that a removal took out of the table while its core still runs it to its tile boundary (06 R170, R171): its row where
`ROW_VALID` is set, its bed context, and the request whose teardown removed it. -/
structure Orphan where
  row  : Option (BitVec 13)
  bed  : Nat
  ctx  : Nat
  torn : Option U32 := none
deriving DecidableEq, Repr

/-- A core that belongs to a bed or is about to (06 R161, R163, R168). Its parked items are those of the table in the
state `parked` on it; `since` is when it took the item it runs (15 R379). -/
structure Core where
  bed     : Nat
  join    : U16
  running : Option Nat := none
  flagged : Bool := false
  joining : Bool := false
  leaving : Bool := false
  next    : Option Nat := none
  orphan  : Option Orphan := none
  since   : U64 := 0
deriving DecidableEq, Repr

structure Disp where
  items   : List Item := []
  nextIdx : Nat := 0
  gates   : List (Nat × U32) := []
  flows   : List (Nat × Flow) := []
  beds    : List Bed := List.replicate 32 {}
  cores   : List (Nat × Core) := []
  await   : List (Nat × Nat) := []
deriving DecidableEq, Repr

/-! ### Plots and the cold frame -/

/-- Why a cold-frame move was queued (07 R204). -/
inductive MoveFor where
  | pressure | restore | flush
deriving DecidableEq, Repr

/-- A plot move (07 R201, R205): the request slot and plot index, the frame read or written, the granules, whether
its request has ended (R209), the bytes of the plot's KV part, and when its copy was issued (15 R379). -/
structure Move where
  slot   : Nat
  handle : U32
  plot   : Nat
  cls    : MoveFor
  flying : Bool
  frame  : Nat
  run    : Option ColdRun
  dead   : Bool
  bytes  : Nat
  at_    : U64 := 0
deriving DecidableEq, Repr

structure Plots where
  refs     : List (Nat × U16) := []
  released : List Nat := []
  poolEn   : Bool := false
  hostEn   : Bool := false
  poolBase : BitVec 48 := 0
  poolSize : U32 := 0
  hostBase : List (Nat × BitVec 48) := []
  hostSize : List (Nat × U32) := []
  runs     : List ColdRun := []
  moves    : List Move := []
  oldBlocks : List (Nat × Nat) := []
deriving DecidableEq, Repr

/-! ### The Seedbed -/

/-- Seedbed key record (07 R185). -/
structure Key where
  model  : BitVec 5
  scope  : U8
  graft  : Option (BitVec 12 × U16)
  tenant : BitVec 5
  epoch  : U32
deriving DecidableEq, Repr

/-- Seedbed node (07 R188); `parent` none is 0x3F_FFFF. `toks` is the footer of the node's plot (07 R173, R190). -/
structure Node where
  hash   : U64
  parent : Option Nat
  depth  : Nat
  plot   : Nat
  stack  : Nat
  key    : Key
  stamp  : U32
  children : Nat
  pins   : U16
  toks   : List U32
deriving DecidableEq, Repr

/-- A removal walk in progress: a model's nodes, or a graft version's (07 R199). -/
inductive Walk where
  | model (slot : BitVec 5)
  | graft (slot : BitVec 12) (ver : U16)
deriving DecidableEq, Repr

structure Seed where
  nodes   : List (Nat × Node) := []
  cache   : List (Nat × List Nat) := []
  collide : U32 := 0
  full    : U32 := 0
  scopes  : List (Nat × U32) := []
  sweep   : Nat := 0
  cands   : List (Nat × (Nat × U32)) := []
  walks   : List Walk := []
  nextPin : U16 := 0
deriving DecidableEq, Repr

/-! ### The Greenhouse -/

/-- Model slot states (08 R210). -/
inductive SlotState where
  | empty | loading | resident | tainted | lost | evicting
deriving DecidableEq, Repr

/-- A model slot (08 R210, R233). `taintSteps` are the steps in which the reports of the regions in `taint` arrived (R228). `fresh` are the parts, by region and stack, that a reload placed at a fresh location (R228), `copyAt` is when its load or reload began (15 R379). -/
structure Slot where
  state    : SlotState := .empty
  desc     : Option ModelDesc := none
  srcSpace : BitVec 2 := 0
  descAddr : U64 := 0
  srcAddr  : U64 := 0
  fallback : BitVec 5 := 0
  fbValid  : Bool := false
  fbTold   : Bool := false
  taint    : List Nat := []
  taintSteps : List U64 := []
  reloading : Bool := false
  poolBase : Nat := 0
  lastUse  : U64 := 0
  regions  : List Region := []
  fresh    : List (Nat × Nat) := []
  copyAt   : U64 := 0
  redo     : Nat := 0
deriving DecidableEq, Repr

/-- The step in which the first tainted region's report arrived. -/
def Slot.taintStep (x : Slot) : U64 := x.taintSteps.headD 0

/-- Graft version states (08 R222). -/
inductive GState where
  | loading | resident | superseded | tainted | lost | retired
deriving DecidableEq, Repr

/-- The delta blocks that a graft version stores of one region on one stack, with their index (08 R221): block numbers in order. -/
structure DeltaPart where
  region : Nat
  part   : Nat
  blocks : List U32
deriving DecidableEq, Repr

/-- A graft version (08 R220 to R226); `loaded` once its delta blocks are in place. -/
structure GVer where
  slot     : BitVec 12
  ver      : U16
  base     : BitVec 5
  state    : GState
  back     : GState
  desc     : GraftDesc
  srcSpace : BitVec 2
  descAddr : U64
  srcAddr  : U64
  taint    : List Nat := []
  taintSteps : List U64 := []
  reloading : Bool := false
  walked   : Bool := false
  loaded   : Bool := false
  deltas   : List Delta := []
  parts    : List DeltaPart := []
  fresh    : List (Nat × Nat) := []
  copyAt   : U64 := 0
  redo     : Nat := 0
deriving DecidableEq, Repr

/-- The step in which the first tainted region's report arrived. -/
def GVer.taintStep (x : GVer) : U64 := x.taintSteps.headD 0

structure Gh where
  slots  : List Slot := List.replicate 32 {}
  grafts : List GVer := []
  newest : List (Nat × U16) := []
  events : List U64 := []
  ovf    : Bool := false
deriving DecidableEq, Repr

/-! ### The Pruner, sampling and SELECT -/

/-- An open row-position (09 R234, R246, R248). Entries are score and index. -/
structure PPos where
  list    : List (U32 × BitVec 22) := []
  shards  : Nat := 0
  sum     : Nat := 0
  m       : Option U32 := none
  s       : U64 := 0
  guess   : Option (List U32) := none
deriving DecidableEq, Repr

/-- What a finalised row commits (09 R252, 10 R272, R275). -/
structure Outcome where
  tokens   : List Rec
  accepted : Nat
  draw     : U64
  stopMatch : U16
  status   : U8
  fault    : Bool
  guesses  : Option (List U32)
deriving DecidableEq, Repr

/-- State of a manifest row: open, finalised, or closed with nothing committed (09 R244, R245, R252). -/
inductive PState where
  | opened | final | closed
deriving DecidableEq, Repr

structure PRow where
  row    : BitVec 13
  handle : U32
  k      : Nat
  d      : Nat
  t      : Nat
  wave   : Nat
  lane   : Nat
  prof    : ProfileF
  tokens  : List U32
  pos    : List PPos
  state  : PState
  skips  : Nat
  out    : Option Outcome
deriving DecidableEq, Repr

/-- A selection lane (09 R236): its input queue of at most 16 lists, and its two job buffers of at most 64 entries. -/
structure Lane where
  queue : List PList := []
  jobs  : List (List (U32 × BitVec 22)) := [[], []]
deriving DecidableEq, Repr

/-- The Pruner. `port` is the list that the ingest port holds with its grant while a lane's queue is full (09 R243); `lost` are the rows
without a guess record for the row-position that took their last token, an island reset having emptied it or none having arrived, until
they are members of a step again (10 R271; 15 R381). -/
structure Prn where
  rows      : List PRow := []
  lanes     : List Lane := List.replicate 64 {}
  port      : Option PList := none
  lost      : List U32 := []
  nan       : U32 := 0
  stray     : U32 := 0
  malformed : U32 := 0
  skip      : U32 := 0
  trunc     : U32 := 0
  empty     : U32 := 0
  guessMissing : U32 := 0
  guessBad  : U32 := 0
  tailBad   : U32 := 0
deriving DecidableEq, Repr

/-! ### Ledger -/

structure Led where
  unattr   : U64 := 0
  discNs   : U64 := 0
  discNj   : U64 := 0
  overhead : U64 := 0
  cur      : List (U32 × Ledg) := []
  curNj    : Nat := 0
  inInt    : Bool := false
  late     : List (U32 × Nat) := []
  warns    : U16 := 0
  fallbacks : U16 := 0
  aborts   : U16 := 0
  fbFails  : U16 := 0
deriving DecidableEq, Repr

/-! ### Arbiters -/

/-- An input of an arbiter (12 R316 to R326). `queue` holds the beats of the transactions that request, the oldest first: on EGRESS
the pending queue, on a small instance the one request raised. `posted` are the transactions of a requester that stalls. -/
structure Inp where
  queue   : List Nat := []
  posted  : List Nat := []
  quota   : U16 := 0
  quotaNow : U16 := 0
  inWin   : Nat := 0
  grants  : BitVec 48 := 0
  wait    : BitVec 48 := 0
  longest : U32 := 0
  waiting : Nat := 0
deriving DecidableEq, Repr

/-- An arbiter (12). `left` are the beats that the holder has not moved; `hint` is the input hinted in the last cycle (R319);
`taking` is set from a revocation to the debug port's grant in the next cycle (R323); `rollDue` once a window's events are used
up, until the first event of the next (R322). -/
structure Arb where
  inputs  : Nat
  window  : U16 := 0x100
  winNow  : U16 := 0x100
  pos     : U16 := 0
  windows : U32 := 0
  rollDue : Bool := false
  holder  : Option Nat := none
  held    : U32 := 0
  grantAt : U64 := 0
  left    : Nat := 0
  taking  : Bool := false
  hint    : Option Nat := none
  hintEn  : Bool := true
  hintLead : BitVec 4 := 4
  hintBroken : U32 := 0
  depth   : BitVec 3 := 0
  revokes : U32 := 0
  reject  : Bool := false
  shadow  : List (BitVec 5)
  active  : List (BitVec 5)
  inp     : List Inp
deriving DecidableEq, Repr

/-! ### Tether -/

/-- A frame of this member on its way round (13 R339). -/
structure OwnFrame where
  kind  : U8
  step  : U64
  part  : BitVec 15
  sent  : U64
  again : Bool
  frame : FrameOut
deriving DecidableEq, Repr

/-- A mirrored row on a follower (13 R334, R341): `row` none for a request kept without a row; `restore` the plots whose
copies are still coming back; `bed` the bed that its Sower gave it (06 R144); `holds` the weights and graft holds of this member (08 R227, R231); `stops` the stop sequences that
STOP_MATCH counts (10 R274). -/
structure Mirror where
  row       : Option (BitVec 13)
  handle    : U32
  join      : JoinE
  table     : List PlotEnt
  newLeft   : Nat
  committed : Option Nat
  draw      : U64
  stopMatch : U16
  depth     : Nat
  ver       : U16
  bed       : BitVec 5 := 0
  tokens    : List U32
  chunk     : Option Chunk
  flow      : Option (BitVec 12)
  restore   : Option (List Nat)
  waits     : Bool := false
  holds     : Holds := {}
  stops     : Option (U16 × List (List U32)) := none
deriving DecidableEq, Repr

/-- A part of a manifest that has arrived (13 R340, R341). -/
structure ManPart where
  step    : U64
  part    : Nat
  last    : Bool
  full    : Bool
  entries : List ManEntry
deriving DecidableEq, Repr

/-- The last STATUS of a member (13 R344). -/
structure MemStat where
  member : Nat
  step   : U64
  e      : StatusE
deriving DecidableEq, Repr

/-- The Tether port (13 R334 to R355). Of its own bookkeeping: `fresh` and `bump` mark a leader reset since the group
formed (R353), `mans` the plots that manifests named (R344), `leaves` the entries for the next manifest, `estPend` the
steps whose estimates wait for every STATUS (R347), `backs` the members that reported a restore, `slowSent` the step of the
last SLOW frame and how many of that step were sent, `applied` the last step whose tokens the leader applied (R340), `coming` the plots
that restores bring back and no manifest has named (R344), `dropDue` that the work of discarded steps leaves once their collectives have
completed (R350), `ours` that the hold has a cause on this SA9 (15 R393). -/
structure Teth where
  en        : Bool := false
  lossUs    : U16 := 0x3E8
  holdLimit : U8 := 0x64
  model     : BitVec 5 := 0
  lock      : Bool := false
  formed    : Bool := false
  held      : Bool := false
  brk       : Bool := false
  epoch     : U16 := 0
  crcErrors : U16 := 0
  resends   : U16 := 0
  id        : U16 := 0
  sizeM1    : BitVec 10 := 0
  sampler   : BitVec 10 := 0
  index     : BitVec 10 := 0
  own       : List OwnFrame := []
  seen      : List (BitVec 10 × U8 × U64 × BitVec 15) := []
  heldAt    : U64 := 0
  fresh     : Bool := true
  bump      : Bool := true
  abandoned : Bool := false
  forced    : Bool := false
  intact    : Bool := true
  rollAt    : U64 := 0
  stats     : List MemStat := []
  slowSteps : List U64 := []
  mirrors   : List Mirror := []
  manStep   : U64 := 0
  tokStep   : U64 := 0
  restored  : List U32 := []
  mans      : List (U64 × Nat) := []
  leaves    : List ManEntry := []
  estPend   : List (U64 × Nat × Bool × Nat) := []
  parts     : List ManPart := []
  strikes   : List (U64 × List TokenE) := []
  backs     : List (U32 × Nat) := []
  profiles  : List ((Nat × Nat) × Prof) := []
  slowSent  : U64 × Nat := (0, 0)
  applied   : U64 := 0
  coming    : Nat := 0
  dropDue   : Bool := false
  ours      : Bool := false
deriving DecidableEq, Repr

/-! ### Power and heat -/

/-- A ballast ladder (14 R363, R364): its step, its last move, and since when its node has stayed HYST below the limit. -/
structure Ladder where
  b      : BitVec 4 := 0
  moved  : Option U64 := none
  cool   : Option U64 := none
deriving DecidableEq, Repr

/-- A node of the thermal model (14 R357 to R361): `power` the mean of the last update, `sum` and `n` the samples since, `maxP`
the largest value delivered since the channel was last unflagged, `lastP` the value last taken, `taken` a reading for the
next update. -/
structure PNode where
  est     : Int := 0
  power   : U16 := 0
  sum     : Nat := 0
  n       : Nat := 0
  flagged : Bool := false
  maxP    : U16 := 0
  lastP   : U16 := 0
  taken   : Option Int := none
  asked   : Bool := false
  lastAsk : Option U64 := none
  sensorBad : Bool := false
deriving DecidableEq, Repr

/-- Power and heat (14). `budgets` are handed to the power controller, in 0.01 W, the die ladder's first. -/
structure Pwr where
  module   : BitVec 12 := 0x960
  stack    : U8 := 0x3C
  die      : BitVec 12 := 0x640
  stackT   : BitVec 12 := 0x5A0
  hyst     : U8 := 0x30
  ladders  : List Ladder := List.replicate 13 {}
  nodes    : List PNode := List.replicate 24 {}
  lcc      : U64 := 0
  modFlag  : Bool := false
  coolFlag : Bool := false
  coolant  : Int := 0
  seq      : U16 := 0
  gotAny   : Bool := false
  silent   : Bool := false
  lastAt   : U64 := 0
  missed   : U32 := 0
  droop    : BitVec 18 := 0
  turn     : Nat := 0
  turnAt   : U64 := 0
  budgets  : List Nat := List.replicate 13 0
deriving DecidableEq, Repr

/-! ### Trace -/

/-- The trace (17 R420, 18 R433 to R437). `bufs` are the sources' buffers: the dispatcher's, the Sower's, the Pruner's and those
of the eight gardener cores; `served` is the gardener core whose record was last written. -/
structure Trc where
  en      : Bool := false
  log2    : BitVec 5 := 0
  events  : U32 := 0
  tenants : U16 := 0
  ring    : BitVec 52 := 0
  head    : U32 := 0
  tail    : U32 := 0
  dropped : U32 := 0
  bufs    : List (List TraceRec) := List.replicate 11 []
  served  : Nat := 7
deriving DecidableEq, Repr

/-! ### Outputs, with the read-out of the debug network -/

/-- The SRAM of an island as its instrument reads it (18 R441). The contents of a gardener SRAM come from the image: a free
value. `sower` gives the Trellis rows as their 256 bytes (05 R111). -/
inductive Sram where
  | zeros
  | aon (ctl : Ctl) (wdog : Wdog) (elog : ErrLog)
  | gdn (insn : List (Nat × List U8)) (rest : Nat)
  | sower (rows : List (Nat × List Nat)) (laid : List Laid) (step : U64)
  | disp (d : Disp)
  | prune (rows : List PRow) (lanes : List Lane)
  | plot (a : Arb)
  | seed (a : Arb) (cache : List (Nat × List Nat))
  | egr (a : Arb) (overflow : List (Nat × Nat)) (bufs : List (List TraceRec))
  | ledg (led : Led) (pwr : Pwr)
  | teth (t : Teth)
  | nocb (pages : List Page) (reads : List HostRd)
deriving DecidableEq, Repr

/-- What an island's instrument returned: its registers with their offsets, and its SRAM. -/
structure ReadOut where
  island : Nat
  regs   : List (Nat × Nat)
  sram   : Sram
deriving DecidableEq, Repr

/-- What the debug network got through the debug port of an arbiter (18 R442): a plot-table entry or a reference count, a Seedbed node,
the open lists of a lane's rows, or the copy of an island's SRAM written to an address that it names. -/
inductive DebugOut where
  | entry (e : Option PlotEnt)
  | refcount (n : Nat)
  | node (x : Option Node)
  | lane (rows : List (BitVec 13 × List (List (U32 × BitVec 22))))
  | copy (addr : U64) (x : Sram)
deriving DecidableEq, Repr

/-- What the block has put on its ports. `masked` and `held` are those of the PCIe functions' MSI-X tables: the vectors that host
software has masked, and the messages that wait for their unmasking (01 R23). The records are in the order of issue (01 R24, R31): writes to host memory, reads of at most 512 B, copy
requests, argument blocks, work items delivered, stack-stream work (stack and rows), requests for stack temperatures, MSI-X
messages, Tether frames and answers to the debug network. -/
structure Out where
  host     : List HostOut := []
  reads    : List HostRd := []
  copies   : List CopyReq := []
  args     : List (U64 × List ArgRow) := []
  inbox    : List Inbox := []
  stackWork : List (Nat × List (BitVec 13)) := []
  sensors  : List Nat := []
  msix     : List (Nat × Nat) := []
  masked   : List (Nat × Nat) := []
  held     : List (Nat × Nat) := []
  frames   : List FrameOut := []
  tetherEn : Bool := false
  readout  : List ReadOut := []
  debug    : List DebugOut := []
deriving DecidableEq, Repr

/-! ### The whole -/

/-- The state of the block. `tails` are the spools whose TAIL is being read (10 R279); `nocHeld` is the NoC traffic that waits
for a thaw (18 R439). Of the model's own: `out`, `seq` (the order of requests), `free` (the free value used next) and
`pending` (the commands that wait). -/
structure State where
  ctl    : Ctl
  elog   : ErrLog
  wdog   : Wdog
  port   : Port
  pages  : List Page
  out    : Out
  reqs   : List (Nat × Req)
  gens   : List (Nat × U8)
  seq    : Nat
  tens   : List Ten
  sow    : Sow
  disp   : Disp
  plots  : Plots
  seed   : Seed
  gh     : Gh
  prn    : Prn
  led    : Led
  arbs   : List Arb
  teth   : Teth
  pwr    : Pwr
  trc    : Trc
  tails  : List (Nat × Nat)
  nocHeld : List Instr
  free   : Nat
  pending : List Instr
deriving DecidableEq, Repr

/-- Faults. -/
inductive Fault where
  /-- Raised by every command but COLD_RESET after SUPPLY_SAG: the block's state is unknown (14 R368). Safe. -/
  | stateUnknown
deriving DecidableEq, Repr

/-- Refusals. -/
inductive Refusal where
  /-- The command has no meaning in this model yet. Raised by no arm of exec. Safe. -/
  | notModelled (mnemonic : String)
deriving DecidableEq, Repr

/-- The cold-reset image of an arbiter instance (17 R417). -/
def Arb.reset (inputs : Nat) (egress : Bool) : Arb :=
  { inputs := inputs
    hintEn := !egress
    hintLead := if egress then 0 else 4
    depth := if egress then 4 else 0
    shadow := (List.range inputs).map (BitVec.ofNat 5)
    active := (List.range inputs).map (BitVec.ofNat 5)
    inp := List.replicate inputs {} }

/-- The machine right after cold reset (00 R11, 16 R403, 17 R415 to R418). -/
def State.reset : State :=
  { ctl := {}
    elog := {}
    wdog := {}
    port := {}
    pages := List.replicate 17 {}
    out := {}
    reqs := []
    gens := []
    seq := 0
    tens := List.replicate 17 {}
    sow := {}
    disp := {}
    plots := {}
    seed := {}
    gh := {}
    prn := {}
    led := {}
    arbs := [Arb.reset 32 true, Arb.reset 8 false, Arb.reset 8 false, Arb.reset 8 false]
    teth := {}
    pwr := {}
    trc := {}
    tails := []
    nocHeld := []
    free := 0
    pending := [] }

end Sys2Proof.Machine
end

