-- ==== Sys2Proof/Machine/Operands.lean ====
section
/-! DEFINITION. Operand forms: the parts of a handle, of a message header and of the messages, the range checks of the
message fields (04), and the byte images of the key record (07 R185). -/

namespace Sys2Proof.Machine

/-- Tenant index of a handle, bits [31:28] (00 R12). -/
def hTenant (h : U32) : Nat := h.toNat / 2 ^ 28

/-- Request slot of a handle, bits [27:8] (00 R12). -/
def hSlot (h : U32) : Nat := h.toNat / 2 ^ 8 % 2 ^ 20

/-- Generation of a handle, bits [7:0] (00 R12). -/
def hGen (h : U32) : Nat := h.toNat % 2 ^ 8

/-- The handle of a tenant, a slot and a generation (00 R12). -/
def mkHandle (tenant slot gen : Nat) : U32 :=
  BitVec.ofNat 32 (tenant % 16 * 2 ^ 28 + slot % 2 ^ 20 * 2 ^ 8 + gen % 2 ^ 8)

/-- The page an aperture reaches (01 R22). -/
def aptPage : Apt → Nat
  | .pf p => p.val
  | .vf t => t.val

/-- The function behind an aperture: 16 is the PF. -/
def aptFn : Apt → Fin 17
  | .pf _ => 16
  | .vf t => ⟨t.val, by omega⟩

/-- The page of the management partition. -/
def mgmt : Nat := 16

/-- The header of a message that travels either way. -/
def viaHdr : Via → Hdr
  | .ring h => h
  | .urgent _ _ h => h

/-- The page, the header and the way of a message command. -/
def msgHead : Instr → Option (Nat × Via)
  | .admitReq p h _ => some (p.val, .ring h)
  | .cancel p v _ => some (p.val, v)
  | .pause p h _ => some (p.val, .ring h)
  | .resume p h _ => some (p.val, .ring h)
  | .extend p h _ => some (p.val, .ring h)
  | .setProfile p h _ => some (p.val, .ring h)
  | .openSpool p h _ _ => some (p.val, .ring h)
  | .queryReq p h _ => some (p.val, .ring h)
  | .timeXchg p v _ => some (p.val, v)
  | .select p h _ => some (p.val, .ring h)
  | .tenantOpen p h _ => some (p.val, .ring h)
  | .tenantReset p h _ => some (p.val, .ring h)
  | .queryLedger p h _ _ => some (p.val, .ring h)
  | .seedbedPin p h _ => some (p.val, .ring h)
  | .seedbedUnpin p h _ => some (p.val, .ring h)
  | .coldFlush p h _ => some (p.val, .ring h)
  | .modelLoad p h _ _ => some (p.val, .ring h)
  | .modelEvict p h _ => some (p.val, .ring h)
  | .graftLoad p h _ _ => some (p.val, .ring h)
  | .graftReplace p h _ _ => some (p.val, .ring h)
  | .graftRetire p h _ => some (p.val, .ring h)
  | .bedConfig p h _ => some (p.val, .ring h)
  | .setShares p h _ => some (p.val, .ring h)
  | .setBudget p h _ => some (p.val, .ring h)
  | .setCyclic p h _ => some (p.val, .ring h)
  | .setDeadlinePolicy p h _ => some (p.val, .ring h)
  | .traceConfig p h _ => some (p.val, .ring h)
  | .thermalQuery p h _ => some (p.val, .ring h)
  | .fwInfo p h _ => some (p.val, .ring h)
  | .badOpcode p v _ => some (p.val, v)
  | _ => none

/-- The header of a message command; an empty one for any other command. -/
def msgHdr (i : Instr) : Hdr :=
  match msgHead i with
  | some (_, v) => viaHdr v
  | none => ⟨false, false, 0, 0, 1, false⟩

/-- The opcode of a message (R82); a BAD_OPCODE message carries its own. -/
def msgOpcode : Instr → U8
  | .admitReq .. => 0x01
  | .cancel .. => 0x02
  | .pause .. => 0x03
  | .resume .. => 0x04
  | .extend .. => 0x05
  | .setProfile .. => 0x06
  | .openSpool .. => 0x07
  | .queryReq .. => 0x08
  | .timeXchg .. => 0x10
  | .select .. => 0x11
  | .tenantOpen .. => 0x20
  | .tenantReset .. => 0x21
  | .queryLedger .. => 0x22
  | .seedbedPin .. => 0x23
  | .seedbedUnpin .. => 0x24
  | .coldFlush .. => 0x25
  | .modelLoad .. => 0x40
  | .modelEvict .. => 0x41
  | .graftLoad .. => 0x42
  | .graftReplace .. => 0x43
  | .graftRetire .. => 0x44
  | .bedConfig .. => 0x45
  | .setShares .. => 0x46
  | .setBudget .. => 0x47
  | .setCyclic .. => 0x48
  | .setDeadlinePolicy .. => 0x49
  | .traceConfig .. => 0x4A
  | .thermalQuery .. => 0x4B
  | .fwInfo .. => 0x4C
  | .badOpcode _ _ o => o
  | _ => 0

/-- The units of an opcode (R82). -/
def opUnits (o : U8) : Nat :=
  if o = 0x01 ∨ o = 0x11 then 2 else if o = 0x06 ∨ o = 0x48 then 3 else 1

/-- The opcodes of the table *Opcodes* (R82). -/
def opListed (o : U8) : Bool :=
  let n := o.toNat
  (1 ≤ n && n ≤ 8) || n = 0x10 || n = 0x11 || (0x20 ≤ n && n ≤ 0x25) || (0x40 ≤ n && n ≤ 0x4C)

/-- Opcodes that complete DENIED on a tenant page (R82). -/
def opMgmtOnly (o : U8) : Bool := o = 0x20 || 0x40 ≤ o.toNat

/-- Opcodes that complete DENIED on the management page (R82). -/
def opTenantOnly (o : U8) : Bool := o = 0x01 || o = 0x05 || o = 0x06 || o = 0x07

/-- Units of the ring that a message consumes (R63, R83). -/
def msgUnits (i : Instr) : Nat :=
  let l := (msgHdr i).length.toNat
  if 1 ≤ l ∧ l ≤ 4 then l else 1

/-- binary32 classes. -/
def f32Exp (x : U32) : Nat := x.toNat / 2 ^ 23 % 256
def f32Frac (x : U32) : Nat := x.toNat % 2 ^ 23
def f32Sign (x : U32) : Bool := 2 ^ 31 ≤ x.toNat
def f32Nan (x : U32) : Bool := f32Exp x = 255 && f32Frac x ≠ 0
def f32Inf (x : U32) : Bool := f32Exp x = 255 && f32Frac x = 0
def f32Finite (x : U32) : Bool := f32Exp x ≠ 255
def f32Zero (x : U32) : Bool := x.toNat % 2 ^ 31 = 0

/-- TEMP: finite and at least 0; −0 counts as 0 (04). -/
def tempOk (x : U32) : Bool := f32Finite x && (!f32Sign x || f32Zero x)

/-- TOP_P in (0, 1] (04): the encodings of positive values up to 1.0. -/
def topPOk (x : U32) : Bool := 0 < x.toNat && x.toNat ≤ 0x3F800000

/-- MIN_P in [0, 1) (04). -/
def minPOk (x : U32) : Bool := x.toNat < 0x3F800000 || x = 0x80000000

def stopLens (x : U16) : List Nat := [x.toNat % 16, x.toNat / 16 % 16, x.toNat / 256 % 16, x.toNat / 4096]

/-- Check 6 of R83: reserved bits are 0 and every field is in range. ADMIT's fields belong to R39. Ids of a STOP sequence beyond its
length are not checked (DESIGN CHOICE, log entry 62). -/
def fieldsOk (page : Nat) : Instr → Bool
  | .cancel _ _ f => !f.rsv && f.ttl = 0
  | .pause _ _ f => !f.rsv
  | .resume _ _ f => !f.rsv && f.ttl = 0
  | .queryReq _ _ f => !f.rsv && f.ttl = 0
  | .extend _ _ f => !f.rsv && 0 < f.count.toNat && f.tokensAddr.toNat % 4 = 0 && 0 < f.maxNew.toNat
  | .setProfile _ _ f => !f.rsv && 1 ≤ f.topK.toNat && f.topK.toNat ≤ 64 && f.draftMax.toNat ≤ 4 && tempOk f.temp
      && topPOk f.topP && minPOk f.minP && (stopLens f.stopLen).all (· ≤ 8) && f.biasCount.toNat ≤ 256
      && f.biasAddr.toNat % 8 = 0
  | .openSpool _ _ f _ => !f.rsv && (f.log2 = 0 || (4 ≤ f.log2.toNat && f.log2.toNat ≤ 16))
      && f.hdrAddr.toNat % 64 = 0 && f.ringAddr.toNat % 256 = 0
  | .timeXchg _ _ f => !f.rsv
  | .select _ _ f => !f.rsv && 0 < f.rows.toNat && 1 ≤ f.rowLen.toNat && f.rowLen.toNat ≤ 4194304
      && f.dst.toNat % 64 = 0 && f.k.toNat ≤ 64
  | .tenantOpen _ _ f => !f.rsv
  | .tenantReset _ _ f => !f.rsv && (page = mgmt || f.tenant.toNat = page)
  | .queryLedger _ _ f _ => !f.rsv && (page = mgmt || f.tenant.toNat = page) && f.outAddr.toNat % 64 = 0
  | .seedbedPin _ _ f => !f.rsv && 1 ≤ f.plots.toNat && f.plots.toNat ≤ 131072
  | .seedbedUnpin _ _ f => !f.rsv
  | .coldFlush _ _ f => !f.rsv && (!f.all || f.handle = 0)
  | .modelLoad _ _ f _ => !f.rsv && f.srcSpace.toNat ≤ 2
  | .modelEvict _ _ f => !f.rsv
  | .graftLoad _ _ f _ => !f.rsv && f.srcSpace.toNat ≤ 2
  | .graftReplace _ _ f _ => !f.rsv && f.srcSpace.toNat ≤ 2 && f.version = 0
  | .graftRetire _ _ f => !f.rsv
  | .bedConfig _ _ f => !f.rsv
  | .setShares _ _ f => !f.rsv && f.rowCap.toNat ≤ 8192
  | .setBudget _ _ f => !f.rsv && 1 ≤ f.warnPct.toNat && f.warnPct.toNat ≤ 100 && f.quota.toNat ≤ 1048576
  | .setCyclic _ _ f => !f.rsv && f.length.toNat ≤ 64 && f.entries.all (fun e => e.1 ≠ 3)
  | .setDeadlinePolicy _ _ f => !f.rsv
  | .traceConfig _ _ f => !f.rsv && f.ringAddr.toNat % 4096 = 0 && f.events.toNat &&& 0xF8FCF0C0 = 0
  | .thermalQuery _ _ f => !f.rsv
  | .fwInfo _ _ rsv => !rsv
  | _ => true

/-- Little-endian bytes of a number. -/
def bytesLE : Nat → Nat → List Nat
  | 0, _ => []
  | n + 1, x => x % 256 :: bytesLE n (x / 256)

/-- The number of little-endian bytes. -/
def ofBytesLE : List Nat → Nat
  | [] => 0
  | b :: bs => b % 256 + 256 * ofBytesLE bs

/-- The 16 bytes of a Seedbed key record (07 R185). -/
def Key.bytes (k : Key) : List Nat :=
  let (gs, gv) := match k.graft with
    | some (g, v) => (g.toNat + 32768, v.toNat)
    | none => (0, 0)
  [k.model.toNat, k.scope.toNat] ++ bytesLE 2 gs ++ bytesLE 2 gv ++ [k.tenant.toNat, 0] ++ bytesLE 4 k.epoch.toNat
    ++ [0, 0, 0, 0]

end Sys2Proof.Machine
end

