-- ==== Sys2Proof/Machine/Codec.lean ====
section
/-! DEFINITION. The message header (04 R81) and the units of the two messages that an urgent slot accepts (03 R71; 04 R90,
R99) as bits: an encoder and a decoder of URG_MSG. -/

namespace Sys2Proof.Machine

def bit1 (b : Bool) : BitVec 1 := BitVec.ofBool b

/-- The header's 64 bits (R81). A header with `rsv` is given one of its reserved bits. -/
def hdrBits (op : U8) (h : Hdr) : U64 :=
  (0 : BitVec 8) ++ h.length ++ h.tag ++ (0 : BitVec 8) ++ h.gen ++ ((0 : BitVec 5) ++ bit1 h.rsv ++ bit1 h.noIrq ++ bit1 h.fence) ++ op

/-- The header that 64 bits hold. -/
def hdrOf (w : U64) : Hdr :=
  { fence := w.getLsbD 8
    noIrq := w.getLsbD 9
    gen := w.extractLsb' 16 8
    tag := w.extractLsb' 32 16
    length := w.extractLsb' 48 8
    rsv := w.extractLsb' 10 6 ≠ 0 || w.extractLsb' 24 8 ≠ 0 || w.extractLsb' 56 8 ≠ 0 }

def opOf (w : U64) : U8 := w.extractLsb' 0 8

/-- The unit that CANCEL, PAUSE, RESUME and QUERY_REQ share. -/
def handleBits (op : U8) (h : Hdr) (f : HandleF) : BitVec 512 :=
  (0 : BitVec 383) ++ bit1 f.rsv ++ f.ttl ++ f.handle ++ hdrBits op h

def handleOf (w : BitVec 512) : HandleF :=
  { handle := w.extractLsb' 64 32, ttl := w.extractLsb' 96 32, rsv := w.extractLsb' 128 384 ≠ 0 }

/-- The unit of TIME_XCHG (R99). -/
def timeBits (op : U8) (h : Hdr) (f : TimeF) : BitVec 512 := (0 : BitVec 383) ++ bit1 f.rsv ++ f.host ++ hdrBits op h

def timeOf (w : BitVec 512) : TimeF := { host := w.extractLsb' 64 64, rsv := w.extractLsb' 128 384 ≠ 0 }

/-- URG_MSG for an urgent message. -/
def urgBits : Instr → BitVec 512
  | .cancel _ v f => handleBits 0x02 (viaHdr v) f
  | .timeXchg _ v f => timeBits 0x10 (viaHdr v) f
  | .badOpcode _ v o => (0 : BitVec 448) ++ hdrBits o (viaHdr v)
  | _ => 0

/-- The message that URG_MSG holds when GO is written (R71). -/
def urgMsg (page : Fin 17) (slot : Fin 8) (irq : Bool) (w : BitVec 512) : Instr :=
  let b := w.extractLsb' 0 64
  let via : Via := .urgent slot irq (hdrOf b)
  if opOf b = 0x02 then .cancel page via (handleOf w)
  else if opOf b = 0x10 then .timeXchg page via (timeOf w)
  else .badOpcode page via (opOf b)

/-- Bytes of an element of a SELECT row; 0 for a reserved format (09 R254). -/
def elemBytes (format : BitVec 3) : Nat := match format.toNat with | 0 => 4 | 1 => 2 | 2 => 2 | 3 => 1 | 4 => 1 | _ => 0

end Sys2Proof.Machine
end

