-- ==== Sys2Proof/Machine/Images.lean ====
section
/-! DEFINITION. The byte images of the records that the block reads and writes (00 R7): every multi-byte field lies with its least
significant byte at the lowest address. A record is a list of fields, each with its place, as the tables of the spec give it. -/

namespace Sys2Proof.Machine

/-- A field of a record: its first bit counted from bit 0 of byte 0, its width and its value. -/
abbrev Fld := Nat × Nat × Nat

/-- The field at bit `low` of byte `byte`. -/
def fbit (byte low width v : Nat) : Fld := (8 * byte + low, width, v)

/-- The field that begins at bit 0 of byte `byte`. -/
def fat (byte width v : Nat) : Fld := fbit byte 0 width v

def fflag (byte low : Nat) (b : Bool) : Fld := fbit byte low 1 (b2n b)

/-- The number that a record's fields make. -/
def recNat (l : List Fld) : Nat := l.foldl (fun a f => a + f.2.2 % 2 ^ f.2.1 * 2 ^ f.1) 0

/-- The `n` bytes of a record. -/
def recBytes (n : Nat) (l : List Fld) : List Nat := bytesLE n (recNat l)

/-- Values of one width in a row. -/
def frun (byte width : Nat) (l : List Nat) : List Fld := (List.range l.length).map (fun i => fat (byte + i * (width / 8)) width (l.getD i 0))

/-- A graft slot and its valid bit in 16 bits. -/
def graftFlds (byte : Nat) (slot : BitVec 12) (valid : Bool) (ver : U16) : List Fld :=
  [fat byte 12 slot.toNat, fbit byte 15 1 (b2n valid), fat (byte + 2) 16 ver.toNat]

/-! ### Messages (04): the units of a ring slot; a message with `rsv` has a bit set that its layout reserves -/

def handleFlds (f : HandleF) : List Fld := [fat 8 32 f.handle.toNat, fat 12 32 f.ttl.toNat]

def admitFlds (f : AdmitF) : List Fld :=
  [fat 8 64 f.promptAddr.toNat, fat 16 24 f.promptLen.toNat, fat 20 24 f.maxNew.toNat, fat 24 64 f.deadline.toNat,
   fat 32 5 f.model.toNat, fat 33 2 f.cls.toNat] ++ graftFlds 34 f.graftSlot f.graftValid f.graftVer ++
  [fat 38 12 f.profile.toNat, fat 40 16 f.spool.toNat, fflag 42 0 f.holdOnEnd, fflag 42 1 f.noMatch, fflag 42 2 f.noOffer,
   fflag 42 3 f.graftCurrent, fat 44 32 f.turnTtl.toNat, fat 64 64 f.budgetTime.toNat, fat 72 64 f.budgetBytes.toNat,
   fat 80 64 f.budgetEnergy.toNat]

def profileFlds (f : ProfileF) : List Fld :=
  [fat 8 12 f.profile.toNat, fat 10 7 f.topK.toNat, fat 11 3 f.draftMax.toNat, fat 12 32 f.temp.toNat, fat 16 32 f.topP.toNat,
   fat 20 32 f.minP.toNat, fat 24 64 f.seed.toNat, fat 32 16 f.stopLen.toNat, fat 34 9 f.biasCount.toNat,
   fat 40 64 f.biasAddr.toNat] ++
  (List.range 4).flatMap (fun j => frun (64 + 32 * j) 32 ((f.stop.getD j []).map (fun t => t.toNat)))

def selectFlds (f : SelectF) : List Fld :=
  [fat 8 64 f.src.toNat, fat 16 64 f.dst.toNat, fat 24 32 f.rows.toNat, fat 28 23 f.rowLen.toNat, fat 32 64 f.stride.toNat,
   fat 40 3 f.format.toNat, fat 41 7 f.k.toNat, fflag 42 0 f.smallest, fflag 42 1 f.space, fflag 42 2 f.threshEn,
   fat 44 32 f.thresh.toNat]

def graftMsgFlds (f : GraftF) : List Fld :=
  [fat 8 12 f.graftSlot.toNat, fat 10 5 f.base.toNat, fat 11 2 f.srcSpace.toNat, fat 12 16 f.version.toNat,
   fat 16 64 f.descAddr.toNat, fat 24 64 f.srcAddr.toNat]

/-- The fields of a message beyond its header, and whether a reserved bit is set. -/
def msgFlds : Instr → List Fld × Bool
  | .admitReq _ _ f => (admitFlds f, f.rsv)
  | .cancel _ _ f => (handleFlds f, f.rsv)
  | .pause _ _ f => (handleFlds f, f.rsv)
  | .resume _ _ f => (handleFlds f, f.rsv)
  | .extend _ _ f => ([fat 8 32 f.handle.toNat, fat 12 24 f.count.toNat, fat 16 64 f.tokensAddr.toNat, fat 24 24 f.maxNew.toNat], f.rsv)
  | .setProfile _ _ f => (profileFlds f, f.rsv)
  | .openSpool _ _ f _ => ([fat 8 16 f.spool.toNat, fat 10 5 f.log2.toNat, fat 16 64 f.hdrAddr.toNat, fat 24 64 f.ringAddr.toNat], f.rsv)
  | .queryReq _ _ f => (handleFlds f, f.rsv)
  | .timeXchg _ _ f => ([fat 8 64 f.host.toNat], f.rsv)
  | .select _ _ f => (selectFlds f, f.rsv)
  | .tenantOpen _ _ f => ([fat 8 4 f.tenant.toNat, fat 12 20 f.pasid.toNat, fflag 16 0 f.follow], f.rsv)
  | .tenantReset _ _ f => ([fat 8 4 f.tenant.toNat, fflag 9 0 f.close], f.rsv)
  | .queryLedger _ _ f _ => ([fat 8 4 f.tenant.toNat, fflag 9 0 f.perReq, fat 12 32 f.handle.toNat, fat 16 64 f.outAddr.toNat], f.rsv)
  | .seedbedPin _ _ f => ([fat 8 32 f.handle.toNat, fat 12 18 f.plots.toNat, fat 16 8 f.scope.toNat], f.rsv)
  | .seedbedUnpin _ _ f => ([fat 8 16 f.pin.toNat], f.rsv)
  | .coldFlush _ _ f => ([fat 8 32 f.handle.toNat, fflag 12 0 f.all], f.rsv)
  | .modelLoad _ _ f _ => ([fat 8 5 f.slot.toNat, fat 9 5 f.fallback.toNat, fflag 9 7 f.fbValid, fat 10 2 f.srcSpace.toNat,
      fat 16 64 f.descAddr.toNat, fat 24 64 f.srcAddr.toNat], f.rsv)
  | .modelEvict _ _ f => ([fat 8 5 f.slot.toNat], f.rsv)
  | .graftLoad _ _ f _ => (graftMsgFlds f, f.rsv)
  | .graftReplace _ _ f _ => (graftMsgFlds f, f.rsv)
  | .graftRetire _ _ f => ([fat 8 12 f.graftSlot.toNat], f.rsv)
  | .bedConfig _ _ f => ([fat 8 5 f.bed.toNat, fat 10 10 f.firstCore.toNat, fat 12 10 f.cores.toNat, fat 14 4 f.ctxValid.toNat]
      ++ (List.range 4).map (fun c => fat (16 + c) 5 (f.ctxModel.getD c 0).toNat), f.rsv)
  | .setShares _ _ f => ([fat 8 4 f.tenant.toNat, fat 10 16 f.weight.toNat, fat 12 14 f.rowCap.toNat, fat 14 2 f.maxClass.toNat], f.rsv)
  | .setBudget _ _ f => ([fat 8 4 f.tenant.toNat, fat 9 7 f.warnPct.toNat, fat 12 21 f.quota.toNat, fat 16 32 f.period.toNat,
      fat 24 64 f.time.toNat, fat 32 64 f.bytes.toNat, fat 40 64 f.energy.toNat], f.rsv)
  | .setCyclic _ _ f => ([fat 8 4 f.tenantA.toNat, fat 9 4 f.tenantB.toNat, fat 10 7 f.length.toNat]
      ++ frun 64 16 (f.entries.map (fun e => e.1.toNat + e.2.toNat * 4)), f.rsv)
  | .setDeadlinePolicy _ _ f => ([fat 8 4 f.tenant.toNat, fat 9 2 f.policy.toNat, fat 12 32 f.margin.toNat], f.rsv)
  | .traceConfig _ _ f => ([fflag 8 0 f.en, fat 9 5 f.log2.toNat, fat 12 32 f.events.toNat, fat 16 16 f.tenants.toNat,
      fat 24 64 f.ringAddr.toNat], f.rsv)
  | .thermalQuery _ _ f => ([fat 8 12 f.stackSet.toNat], f.rsv)
  | .fwInfo _ _ rsv => ([], rsv)
  | _ => ([], false)

/-- A reserved bit of a message's layout: its byte and its place in it. -/
def msgRsv : Instr → Nat × Nat
  | .setProfile .. => (11, 7)
  | .setCyclic .. => (10, 7)
  | i => (64 * msgUnits i - 1, 7)

/-- The bytes of a message as the host writes its units into the ring (03 R63, 04 R81). -/
def msgBytes (i : Instr) : List Nat :=
  let n := 64 * msgUnits i
  let (l, rsv) := msgFlds i
  recBytes n (fat 0 64 (hdrBits (msgOpcode i) (msgHdr i)).toNat :: fbit (msgRsv i).1 (msgRsv i).2 1 (b2n rsv) :: l)

/-- A bias entry (04 R96). -/
def Bias.bytes (b : Bias) : List Nat := recBytes 8 [fat 0 22 b.index.toNat, (22, 10, b.rsv.toNat), fat 4 32 b.value.toNat]

/-! ### Descriptors and their tables (08 R211, R220) -/

def modelDescBytes (d : ModelDesc) : List Nat :=
  recBytes 256 [fat 0 32 d.descVer.toNat, fat 4 23 d.vocab.toNat, fat 8 25 d.contextLen.toNat, fat 12 32 d.eos.toNat,
    fat 16 32 d.kvBytes.toNat, fat 20 32 d.plotCount.toNat, fat 24 16 d.crossover.toNat, fat 26 16 d.fillLimit.toNat,
    fat 28 16 d.layerFirst.toNat, fat 30 16 d.layerCount.toNat, fat 32 3 d.draftHeads.toNat, fat 33 4 d.weightFormat.toNat,
    fat 34 4 d.scratch.toNat, fat 36 32 d.staging.toNat, fat 40 64 d.tokenizer.toNat, fat 48 64 d.modelId.toNat,
    fat 56 64 d.weightBytes.toNat, fat 64 13 d.regionCount.toNat, fat 68 24 d.kernelCount.toNat, fat 72 64 d.regionTableOff.toNat,
    fat 80 64 d.kernelTableOff.toNat, fbit 255 7 1 (b2n d.rsv)]

def regionBytes (r : Region) : List Nat :=
  recBytes 16 [fat 0 64 r.srcOff.toNat, fat 8 32 r.length.toNat, fat 12 16 r.layer.toNat, fat 14 4 r.kind.toNat, fbit 15 7 1 (b2n r.rsv)]

def graftDescBytes (d : GraftDesc) : List Nat :=
  recBytes 64 [fat 0 32 d.descVer.toNat, fat 4 13 d.deltaCount.toNat, fat 8 64 d.baseModelId.toNat, fat 16 64 d.deltaTableOff.toNat,
    fat 24 64 d.graftBytes.toNat, fbit 63 7 1 (b2n d.rsv)]

def deltaBytes (d : Delta) : List Nat :=
  recBytes 32 [fat 0 12 d.region.toNat, fat 4 32 d.blocks.length, fat 8 64 d.indexOff.toNat, fat 16 64 d.dataOff.toNat,
    fat 24 64 d.scaleOff.toNat, fbit 1 7 1 (b2n d.rsv)]

/-- The bytes of an entry of the kernel table that the Greenhouse reads: the kernel's longest tile in ns (08 R211). -/
def kernelTileBytes (ns : Nat) : List Nat := bytesLE 4 ns

/-- The block numbers of a delta entry, at INDEX_OFF (08 R220). -/
def Delta.indexBytes (d : Delta) : List Nat := d.blocks.flatMap (fun b => bytesLE 4 b.toNat)

/-! ### What messages point to (02 R34, R40; 04 R95, R100; 10 R276) -/

/-- Token ids of a prompt or of an EXTEND. -/
def tokenBytes (l : List U32) : List Nat := l.flatMap (fun t => bytesLE 4 t.toNat)

/-- An element of a SELECT row in its format's width. -/
def elementBytes (fmt : BitVec 3) (x : U32) : List Nat := bytesLE (elemBytes fmt) x.toNat

/-- TAIL, bytes 32 to 35 of a spool header (10 R276). -/
def tailBytes (v : U32) : List Nat := bytesLE 4 v.toNat

/-! ### Lists and guesses (09 R237, 10 R270) -/

def entryBytes (score : U32) (index : BitVec 22) (valid : Bool) : List Nat :=
  recBytes 8 [fat 0 32 score.toNat, fat 4 22 index.toNat, (54, 1, b2n valid)]

def listBytes (l : PList) : List Nat :=
  recBytes 16 [fat 0 13 l.row.toNat, (13, 1, b2n l.parity), (14, 3, l.dpos.toNat), (17, 12, l.shard.toNat), fat 4 7 l.count.toNat,
    fat 8 32 l.lse.toNat, fat 12 32 l.max.toNat] ++ l.entries.flatMap (fun e => entryBytes e.1 e.2.1 e.2.2)

def guessBytes (g : Guess) : List Nat :=
  recBytes 32 ([fat 0 13 g.row.toNat, (13, 1, b2n g.parity), (14, 3, g.dpos.toNat), (17, 3, g.heads.toNat)]
    ++ frun 8 32 ((g.guesses.take g.heads.toNat).map (fun t => t.toNat)))

/-! ### Work items (06 R145) -/

/-- Class codes of a work item (R146). -/
def classCode : WClass → Nat
  | .cyclic => 0 | .decode => 1 | .select => 2 | .prefill => 3 | .swap => 4

/-- The row of an item that serves one row alone (06 R147). -/
def Item.row (i : Item) : Option (BitVec 13) := match i.rows with | [r] => some r | _ => none

def Item.bytes (i : Item) : List Nat :=
  recBytes 64 [fat 0 24 i.kernel.toNat, (24, 3, classCode i.cls), fat 4 5 i.bed, fbit 4 5 2 i.ctx, fflag 5 0 i.bound, fat 6 16 i.epoch.toNat,
    fat 8 12 (i.flow.getD 0).toNat, fbit 8 15 1 (b2n i.flow.isSome), fat 12 20 i.seq.toNat, fat 16 10 (i.affinity.getD 0).toNat,
    fbit 16 15 1 (b2n i.affinity.isSome), fat 18 16 i.deps.toNat, fat 20 14 i.waitGate, fat 22 14 (i.sigGate.getD 0),
    fbit 22 15 1 (b2n i.sigGate.isSome), fat 24 64 i.args.toNat, fat 32 64 i.step.toNat, fat 40 13 (i.row.getD 0).toNat,
    fbit 40 15 1 (b2n i.row.isSome)]

/-- A row of the argument block (05 R139): 24 B, the first position and the five ids. -/
def ArgRow.bytes (a : ArgRow) : List Nat := recBytes 24 (fat 0 24 a.first.toNat :: frun 4 32 (a.tokens.map (fun t => t.toNat)))

/-! ### Tables in stack memory (05 R111, 07 R179, R188) -/

def PlotEnt.bytes (e : PlotEnt) : List Nat :=
  recBytes 8 [fat 0 20 (if e.loc = 0 then e.plot else 0), (20, 4, if e.loc = 0 then e.stack else 0), (24, 2, e.loc.toNat), (26, 1, 1),
    (27, 1, b2n e.seeded), fat 4 32 (if e.loc = 1 ∨ e.loc = 2 then e.cold.toNat else 0)]

def Node.bytes (n : Node) : List Nat :=
  recBytes 128 ([fat 0 64 n.hash.toNat, fat 8 22 (n.parent.getD 0x3FFFFF), fat 12 17 n.depth, fat 16 20 n.plot, (148, 4, n.stack)]
    ++ frun 20 8 n.key.bytes ++ [fat 36 32 n.stamp.toNat, fat 40 32 n.children, fat 44 16 n.pins.toNat, fflag 46 0 true,
      fflag 46 1 (n.key.scope ≠ 0)])

/-! ### Writes to host memory (03 R64, 09 R257, 10 R276, R277, 11 R292, 18 R433) -/

def Cqe.bytes (c : Cqe) : List Nat :=
  recBytes 64 [fat 0 8 c.opcode.toNat, fflag 1 0 c.phase, fat 2 8 c.gen.toNat, fat 4 16 c.tag.toNat, fat 6 8 1, fat 8 16 c.status.toNat,
    fat 12 16 c.sqHead.toNat, fat 16 384 c.result.toNat]

def Rec.bytes (r : Rec) : List Nat :=
  recBytes 16 [fat 0 32 r.token.toNat, fat 4 24 r.position.toNat, fflag 7 0 r.draft, fflag 7 1 r.trunc, fflag 7 2 r.switched,
    fflag 7 3 r.fellBack, fflag 7 4 r.isEnd, fat 8 32 r.lcc.toNat, fat 12 8 r.status.toNat, fat 13 4 r.accepted.toNat]

def LedgerRec.image (r : LedgerRec) : List Nat :=
  recBytes 128 ([fflag 0 0 r.perReq, fflag 0 1 r.ended, fbit 0 4 4 r.tenant.toNat, fat 1 21 r.live.toNat, fat 4 32 r.handle.toNat,
    fat 8 64 r.since.toNat] ++ frun 16 64 ([r.ctr.coreNs, r.ctr.stackNs, r.ctr.stackBytes, r.ctr.nocBytes, r.ctr.hostBytes,
      r.ctr.pooledBytes, r.ctr.energyNj, r.ctr.positions, r.tokensIn, r.tokensOut, r.time, r.bytes, r.energy, r.last].map (fun x => x.toNat)))

def TraceRec.bytes (r : TraceRec) : List Nat :=
  recBytes 32 [fat 0 64 r.lcc.toNat, fat 8 32 r.step.toNat, fat 12 5 r.cls.toNat, fat 13 2 r.source.toNat, fbit 13 2 3 r.gdn.toNat,
    fat 14 4 (r.tenant.getD 0).toNat, fbit 14 4 1 (b2n r.tenant.isSome), fat 16 32 r.handle.toNat, fat 20 32 r.arg0.toNat,
    fat 24 32 r.arg1.toNat, fat 28 32 r.arg2.toNat]

/-- The bytes of a write, from its address on. -/
def HostWr.bytes : HostWr → List Nat
  | .cqe _ _ e => e.bytes
  | .spoolInit _ _ lcc => recBytes 64 [fat 8 64 lcc.toNat]
  | .spoolHdr _ _ head owner lcc => recBytes 16 [fat 0 32 head.toNat, fat 4 32 owner.toNat, fat 8 64 lcc.toNat]
  | .spoolRec _ _ r => r.bytes
  | .ledger _ _ r => r.image
  | .trace _ r => r.bytes
  | .select _ _ _ es zeros => es.flatMap (fun e => entryBytes e.1 e.2.1 e.2.2) ++ List.replicate zeros 0

/-! ### Trellis rows (05 R111) -/

/-- Request state codes (04 R94). -/
def RState.code : RState → Nat
  | .queued => 0 | .admitted => 1 | .prefill => 2 | .decode => 3 | .fallback => 4 | .heldPlots => 5 | .heldWeights => 6
  | .heldGraft => 7 | .heldSpool => 8 | .heldGroup => 9 | .paused => 10 | .cold => 11 | .ended => 12

def Holds.bits (h : Holds) : Nat := b2n h.group + 2 * b2n h.weights + 4 * b2n h.graft + 8 * b2n h.spool + 16 * b2n h.plots

/-- The 256 B of a Trellis row: the Sower's fields as of the last composition, the plot keeper's and the Ledger's live ones
(R113). -/
def Row.bytes (r : Row) (covered : Nat) (root : U64) (budgets : List U64) (ctr : Ledg) : List Nat :=
  recBytes 256 ([fat 0 32 r.handle.toNat, fat 4 8 r.state.code, fat 5 8 (match r.left with | some x => x.code | none => 0xFF),
    fat 6 5 r.holds.bits, fflag 7 0 true, fflag 7 1 r.cancel, fflag 7 2 r.pause, fflag 7 3 r.idle, fflag 7 4 r.fellBack,
    fflag 7 5 r.switched, fflag 7 6 r.holdOnEnd, fflag 7 7 r.noOffer, fat 8 4 (hTenant r.handle), fat 9 5 r.model.toNat,
    fat 10 5 r.bed.toNat, fat 11 2 r.cls.toNat] ++ (match r.graft with | some (g, v) => graftFlds 12 g true v | none => []) ++
    [fat 16 12 r.profile.toNat, fat 18 3 r.depth, fat 19 7 r.spoolBuf, fat 20 24 (r.committed.getD 0),
     fflag 23 0 r.committed.isSome, fat 24 24 r.promptEnd, fat 28 24 covered, fat 32 64 root.toNat, fat 40 24 r.newLeft,
     fat 44 16 r.spool.toNat, fat 46 12 (r.flow.getD 0).toNat, fat 48 64 r.deadline.toNat, fat 56 10 (r.affinity.getD 0).toNat,
     fflag 57 7 r.affinity.isSome, fflag 58 0 r.carried, fat 60 24 r.chunkEnd, fat 64 64 r.stepIn.toNat, fat 72 64 r.joinStep.toNat]
    ++ frun 80 64 (budgets.map (fun x => x.toNat)) ++ [fat 104 64 r.draw.toNat] ++ frun 112 32 (r.tokens.map (fun t => t.toNat))
    ++ [fat 132 16 r.stopMatch.toNat] ++ frun 144 64 ([ctr.coreNs, ctr.stackNs, ctr.stackBytes, ctr.nocBytes, ctr.hostBytes,
      ctr.pooledBytes, ctr.energyNj, ctr.positions].map (fun x => x.toNat)))

/-! ### Tether frames (13 R336 to R344) -/

def manEntryBytes : ManEntry → List Nat
  | .join e => recBytes 32 ([fat 0 3 1, fbit 0 3 3 e.depth.toNat, fflag 0 6 e.holdOnEnd, fat 1 5 e.model.toNat, fat 2 13 e.row.toNat,
      fat 4 32 e.handle.toNat] ++ graftFlds 8 e.graftSlot e.graftValid e.graftVer ++ [fat 12 12 e.profile.toNat,
      fat 14 16 e.stopMatch.toNat, fat 16 24 e.committed.toNat, fflag 19 0 e.committedValid, fat 20 24 e.newLeft.toNat,
      fat 24 64 e.draw.toNat])
  | .leave row status keep spill => recBytes 32 [fat 0 3 2, fat 2 13 row.toNat, fat 4 8 status.toNat, fflag 5 0 keep, fflag 5 1 spill]
  | .depth row d => recBytes 32 [fat 0 3 3, fat 2 13 row.toNat, fat 4 3 d.toNat]
  | .chunk row first len bound flow => recBytes 32 [fat 0 3 4, fat 2 13 row.toNat, fat 4 32 first.toNat, fat 8 32 len.toNat,
      fflag 12 0 bound, fat 14 16 flow.toNat]
  | .cover row pos => recBytes 32 [fat 0 3 5, fat 2 13 row.toNat, fat 4 32 pos.toNat]
  | .switch row ver => recBytes 32 [fat 0 3 6, fat 2 13 row.toNat, fat 4 16 ver.toNat]
  | .keep h => recBytes 32 [fat 0 3 7, fat 4 32 h.toNat]

def tokenEBytes (e : TokenE) : List Nat :=
  recBytes 8 [fat 0 13 e.row.toNat, (13, 3, if e.strike then 1 else 2), fat 2 3 e.depth.toNat, fat 3 8 e.status.toNat, fat 4 32 e.handle.toNat]

def commitEBytes (e : CommitE) : List Nat :=
  recBytes 48 ([fat 0 13 e.row.toNat, (13, 3, e.tokens.length), fat 2 8 e.status.toNat, fat 3 3 e.accepted.toNat, fat 4 5 e.trunc.toNat,
    fat 5 5 e.draftOk.toNat, fat 6 16 e.stopMatch.toNat, fat 8 64 e.draw.toNat] ++ frun 16 32 (e.tokens.map (fun t => t.toNat)))

def statusBytes (e : StatusE) : List Nat :=
  recBytes 48 ([fat 0 32 e.free.toNat, fat 4 12 e.hot.toNat, fbit 4 12 1 (b2n e.slow), fbit 4 13 1 (b2n e.intact), fat 6 4 e.ballast.toNat,
    fat 7 4 e.grafts.length, fat 8 64 e.manifestStep.toNat] ++ frun 16 32 (e.grafts.map (fun g => g.1.toNat + g.2.toNat * 65536)))
    ++ e.restored.flatMap (fun h => bytesLE 4 h.toNat)

/-- A set of members, bit i for member i, in 128 B. -/
def memberBytes (l : List Nat) : List Nat := bytesLE 128 ((l.eraseDups.map (fun i => 2 ^ i)).sum)

def FrameOut.mt : FrameOut → FrameMeta
  | .rollcall m _ _ _ => m
  | .manifest m _ => m
  | .stepToken m _ => m
  | .tokens m _ => m
  | .status m _ => m
  | .slow m _ _ => m
  | .profile m _ _ _ => m
  | .break_ m => m

/-- KIND of a frame (R340). -/
def FrameOut.kind : FrameOut → U8
  | .rollcall .. => 0x01
  | .manifest .. => 0x02
  | .stepToken .. => 0x03
  | .tokens .. => 0x04
  | .status .. => 0x05
  | .slow .. => 0x06
  | .profile .. => 0x07
  | .break_ .. => 0x08

/-- The payload after the common words (R340). -/
def FrameOut.payload : FrameOut → List Nat
  | .rollcall _ id present intact => recBytes 16 [fat 0 64 id.toNat] ++ memberBytes present ++ memberBytes intact
  | .manifest _ es => es.flatMap manEntryBytes
  | .stepToken _ es => es.flatMap tokenEBytes
  | .tokens _ es => es.flatMap commitEBytes
  | .status _ e => statusBytes e
  | .slow _ hot ballast => recBytes 8 [fat 0 12 hot.toNat, fat 2 4 ballast.toNat]
  | .profile _ tenant f bias => recBytes 8 [fat 0 4 tenant, fat 2 12 f.profile.toNat] ++ (recBytes 192 (profileFlds f)).drop 8
      ++ bias.flatMap Bias.bytes
  | .break_ _ => []

/-- The common words (R340). -/
def commonBytes (m : FrameMeta) : List Nat :=
  recBytes 16 [fat 0 16 m.group.toNat, fat 2 16 m.epoch.toNat, fflag 4 0 m.full, fflag 4 1 m.fresh, fat 6 15 m.part.toNat,
    fbit 6 15 1 (b2n m.last), fat 8 64 m.step.toNat]

/-- The data words of a frame as bytes: whole words of 8 B, at least the 3 that START allows (R336). -/
def FrameOut.data (f : FrameOut) : List Nat :=
  let b := commonBytes f.mt ++ f.payload
  b ++ List.replicate (max 24 (cdiv b.length 8 * 8) - b.length) 0

/-- WORDS of a frame (R336). -/
def FrameOut.words (f : FrameOut) : Nat := f.data.length / 8

/-- One bit of the CRC's register (PRESUMED: the reflected form that IEEE 802.3 links use, log entry 65). -/
def crcBit (c : Nat) : Nat := if c % 2 = 1 then Nat.xor (c / 2) 0xEDB88320 else c / 2

def crcByte (c b : Nat) : Nat := (List.range 8).foldl (fun c _ => crcBit c) (Nat.xor c b)

/-- CRC-32 of bytes with the IEEE 802.3 polynomial (R337). -/
def crc32 (l : List Nat) : U32 := BitVec.ofNat 32 (Nat.xor (l.foldl crcByte 0xFFFFFFFF) 0xFFFFFFFF)

/-- What the CRC covers: bytes 1 to 7 of START, and every data word (R337). -/
def FrameOut.covered (f : FrameOut) : List Nat :=
  recBytes 7 [fat 0 8 f.kind.toNat, fat 1 10 f.mt.origin.toNat, fat 3 16 f.mt.words, fat 5 11 f.mt.hops.toNat] ++ f.data

def FrameOut.crc (f : FrameOut) : U32 := crc32 f.covered

/-- The CRC of a frame holds, and its WORDS is the number of its data words, 3 to 16,384 (R336, R337; DESIGN CHOICE, log entry 65). -/
def FrameOut.crcGood (f : FrameOut) : Bool := decide (f.mt.words = f.words) && decide (f.mt.words ≤ 16384) && f.mt.crc = f.crc

/-- The frame came whole: no control block of unknown type stomped it (R336). -/
def FrameOut.good (f : FrameOut) : Bool := f.crcGood && !f.mt.cut

/-- Change the common words of a frame. -/
def FrameOut.withMeta (g : FrameMeta → FrameMeta) : FrameOut → FrameOut
  | .rollcall m id p i => .rollcall (g m) id p i
  | .manifest m es => .manifest (g m) es
  | .stepToken m es => .stepToken (g m) es
  | .tokens m es => .tokens (g m) es
  | .status m e => .status (g m) e
  | .slow m h b => .slow (g m) h b
  | .profile m t f bias => .profile (g m) t f bias
  | .break_ m => .break_ (g m)

/-- The frame as it leaves: WORDS and a fresh CRC (R336, R337). -/
def FrameOut.sealed (f : FrameOut) : FrameOut :=
  let f := f.withMeta (fun m => { m with words := f.words })
  f.withMeta (fun m => { m with crc := f.crc })

/-- A frame on the ring: its START block, its data blocks and its END block, each control block with its type byte (R336, R337). -/
def FrameOut.bytes (f : FrameOut) : List Nat :=
  0xB4 :: f.covered ++ 0xE1 :: recBytes 7 [fat 0 32 f.mt.crc.toNat, fflag 4 0 f.mt.stomp]

/-- The control blocks between frames: IDLE, and the ALIGN of a lane (R336). -/
def idleBlock : List Nat := recBytes 8 [fat 0 8 0x1E]
def alignBlock (lane : Nat) : List Nat := recBytes 8 [fat 0 8 0x4B, fat 1 8 lane]

end Sys2Proof.Machine
end

