-- ==== Sys2Proof/Machine/Ops.lean ====
section
/-! DEFINITION. The named operations that the commands share: tables, pages, interrupt vectors, the error log, completions,
the trace, requests and their Ledger charges. A block has no exception entry: raising a vector or an error record is the
effect of a command on the state. -/

namespace Sys2Proof.Machine

/-! ### Sparse tables: lists of key and value with rising keys -/

def mget {α : Type} (k : Nat) : List (Nat × α) → Option α
  | [] => none
  | (j, a) :: r => if j = k then some a else mget k r

def mput {α : Type} (k : Nat) (a : α) : List (Nat × α) → List (Nat × α)
  | [] => [(k, a)]
  | (j, b) :: r => if k < j then (k, a) :: (j, b) :: r else if j = k then (k, a) :: r else (j, b) :: mput k a r

def mdel {α : Type} (k : Nat) (m : List (Nat × α)) : List (Nat × α) := m.filter (fun e => decide (e.1 ≠ k))

def mhas {α : Type} (k : Nat) (m : List (Nat × α)) : Bool := (mget k m).isSome

/-- Change entry `k`, where there is one. -/
def mupd {α : Type} (k : Nat) (f : α → α) (m : List (Nat × α)) : List (Nat × α) :=
  m.map (fun e => if e.1 = k then (e.1, f e.2) else e)

/-- Change element `i` of a list. -/
def lupd {α : Type} (i : Nat) (f : α → α) : List α → List α
  | [] => []
  | a :: r => match i with
    | 0 => f a :: r
    | j + 1 => a :: lupd j f r

/-- Insertion sort by a strict order; equal elements keep their order. -/
def insertBy {α : Type} (lt : α → α → Bool) (a : α) : List α → List α
  | [] => [a]
  | b :: r => if lt a b then a :: b :: r else b :: insertBy lt a r

def sortBy {α : Type} (lt : α → α → Bool) (l : List α) : List α := l.foldl (fun acc a => insertBy lt a acc) []

/-- Run an operation for each element, in order. -/
def each {α : Type} (l : List α) (f : α → State → State) (s : State) : State := l.foldl (fun t a => f a t) s

/-! ### Time and the phases of the block -/

/-- The block is frozen or stopping (17 R421). -/
def State.freezing (s : State) : Bool := s.ctl.byCtrl || s.ctl.byDebug

/-- The block runs: READY, or SLEEPING with its entry under way, and not stalled (15 R374, 16 R398, R409). -/
def State.awake (s : State) : Bool := (s.ctl.phase = .ready || s.ctl.phase = .sleeping) && !s.wdog.stalled

/-- Composing and message handling may go on (16 R398 RESUME_HOLD). -/
def State.composing (s : State) : Bool := s.awake && !s.freezing && !s.ctl.resumeHold

/-- A gardener core is restarting or out of service (15 R384, R385). -/
def State.gdnDown (s : State) (c : Nat) : Bool := s.wdog.gdnRestarting.getLsbD c || s.wdog.gdnOut.getLsbD c

/-- The block is the member of a group of two or more (13 R332, R334). -/
def State.grouped (s : State) : Bool := s.teth.en && s.teth.sizeM1 ≠ 0

def State.leader (s : State) : Bool := s.teth.index = 0

def onCtl (f : Ctl → Ctl) (s : State) : State := { s with ctl := f s.ctl }

/-! ### Pages -/

def State.page (s : State) (p : Nat) : Page := s.pages.getD p {}

def State.onPage (s : State) (p : Nat) (f : Page → Page) : State := { s with pages := lupd p f s.pages }

def State.ten (s : State) (t : Nat) : Ten := s.tens.getD t {}

def State.onTen (s : State) (t : Nat) (f : Ten → Ten) : State := { s with tens := lupd t f s.tens }

def State.slot (s : State) (m : Nat) : Slot := s.gh.slots.getD m {}

def State.onSlot (s : State) (m : Nat) (f : Slot → Slot) : State :=
  { s with gh := { s.gh with slots := lupd m f s.gh.slots } }

/-- The model descriptor of a slot, if it holds one. -/
def State.desc (s : State) (m : Nat) : Option ModelDesc := (s.slot m).desc

/-! ### The egress port (01 R24, R31; 12 R314, R318) -/

def State.arb (s : State) (i : Nat) : Arb := s.arbs.getD i (Arb.reset 0 false)

def onArb (i : Nat) (f : Arb → Arb) (s : State) : State := { s with arbs := lupd i f s.arbs }

def Arb.input (a : Arb) (i : Nat) : Inp := a.inp.getD i {}

def Arb.onInp (a : Arb) (i : Nat) (f : Inp → Inp) : Arb := { a with inp := lupd i f a.inp }

/-! ### Idle islands (16 R408) and the command wrappers -/

def Wait.isSelect : Wait → Bool
  | .select _ => true
  | _ => false

/-- An island has work. -/
def State.busy (s : State) (i : Nat) : Bool :=
  match i with
  | 0 => true
  | 9 => s.sow.exec.isSome || s.sow.laid ≠ []
  | 10 => s.disp.items ≠ [] || s.disp.beds.any (fun b => b.sw.isSome)
  | 11 => s.prn.rows ≠ [] || s.pages.any (fun g => g.started.any (fun x => x.wait.isSelect)) || (s.arb 2).holder.isSome
  | 12 => s.plots.moves ≠ [] || (s.arb 1).holder.isSome
  | 13 => s.seed.walks ≠ [] || (s.arb 3).holder.isSome
  | 14 => (s.arb 0).holder.isSome || (s.arb 0).inp.any (fun x => x.queue ≠ [])
  | 15 => s.led.inInt
  | 16 => s.out.tetherEn
  | 17 => s.gh.slots.any (fun x => x.state = .loading || x.reloading) || s.gh.grafts.any (fun x => x.state = .loading || x.reloading)
  | n => s.ctl.phase = .verifying || s.ctl.phase = .init || s.ctl.phase = .waking
      || s.pages.any (fun g => g.isOpen && g.gardener.toNat + 1 = n && (g.started ≠ [] || g.urgQueue ≠ [] || g.stopping.isSome))

/-- An event of the islands `is`: they and the islands with work leave Idle (R408). -/
def ungate (is : List Nat) (s : State) : State :=
  let hit := (List.range 18).filter (fun i => is.contains i || s.busy i)
  onCtl (fun c =>
    { c with
      gated := c.gated &&& ~~~(BitVec.ofNat 18 ((hit.map (2 ^ ·)).sum))
      worked := hit.foldl (fun l i => l.set i c.lcc) c.worked }) s

/-- The islands that serve a mailbox page: the page registers' and its gardener core's (18 R431). -/
def State.pageIslands (s : State) (p : Nat) : List Nat := [17, (s.page p).gardener.toNat + 1]

/-- Every command but COLD_RESET stops once a supply sag has left the state unknown (14 R368). -/
def liveQuiet (s : State) (op : State → State) : Host.Outcome State Fault Refusal :=
  if s.ctl.sagged then .fault .stateUnknown else .next (op s)

/-- `liveQuiet` for a command that is an event of the islands `is`. -/
def live (is : List Nat) (s : State) (op : State → State) : Host.Outcome State Fault Refusal :=
  liveQuiet s (fun s => op (ungate is s))

/-- An event of the block's own: it happens only while the block runs and is not frozen (18 R438). -/
def own (is : List Nat) (s : State) (op : State → State) : Host.Outcome State Fault Refusal :=
  live is s (fun s => if s.awake && !s.freezing then op s else s)

/-- An event of the block's own that a stalled block goes on to record (15 R374). -/
def ownLogged (is : List Nat) (s : State) (op : State → State) : Host.Outcome State Fault Refusal :=
  live is s (fun s => if (s.awake || s.wdog.stalled) && !s.freezing then op s else s)

/-- A requester has a transaction of `beats` beats to make. -/
def Arb.post (a : Arb) (i beats : Nat) : Arb := a.onInp i (fun x => { x with posted := x.posted ++ [max 1 beats] })

/-- The PASID of a partition's accesses; the management partition has none (01 R24). -/
def State.pasidOf (s : State) (p : Nat) : Option (BitVec 20) := if p < 16 then some (s.page p).pasid else none

/-- Beats of 128 B of a transaction of `n` bytes. -/
def egressBeats (n : Nat) : Nat := cdiv n 128

/-- EGRESS inputs of the requesters (12 R314). -/
def egressGardener (core : Nat) : Nat := 22 + core
def egressLane (spool : Nat) : Nat := 13 + spool % 8
def egressCold : Nat := 12
def egressLoad : Nat := 21
def egressSelect : Nat := 11
def egressArgs : Nat := 30

/-- Post `n` bytes at an EGRESS input, in writes of at most 256 B (01 R24). -/
def egress (i n : Nat) (s : State) : State :=
  onArb 0 (fun a => (List.range (cdiv n 256)).foldl (fun a k => a.post i (egressBeats (min 256 (n - 256 * k)))) a) s

/-- Issue a write of `n` bytes for partition `p` through EGRESS input `i`. -/
def hostWrite (i p n : Nat) (w : HostWr) (s : State) : State :=
  egress i n { s with out := { s.out with host := s.out.host ++ [⟨s.pasidOf p, w⟩] } }

/-- A gardener core writes `n` bytes of a partition's record in stack memory: they leave through the egress port too, at the core's input
(01 R31; DESIGN CHOICE, log entry 62). -/
def gdnWrite (p n : Nat) (s : State) : State := egress (egressGardener (s.page p).gardener.toNat) n s

/-- The reads of a transfer of `n` bytes: at most 512 B each, in ascending address order (01 R24, R447). -/
def readsOf (sp : Space) (addr n : Nat) : List HostRd :=
  (List.range (cdiv n 512)).map (fun k => ⟨sp, BitVec.ofNat 64 (addr + 512 * k), min 512 (n - 512 * k)⟩)

def putReads (l : List HostRd) (s : State) : State := { s with out := { s.out with reads := s.out.reads ++ l } }

/-- The reads of a transfer up to the refused one, after which no further read is issued (01 R447). -/
def readsTo (addr : Nat) (l : List HostRd) : List HostRd := l.filter (fun r => decide (r.addr.toNat ≤ addr))

/-- The bytes of a transfer from `a` that are read where the read at `stop` is refused: no further read is issued (01 R447). -/
def readLen (a n : Nat) (stop : Option Nat) : Nat :=
  match stop with
  | some x => if a ≤ x then min n (512 * ((x - a) / 512 + 1)) else 0
  | none => n

/-- The reads outside stack memory by which a copy request moves its bytes (01 R447). -/
def CopyReq.reads (c : CopyReq) : List HostRd :=
  let far (sp : Space) (a n : Nat) : List HostRd := if sp = .stack then [] else readsOf sp a n
  match c with
  | .restore _ sp a n | .part _ _ _ _ sp a n | .kernels _ sp a n => far sp a n
  | .delta _ _ _ _ _ sp blocks d k => far sp d (32 * blocks.length) ++ far sp k blocks.length
  | .table _ out sp a n => if out then [] else far sp a n
  | .spill _ _ _ _ | .fill _ => []

/-- One copy request of `egressCold` or `egressLoad` (12 R314). -/
def putCopy (i : Nat) (c : CopyReq) (s : State) : State :=
  onArb 0 (fun a => a.post i 1) { s with out := { s.out with copies := s.out.copies ++ [c], reads := s.out.reads ++ c.reads } }

/-! ### Interrupt vectors (03 R73, R74) -/

/-- COUNT 0 acts as 1. -/
def Vec.need (v : Vec) : Nat := if v.count = 0 then 1 else v.count.toNat

/-- The conditions of R74 for raising a vector with pending events. -/
def Vec.ripe (v : Vec) (lcc : U64) : Bool :=
  v.en && 0 < v.pending &&
    (v.need ≤ v.pending || v.time = 0 || v.oldest.toNat + v.time.toNat * 1000 ≤ lcc.toNat)

/-- A message of a masked vector is held, one for each vector, as the PCIe function's pending bit holds it (01 R23). -/
def Out.raise (p v : Nat) (o : Out) : Out :=
  if o.masked.contains (p, v) then { o with held := if o.held.contains (p, v) then o.held else o.held ++ [(p, v)] }
  else { o with msix := o.msix ++ [(p, v)], held := o.held.filter (fun x => x ≠ (p, v)) }

/-- A message is held whose vector is no longer masked. -/
def Out.due (p v : Nat) (o : Out) : Bool := o.held.contains (p, v) && !o.masked.contains (p, v)

/-- Raise a vector whose conditions hold: the message goes out, or is held while the vector is masked, and the pending count clears.
A held message goes out at the next evaluation after the unmasking. A frozen block raises none (18 R439). -/
def vecEval (p v : Nat) (s : State) : State :=
  let ripe := ((s.page p).vecs.getD v {}).ripe s.ctl.lcc
  if (ripe || s.out.due p v) && !s.freezing then
    let s := { s with out := s.out.raise p v }
    s.onPage p (fun g => { g with vecs := lupd v (fun w => { w with pending := if ripe then 0 else w.pending }) g.vecs })
  else s

/-- An event of a vector: the cause bit is set, the event is counted while EN is set, and the vector is evaluated. -/
def vecEvent (p v : Nat) (s : State) : State :=
  let s := s.onPage p (fun g =>
    { g with
      cause := g.cause ||| BitVec.ofNat 8 (2 ^ v)
      vecs := lupd v (fun w =>
        if w.en then { w with pending := w.pending + 1, oldest := if w.pending = 0 then s.ctl.lcc else w.oldest }
        else w) g.vecs })
  vecEval p v s

/-! ### The error log (15 R375 to R377) -/

/-- What a record says. `tenant` and `bed` are the attributed partition and bed context. -/
structure ErrIn where
  code   : Nat
  scope  : Nat := 0
  detail : Nat := 0
  island : Nat := 0
  origin : Nat := 0
  unit   : Nat := 0
  tenant : Option Nat := none
  bed    : Option (Nat × Nat) := none
  addr   : Nat := 0
  handle : Nat := 0
  step   : Nat := 0

/-- ERR_SRC (R376). -/
def ErrIn.src (e : ErrIn) : U32 :=
  BitVec.ofNat 32 (e.island % 32 + e.origin % 8 * 2 ^ 5 + e.unit % 1024 * 2 ^ 8
    + (match e.tenant with | some t => t % 16 * 2 ^ 18 + 2 ^ 22 | none => 0)
    + (match e.bed with | some (b, c) => b % 32 * 2 ^ 23 + c % 4 * 2 ^ 28 + 2 ^ 30 | none => 0))

/-- ERR_CODE (R376); SEQ is TOTAL as the entry is written. -/
def ErrIn.word (e : ErrIn) (total : U32) : U32 :=
  BitVec.ofNat 32 (e.code % 256 + e.scope % 8 * 2 ^ 8 + e.detail % 256 * 2 ^ 16 + total.toNat % 256 * 2 ^ 24)

/-- Append a record without an event of vector 2. -/
def logQuiet (e : ErrIn) (s : State) : State :=
  let l := s.elog
  let r : ErrRec := ⟨BitVec.ofNat 64 e.addr, e.src, e.word l.total, s.ctl.lcc,
    BitVec.ofNat 64 (e.handle % 2 ^ 32 + e.step % 2 ^ 32 * 2 ^ 32)⟩
  { s with elog := { recs := l.recs.set l.next.toNat r, next := l.next + 1, total := l.total + 1 } }

/-- Append a record and raise PF vector 2 (R375). -/
def logErr (e : ErrIn) (s : State) : State := vecEvent mgmt 2 (logQuiet e s)

/-- A register access refused (R377 REG_ACCESS), with the window offset. -/
def regRefused (off : Nat) (island : Nat) (s : State) : State := logErr { code := 0x01, island, origin := 3, addr := off } s

/-- A page error (03 R76): the page's registers, its vector, and a log record. On the management page both are one
event of vector 2. -/
def pageError (p code addr : Nat) (s : State) : State :=
  let s := s.onPage p (fun g =>
    { g with
      errAddr := BitVec.ofNat 64 addr
      errCode := BitVec.ofNat 8 code
      errValid := true
      errCount := satInc g.errCount })
  let tenant := if p < 16 then some p else none
  let scope := if code = 7 then 3 else 0
  let e : ErrIn := { code := 0x02, scope, detail := code, island := 17, origin := 3, tenant, addr }
  if p = mgmt then logErr e s else vecEvent p 3 (logErr e s)

/-! ### The trace (18 R433 to R437) -/

/-- The buffer of a source: its number, with the core's for a gardener core (R436). -/
def traceBuf (source gdn : Nat) : Nat := if source = 3 then 3 + gdn else source

/-- Record an event of class `cls` in its source's buffer, when its class and its tenant are recorded (R435). A full buffer, of
128 records, drops it (R436). -/
def trace (cls source gdn : Nat) (tenant : Option Nat) (handle a0 a1 a2 : Nat) (s : State) : State :=
  let t := s.trc
  let scope := match tenant with | some x => t.tenants.getLsbD x | none => true
  if t.en && t.events.getLsbD cls && scope then
    if 128 ≤ (t.bufs.getD (traceBuf source gdn) []).length then { s with trc := { t with dropped := satInc t.dropped } }
    else
      let r : TraceRec := ⟨s.ctl.lcc, BitVec.ofNat 32 s.sow.step.toNat, BitVec.ofNat 5 cls, BitVec.ofNat 2 source,
        BitVec.ofNat 3 gdn, tenant.map (BitVec.ofNat 4), BitVec.ofNat 32 handle, BitVec.ofNat 32 a0, BitVec.ofNat 32 a1,
        BitVec.ofNat 32 a2⟩
      { s with trc := { t with bufs := lupd (traceBuf source gdn) (fun b => b ++ [r]) t.bufs } }
  else s

/-- Write the oldest record of buffer `k` into the ring; a full ring drops it (R420, R436). -/
def traceIssue (k : Nat) (s : State) : State :=
  let t := s.trc
  match t.bufs.getD k [] with
  | [] => s
  | r :: _ =>
    let t : Trc := { t with bufs := lupd k (fun b => b.drop 1) t.bufs, served := if 3 ≤ k then k - 3 else t.served }
    if (t.head - t.tail).toNat = 2 ^ t.log2.toNat then { s with trc := { t with dropped := satInc t.dropped } }
    else
      let addr := t.ring.toNat * 4096 + t.head.toNat % 2 ^ t.log2.toNat * 32
      { s with
        trc := { t with head := t.head + 1 }
        out := { s.out with host := s.out.host ++ [⟨none, .trace (BitVec.ofNat 64 addr) r⟩] } }

/-- The buffer that an EGRESS input serves next: inputs 10, 9 and 8 one each, input 7 the gardener cores in turn, starting
after the core last served (R314, R436). -/
def State.traceInput (s : State) (i : Nat) : Option Nat :=
  let has (k : Nat) : Bool := s.trc.bufs.getD k [] ≠ []
  if i = 7 then ((List.range 8).map (fun n => 3 + (s.trc.served + 1 + n) % 8)).find? has
  else if 8 ≤ i && i ≤ 10 && has (10 - i) then some (10 - i)
  else none

/-- Records that the sources of an EGRESS input have buffered. -/
def State.traceHeld (s : State) (i : Nat) : Nat :=
  if i = 7 then ((s.trc.bufs.drop 3).map (fun b => b.length)).sum else if 8 ≤ i && i ≤ 10 then (s.trc.bufs.getD (10 - i) []).length else 0

/-- One record of an EGRESS input. -/
def traceGrant (i : Nat) (s : State) : State :=
  match s.traceInput i with
  | some k => traceIssue k s
  | none => s

/-- One record of the highest input that has one. -/
def traceNext (s : State) : State :=
  match [10, 9, 8, 7].findSome? s.traceInput with
  | some k => traceIssue k s
  | none => s

/-- Write `n` records, those of the highest input first. -/
def traceDrain : Nat → State → State
  | 0, s => s
  | n + 1, s => traceDrain n (traceNext s)

/-- The trace sources' requests are withdrawn: a wait counts from the next one on (12 R326). -/
def traceQuit (s : State) : State :=
  each [10, 9, 8, 7] (fun i s => onArb 0 (fun a => a.onInp i (fun x => { x with queue := [], waiting := 0 })) s) s

/-- Write every buffered record (18 R437, 16 R409). -/
def traceFlush (s : State) : State := traceQuit (traceDrain ((s.trc.bufs.map (fun b => b.length)).sum) s)

/-! ### Ledger counters (11 R286) -/

/-- Sum of two sets of counters; each wraps at 2^64. -/
def Ledg.add (a b : Ledg) : Ledg :=
  ⟨a.coreNs + b.coreNs, a.stackNs + b.stackNs, a.stackBytes + b.stackBytes, a.nocBytes + b.nocBytes,
   a.hostBytes + b.hostBytes, a.pooledBytes + b.pooledBytes, a.energyNj + b.energyNj, a.positions + b.positions⟩

/-- Engine time (R286). -/
def Ledg.engine (a : Ledg) : Nat := a.coreNs.toNat + a.stackNs.toNat

/-- The bytes that budgets count (R292). -/
def Ledg.bytes (a : Ledg) : Nat := a.stackBytes.toNat + a.nocBytes.toNat + a.hostBytes.toNat + a.pooledBytes.toNat

/-- The tenant's vector 6 for a budget that first reaches its warning level (R301). -/
def budgetWarn (t : Nat) (s : State) : State :=
  let x := s.ten t
  let hit (b : U64) (use : Nat) : Bool := b ≠ 0 && b.toNat * x.warnPct.toNat ≤ use * 100
  let a := !x.warnT && hit x.budTime (x.useNs / 1000)
  let b := !x.warnB && hit x.budBytes x.useBytes
  let c := !x.warnE && hit x.budEnergy (x.useNj / 1000)
  let s := s.onTen t (fun y => { y with warnT := y.warnT || a, warnB := y.warnB || b, warnE := y.warnE || c })
  let s := if a then vecEvent t 6 s else s
  let s := if b then vecEvent t 6 s else s
  if c then vecEvent t 6 s else s

/-- Count a charge in the tenant's current period (R300, R301). On a follower no budget acts (R311). -/
def chargeUse (t : Nat) (c : Ledg) (s : State) : State :=
  if s.grouped && !s.leader then s else budgetWarn t (s.onTen t (fun x =>
    { x with
      useNs := x.useNs + c.engine
      useBytes := x.useBytes + c.bytes
      useNj := x.useNj + c.energyNj.toNat }))

/-- A charge to the tenant alone, as HOST_BYTES (R287). -/
def chargeTen (t n : Nat) (s : State) : State :=
  let c : Ledg := { hostBytes := BitVec.ofNat 64 n }
  if t < 16 then chargeUse t c (s.onTen t (fun x => { x with ctr := x.ctr.add c })) else s

/-! ### Requests -/

def State.req (s : State) (slot : Nat) : Option Req := mget slot s.reqs

def State.onReq (s : State) (slot : Nat) (f : Req → Req) : State := { s with reqs := mupd slot f s.reqs }

/-- The request a handle names (02 R33): its slot is taken and its generation current. -/
def State.reqH (s : State) (h : U32) : Option Req :=
  match s.req (hSlot h) with
  | some r => if r.handle = h then some r else none
  | none => none

/-- The request a message of page `p` may name (02 R33, 04 R84). -/
def State.reqOf (s : State) (p : Nat) (h : U32) : Option Req :=
  match s.reqH h with
  | some r => if p = mgmt || hTenant h = p then some r else none
  | none => none

def State.onReqH (s : State) (h : U32) (f : Req → Req) : State := s.onReq (hSlot h) (fun r => if r.handle = h then f r else r)

/-- Requests of a tenant with an allocated descriptor (11 R300). -/
def State.liveOf (s : State) (t : Nat) : Nat := (s.reqs.filter (fun e => hTenant e.2.handle = t)).length

def RState.running : RState → Bool
  | .prefill | .decode | .fallback => true
  | _ => false

def RState.rowState : RState → Bool
  | .prefill | .decode | .fallback | .heldWeights | .heldGraft | .heldSpool | .heldGroup => true
  | _ => false

def Holds.any (h : Holds) : Bool := h.group || h.weights || h.graft || h.spool || h.plots

/-- The shown hold, in the order of R38. -/
def Holds.shown (h : Holds) : Option RState :=
  if h.group then some .heldGroup else if h.weights then some .heldWeights else if h.graft then some .heldGraft
  else if h.spool then some .heldSpool else if h.plots then some .heldPlots else none

def Holds.put (h : Holds) (k : Fin 5) (b : Bool) : Holds :=
  match k with
  | 0 => { h with group := b }
  | 1 => { h with weights := b }
  | 2 => { h with graft := b }
  | 3 => { h with spool := b }
  | 4 => { h with plots := b }

/-- A hold condition clears. When it was the last one, firmware hands the row to the Sower again, as number `n` of its
handovers (05 R118, R122). -/
def Req.lift (k : Fin 5) (n : Nat) (r : Req) : Req :=
  let h := r.holds.put k false
  { r with holds := h, handSeq := if r.holds.any && !h.any then n else r.handSeq }

/-- Move a request to a state: LEFT is recorded when it leaves a running state for one that is not (02 R37), and the
LCC of the change. -/
def Req.move (r : Req) (st : RState) (lcc : U64) : Req :=
  if r.state = st then r else
    { r with state := st, since := lcc
             left := if r.state.running && !st.running then some r.state else r.left }

/-- Move a request to a state. Vector 7 is raised for every entry and exit of HELD_GROUP and vector 2 for every entry of
HELD_SPOOL (03 R73); the trace records rows taken in and leaving (18 R434). -/
def moveReq (h : U32) (st : RState) (s : State) : State :=
  match s.reqH h with
  | none => s
  | some r =>
    let s' := s.onReqH h (fun r => r.move st s.ctl.lcc)
    let s' := if r.state ≠ st && (r.state = .heldGroup || st = .heldGroup) then vecEvent (hTenant h) 7 s' else s'
    let s' := if r.state ≠ st && st = .heldSpool then vecEvent (hTenant h) 2 s' else s'
    if r.state ≠ st && (r.row.isSome || st.rowState) then
      trace 10 1 0 (some (hTenant h)) h.toNat ((r.row.getD 0).toNat) (r.state.code + 256 * st.code) r.endStatus.toNat s'
    else s'

/-- What is left of a budget; a budget of 0 reads all ones (11 R298). -/
def left (budget : U64) (used : Nat) : U64 :=
  if budget = 0 then 0xFFFFFFFFFFFFFFFF else BitVec.ofNat 64 (budget.toNat - used)

/-- The three BUDGET_*_LEFT fields after what has been charged (11 R298). -/
def Req.spent (r : Req) : Req :=
  let c := r.ctr.add r.rowCtr
  { r with
    budTime := Machine.left r.adm.budgetTime (c.engine / 1000)
    budBytes := Machine.left r.adm.budgetBytes c.bytes
    budEnergy := Machine.left r.adm.budgetEnergy (c.energyNj.toNat / 1000) }

/-- A charge to a request: to its row counters and budget fields while it holds a row, else to its descriptor and its tenant (11 R291). A
request that is gone leaves the charge to its tenant. -/
def chargeReq (h : U32) (c : Ledg) (s : State) : State :=
  match s.reqH h with
  | none => chargeUse (hTenant h) c (s.onTen (hTenant h) (fun x => { x with ctr := x.ctr.add c }))
  | some r =>
    if r.row.isSome then chargeUse (hTenant h) c (s.onReqH h (fun r => { r with rowCtr := r.rowCtr.add c }.spent))
    else chargeUse (hTenant h) c
      ((s.onReqH h (fun r => { r with ctr := r.ctr.add c })).onTen (hTenant h) (fun x => { x with ctr := x.ctr.add c }))

/-- Roll a row's counters up into the descriptor and the tenant's totals (11 R291). -/
def rollUp (h : U32) (s : State) : State :=
  match s.reqH h with
  | none => s
  | some r =>
    (s.onReqH h (fun r => { r with ctr := r.ctr.add r.rowCtr, rowCtr := {}, rowSeal := {} })).onTen (hTenant h)
      (fun x => { x with ctr := x.ctr.add r.rowCtr })

/-! ### Completions (03 R64, R68, R70, R71) -/

/-- The completion ring has no free entry (R70). -/
def Page.cqFull (g : Page) : Bool := (g.cqTail.toNat + 1) % 2 ^ g.cqLog2.toNat = g.cqHead.toNat

/-- The first journal entry of a tag in phase `a` moves on (16 R407). -/
def journalTo (tag : U16) (a : JPhase) (f : JEntry → JEntry) : List JEntry → List JEntry
  | [] => []
  | x :: r => if x.tag = tag && x.phase = a then f x :: r else x :: journalTo tag a f r

/-- Write a completion entry at CQ_TAIL (R64) and raise vector 0 unless NO_IRQ. -/
def writeCqe (p : Nat) (c : Cpl) (s : State) : State :=
  let g := s.page p
  let e : Cqe := ⟨c.opcode, g.phase, c.hdr.gen, c.hdr.tag, c.status, g.sqHead, c.result⟩
  let addr := BitVec.ofNat 64 (g.cqBase.toNat * 4096 + g.cqTail.toNat * 64)
  let wrap : Bool := g.cqTail.toNat + 1 = 2 ^ g.cqLog2.toNat
  let s := hostWrite (egressGardener g.gardener.toNat) p 64 (.cqe p addr e) s
  let s := s.onPage p (fun g =>
    { g with
      cqTail := if wrap then 0 else g.cqTail + 1
      phase := g.phase != wrap
      journal := journalTo c.hdr.tag .applied (fun x => { x with phase := .completed }) g.journal })
  let s := chargeTen p 64 s
  if c.hdr.noIrq then s else vecEvent p 0 s

/-- Write waiting completions while the ring has room; `n` bounds them. -/
def drainCq (p : Nat) : Nat → State → State
  | 0, s => s
  | n + 1, s =>
    let g := s.page p
    match g.waiting with
    | [] => s
    | c :: r =>
      if g.cqFull || !g.cqEn then s
      else drainCq p n (writeCqe p c (s.onPage p (fun g => { g with waiting := r })))

/-- The trace record of a completed message (18 R434). -/
def traceMsg (p : Nat) (op : U8) (st : Nat) (tag : U16) (s : State) : State :=
  trace 24 3 (s.page p).gardener.toNat (if p < 16 then some p else none) 0 (op.toNat + st * 65536) tag.toNat p s

/-- Complete a ring message: its entry is written, or waits while the ring is full (R70), or while host software has cleared CQ_EN
(DESIGN CHOICE, log entry 62). -/
def complete (p : Nat) (c : Cpl) (s : State) : State :=
  let g := s.page p
  let s := (traceMsg p c.opcode c.status.toNat c.hdr.tag s).onPage p (fun g =>
    { g with journal := journalTo c.hdr.tag .started (fun x => { x with phase := .applied, entry := some c }) g.journal })
  if g.cqFull || !g.cqEn || g.waiting ≠ [] then s.onPage p (fun g => { g with waiting := g.waiting ++ [c] })
  else writeCqe p c s

/-- Complete an urgent message in its slot (R71). -/
def completeUrg (p slot : Nat) (irq : Bool) (st : Nat) (r0 r1 r2 : U64) (s : State) : State :=
  let upd (u : Urg) : Urg :=
    { u with
      status := BitVec.ofNat 16 st
      reply0 := r0
      reply1 := r1
      reply2 := r2
      busy := false
      done := true }
  let s := s.onPage p (fun g => { g with slots := lupd slot upd g.slots })
  if irq then vecEvent p 1 s else s

/-- RESULT bytes from (byte offset, value), offsets counted from the start of the entry (R64, R85). -/
def resultOf (l : List (Nat × Nat)) : BitVec 384 :=
  BitVec.ofNat 384 (l.foldl (fun a e => a + e.2 * 2 ^ ((e.1 - 16) * 8)) 0)

/-- Completion statuses (04 R445). -/
def stOk : Nat := 0
def stNotCurrent : Nat := 1
def stBadOpcode : Nat := 2
def stBadField : Nat := 3
def stDenied : Nat := 4
def stBadHandle : Nat := 5
def stBusy : Nat := 6
def stNotResident : Nat := 7
def stExpired : Nat := 8
def stQuota : Nat := 9
def stNoRoom : Nat := 10
def stAlreadyEnded : Nat := 11

/-- Complete a message at its handling, on the way it came. `res` are the RESULT bytes; `r0`, `r1` the reply words. -/
def replyVia (p : Nat) (via : Via) (op : U8) (st : Nat) (res : List (Nat × Nat)) (r0 r1 : Nat) (s : State) : State :=
  match via with
  | .ring h => complete p ⟨op, h, BitVec.ofNat 16 st, resultOf res⟩ s
  | .urgent slot irq h => completeUrg p slot.val irq st (BitVec.ofNat 64 r0) (BitVec.ofNat 64 r1) 0 (traceMsg p op st h.tag s)

def reply (p : Nat) (h : Hdr) (op : U8) (st : Nat) (res : List (Nat × Nat)) (s : State) : State :=
  replyVia p (.ring h) op st res 0 0 s

/-- A message is started and waits (03 R67). -/
def startWait (p : Nat) (h : Hdr) (op : U8) (w : Wait) (s : State) : State :=
  s.onPage p (fun g => { g with started := g.started ++ [⟨h, op, w, false⟩] })

/-- Complete the started messages that `pick` answers for, in order: their status and RESULT. Muted ones are discarded
(03 R77). -/
def finish (p : Nat) (pick : Started → Option (Nat × List (Nat × Nat))) (s : State) : State :=
  let l := (s.page p).started
  let s := s.onPage p (fun g => { g with started := g.started.filter (fun x => (pick x).isNone) })
  each l (fun x s => match pick x with
    | some (st, res) => if x.mute then s else complete p ⟨x.opcode, x.hdr, BitVec.ofNat 16 st, resultOf res⟩ s
    | none => s) s

/-- `finish` on every page. -/
def finishAll (pick : Nat → Started → Option (Nat × List (Nat × Nat))) (s : State) : State :=
  each (List.range 17) (fun p s => finish p (pick p) s) s

/-- Hand the Sower an event: due at the next composition, or at the one after it once the seal point has passed
(05 R118). -/
def State.dueComp (s : State) : Nat :=
  match s.sow.exec with
  | some x => if x.sealAt.isSome then s.sow.comp + 2 else s.sow.comp + 1
  | none => s.sow.comp + 1

def handOver (h : U32) (ev : RowEv) (s : State) : State :=
  { s with sow := { s.sow with events := s.sow.events ++ [⟨s.dueComp, h, ev⟩] } }

/-- A free value (00 R6): the next of Config's, below `n`. -/
def State.choice (s : State) (n : Nat) : Nat := if n = 0 then 0 else Config.freeNat s.free % n

def State.spend (s : State) : State := { s with free := s.free + 1 }

/-- Step progress (15 R378). -/
def progressNow (s : State) : State := { s with wdog := { s.wdog with progress := s.ctl.lcc } }

/-- A fatal fault (15 R374). -/
def fatal (code : Nat) (s : State) : State :=
  vecEvent mgmt 3 ({ (logErr { code := 0x24, scope := 7, detail := code } s) with wdog := { s.wdog with stalled := true } })

end Sys2Proof.Machine
end

