-- ==== Sys2Proof/Machine/Arbiters.lean ====
section
/-! DEFINITION. The four arbiters (12 R313 to R331): events, grants, quotas and windows, hints, revocations and priority
maps. -/

namespace Sys2Proof.Machine

/-- Island of an instance, in the order of ERR_SRC.ISLAND (R313). -/
def arbIsland (i : Nat) : Nat := match i with | 0 => 14 | 1 => 12 | 2 => 11 | _ => 13

/-- Window offset of an instance (R313). -/
def arbBase (i : Nat) : Nat := 0x4000 + 0x400 * i

/-- Instance 0, EGRESS, has queues; the others raise one request at a time (R318). -/
def Arb.egress (a : Arb) : Bool := a.inputs = 32

def Arb.debug (a : Arb) : Nat := a.inputs - 1

/-- The input raises a request (R318). -/
def Arb.requests (a : Arb) (i : Nat) : Bool := (a.input i).queue ≠ []

/-- HIGH and COUNT of a quota word. -/
def quotaHigh (q : U16) : Bool := q.getLsbD 15
def quotaCount (q : U16) : Nat := q.toNat % 256

/-- A requester is masked in the current window (R320, R321). -/
def Arb.masked (a : Arb) (i : Nat) : Bool :=
  let x := a.input i
  a.winNow ≠ 0 && quotaHigh x.quotaNow && decide (quotaCount x.quotaNow ≤ x.inWin) && i ≠ a.debug

/-- Active position of a requester (R327). -/
def Arb.rank (a : Arb) (i : Nat) : Nat := (a.active.getD i 0).toNat

/-- The requester R315 grants: of those requesting and unmasked, the one at the highest position. -/
def Arb.winner (a : Arb) : Option Nat :=
  ((List.range a.inputs).filter (fun i => a.requests i && !a.masked i)).foldl (fun b i => match b with
    | none => some i
    | some x => if a.rank x < a.rank i then some i else some x) none

/-- A new window begins: masks clear and the settings written take effect (R322). -/
def Arb.roll (a : Arb) : Arb :=
  { a with
    winNow := a.window
    pos := 0
    rollDue := false
    inp := a.inp.map (fun x => { x with quotaNow := x.quota, inWin := 0 }) }

/-- The first event of a window rolls it in (R322). -/
def Arb.rolled (a : Arb) : Arb := if a.rollDue then a.roll else a

/-- A cycle passes for the requesters that wait: all that request but for `but` (R326). -/
def Arb.waits (a : Arb) (but : Option Nat) : Arb :=
  { a with inp := (List.range a.inp.length).map (fun i =>
    let x := a.input i
    if x.queue ≠ [] && but ≠ some i then { x with wait := satInc x.wait, waiting := x.waiting + 1 } else x) }

/-- Posted transactions request where their requester may (`may`): on EGRESS while the pending queue has room, else one at a time, and
not before the requester has dropped its last (R317, R318, R324). -/
def Arb.pull (may : Nat → Bool) (a : Arb) : Arb :=
  { a with inp := (List.range a.inp.length).map (fun i =>
    let x := a.input i
    let room := if !may i then 0 else if a.egress then a.depth.toNat - x.queue.length else if a.holder = some i || x.queue ≠ [] then 0 else 1
    { x with queue := x.queue ++ x.posted.take room, posted := x.posted.drop room }) }

/-- Grant the port for the requester's oldest transaction (R315, R318, R326). -/
def Arb.grant (a : Arb) (i : Nat) (lcc : U64) : Arb :=
  let beats := (a.input i).queue.headD 1
  let a := a.onInp i (fun x =>
    { x with
      queue := x.queue.drop 1
      inWin := x.inWin + 1
      grants := satInc x.grants
      longest := if x.longest.toNat < x.waiting then BitVec.ofNat 32 (min x.waiting 0xFFFFFFFF) else x.longest
      waiting := 0 })
  { a with
    holder := some i
    held := 0
    grantAt := lcc
    left := beats
    taking := false
    hint := none }

/-- An event is counted in its window (R320). -/
def Arb.count (a : Arb) : Arb :=
  let n := a.pos + 1
  if a.winNow = 0 then { a with rollDue := true }
  else if a.winNow.toNat ≤ n.toNat then { a with pos := n, windows := a.windows + 1, rollDue := true }
  else { a with pos := n }

/-- The port is free for the next cycle: it has no holder, or the holder's last beat moves in this cycle and it drops its request
(R316). `hold`: the ingest port holds the grant for a list that finds no room (09 R243). -/
def Arb.free (a : Arb) (hold : Bool) : Bool := a.holder.isNone || (decide (a.left ≤ 1) && !hold)

/-- An arbitration event falls in this cycle (R316). -/
def Arb.isEvent (a : Arb) (hold : Bool) : Bool := a.free hold && (List.range a.inputs).any a.requests

/-- An arbitration event (R315, R316, R320): the winner is granted; where every requester is masked, nobody is. -/
def Arb.event (a : Arb) (lcc : U64) : Arb :=
  let b := a.rolled
  match b.winner with
  | some i => ((b.waits (some i)).grant i lcc).count
  | none => { b.waits none with holder := none, hint := none }.count

/-- The hint of a cycle that is no event, with `n` beats to move from this one on (R319): the input that would be granted now, in
the LEAD cycles before the last beat's. A hint that moves counts. -/
def Arb.hinted (a : Arb) (n : Nat) : Arb :=
  if !a.egress && a.hintEn && decide (2 ≤ n) && decide (n - 1 ≤ a.hintLead.toNat) then
    match a.rolled.winner, a.hint with
    | some y, some x => { a with hint := some y, hintBroken := if x = y then a.hintBroken else satInc a.hintBroken }
    | some y, none => { a with hint := some y }
    | none, _ => a
  else a

/-- The debug port's request revokes the holder at its current beat: its request stands, with the beats not moved (R323). -/
def Arb.revoke (a : Arb) (h : Nat) : Arb :=
  { a.onInp h (fun x => { x with queue := (a.left - 1) :: x.queue }) with
    holder := none
    taking := true
    hint := none
    revokes := satInc a.revokes }

/-- A cycle in which the holder `h` keeps the port and moves a beat (R317, R319, R323, R326). -/
def Arb.moves (a : Arb) (h : Nat) : Arb :=
  let b := { a.waits (some h) with held := satInc a.held }
  if h ≠ a.debug && a.requests a.debug then b.revoke h
  else { b.hinted a.left with left := a.left - 1 }

/-- One cycle of an arbiter, after the requests of its start: an event, a beat of the holder, or nothing. After a revocation the port has
no holder, and the debug port, whose request ranks highest, wins the event of the next cycle (R316, R323). -/
def Arb.cycle (a : Arb) (hold : Bool) (lcc : U64) : Arb :=
  if a.isEvent hold then a.event lcc
  else if a.free hold then { a with holder := none, hint := none }
  else match a.holder with
    | some h => a.moves h
    | none => a

/-! ### Who may request (R314, R324) -/

/-- Inputs that no requester has (R314). -/
def reservedInput (inst i : Nat) : Bool := (inst = 0 && i < 7) || (inst = 3 && i = 0)

/-- The units of the block that request on more than one port (R314). -/
inductive PortUnit where
  | walker | keeper | pruner
deriving DecidableEq, Repr

def portUnit (inst i : Nat) : Option PortUnit :=
  match inst with
  | 0 => if i = 12 then some .keeper else if i = 11 then some .pruner else none
  | 1 => if i = 4 then some .walker else if i = 7 then none else some .keeper
  | 2 => if i = 0 then some .pruner else none
  | _ => if i = 7 then none else some .walker

/-- Place of a port in the order of acquisition: PLOT, SEEDBED, PRUNER_IN, EGRESS (R324). -/
def portOrder (inst : Nat) : Nat := match inst with | 1 => 0 | 3 => 1 | 2 => 2 | _ => 3

/-- A unit's request stands at a port. -/
def State.asks (s : State) (u : PortUnit) (k : Nat) : Bool :=
  (List.range (s.arb k).inputs).any (fun i => decide (portUnit k i = some u) && (s.arb k).requests i)

/-- A unit holds a port. -/
def State.holdsPort (s : State) (u : PortUnit) (k : Nat) : Bool :=
  match (s.arb k).holder with | some h => portUnit k h = some u | none => false

/-- A unit raises a request at a port while it holds no later one and none of its requests stands at another, so that it takes the ports in
their order (R324); a reserved input never requests (R314). -/
def State.mayPost (s : State) (inst i : Nat) : Bool :=
  !reservedInput inst i && (match portUnit inst i with
    | none => true
    | some u => (List.range 4).all (fun k => k = inst || (!s.asks u k && (decide (portOrder k < portOrder inst) || !s.holdsPort u k))))

/-- The requests raised at the start of a cycle. On EGRESS the command raises the debug port's alone: the block's own writes are
posted as they are issued (`egress`, `putCopy`), and a trace source posts as many of its buffered records as its queue holds (R314, R318,
18 R436). -/
def arbPosts (inst : Nat) (posts : List (Fin 32 × Nat)) (s : State) : State :=
  let ps := posts.filter (fun p => s.mayPost inst p.1.val && (inst ≠ 0 || p.1.val = 31))
  let s := onArb inst (fun a => ps.foldl (fun a p => a.post p.1.val p.2) a) s
  let s := if inst = 0 then
      each [10, 9, 8, 7] (fun i s => onArb 0 (fun a => a.onInp i (fun x =>
        { x with queue := x.queue ++ List.replicate (min a.depth.toNat (s.traceHeld i) - x.queue.length) 1 })) s) s
    else s
  onArb inst (Arb.pull (s.mayPost inst)) s

/-- The ingest port holds its list and the grant while the lane's queue is full (09 R243). -/
def State.ingestHeld (s : State) (inst : Nat) : Bool := inst = 2 && s.prn.port.isSome

/-- One cycle of an instance; a grant to a trace input of EGRESS writes a record (18 R436). -/
def arbCycle (inst : Nat) (posts : List (Fin 32 × Nat)) (s : State) : State :=
  let s := arbPosts inst posts s
  let s := onArb inst (fun a => a.cycle (s.ingestHeld inst) s.ctl.lcc) s
  let a := s.arb inst
  if inst = 0 && a.held = 0 then match a.holder with
    | some h => traceGrant h s
    | none => s
  else s

/-- The requests of an event's own cycle: the inputs that raise one, each with the beats given at its place, 1 where none is given. -/
def postsOf (posts : List (Fin 32)) (beats : List Nat) : List (Fin 32 × Nat) :=
  posts.zipIdx.map (fun e => (e.1, beats.getD e.2 1))

/-- ARBITRATION_EVENT (R315, R316): the cycles before the event's, each with the requests raised at its start, and the event's own. -/
def arbEvent (inst : Nat) (posts : List (Fin 32)) (cycles : List (List (Fin 32 × Nat))) (beats : List Nat) (s : State) : State :=
  arbCycle inst (postsOf posts beats) (each cycles (arbCycle inst) s)

/-- ARB_WINDOW_END (R322): once the window's events are used up, the first event of the next; there the masks clear and the
settings written take effect. -/
def arbWindowEnd (inst : Nat) (posts : List (Fin 32 × Nat)) (s : State) : State :=
  if (s.arb inst).rollDue then arbCycle inst posts s else s

/-- DEBUG_REVOKE (R323): the debug port raises a request for `beats` beats; in a cycle that is no event this revokes the holder,
and the debug port is granted in the next. -/
def debugRevoke (inst beats : Nat) (s : State) : State :=
  let s := onArb inst (fun a => (a.post a.debug beats).pull (s.mayPost inst)) s
  let s := onArb inst (fun a => a.cycle (s.ingestHeld inst) s.ctl.lcc) s
  if (s.arb inst).taking then arbCycle inst [] s else s

/-! ### Registers (R318 to R322, R326 to R331) -/

/-- A write to WINDOW takes effect at the next window (R322). -/
def setWindow (i v : Nat) (s : State) : State := onArb i (fun a => { a with window := BitVec.ofNat 16 v }) s

/-- ARB_CLEAR (R326). -/
def arbClear (i : Nat) (s : State) : State :=
  onArb i (fun a => { a with inp := a.inp.map (fun x => { x with grants := 0, wait := 0, longest := 0, waiting := 0 }) }) s

/-- The shadow map is a permutation that keeps the debug port on top (R329). -/
def Arb.mapOk (a : Arb) : Bool :=
  let m := (a.shadow.take a.inputs).map (fun p => p.toNat)
  (List.range a.inputs).all (fun p => m.contains p) && m.getD a.debug 0 = a.debug

/-- PRIO_COMMIT (R327, R329). Waiters are ranked anew from the next cycle on, and a hint that moves by it counts there (R319). -/
def prioCommit (i : Nat) (s : State) : State :=
  let a := s.arb i
  if a.mapOk then
    onArb i (fun a => { a with active := a.shadow }) s
  else
    logErr { code := 0x16, island := arbIsland i, addr := arbBase i + 0x20 } (onArb i (fun a => { a with reject := true }) s)

/-- HINT: EN and LEAD (R319). EGRESS ignores it (R331). -/
def setHint (i v : Nat) (s : State) : State :=
  if i = 0 then s else onArb i (fun a => { a with hintEn := v % 2 = 1, hintLead := BitVec.ofNat 4 (v / 16) }) s

/-- PENDING_DEPTH (R318). -/
def setDepth (i v : Nat) (s : State) : State :=
  let d := v % 8
  if i = 0 && 1 ≤ d && d ≤ 4 then onArb i (fun a => { a with depth := BitVec.ofNat 3 d }) s else s

/-- One word of PRIO_MAP (R327). -/
def setMap (i j v : Nat) (s : State) : State :=
  onArb i (fun a => { a with shadow := (List.range a.shadow.length).map (fun k =>
    if k / 4 = j then BitVec.ofNat 5 (v / 256 ^ (k % 4)) else a.shadow.getD k 0) }) s

/-- QUOTA (R320 to R322): the debug port's is fixed at 0; HIGH 1 with COUNT 0 is refused. -/
def setQuota (i k v : Nat) (s : State) : State :=
  let a := s.arb i
  if a.inputs ≤ k || k = a.debug then s
  else
    let high := v / 2 ^ 15 % 2
    let n := v % 256
    if high = 1 && n = 0 then regRefused (arbBase i + 0xA0 + 4 * k) (arbIsland i) s
    else onArb i (fun a => a.onInp k (fun x => { x with quota := BitVec.ofNat 16 (high * 2 ^ 15 + n) })) s

/-- Arbiter registers at their Reset values (R330). -/
def resetArbs (s : State) : State :=
  { s with arbs := [Arb.reset 32 true, Arb.reset 8 false, Arb.reset 8 false, Arb.reset 8 false] }

/-- A grant taken before the last step progress ends at a bite (R325): the instance and the requester. -/
def State.stuck (s : State) : List (Nat × Nat) :=
  (List.range 4).filterMap (fun i => match (s.arb i).holder with
    | some h => if (s.arb i).grantAt.toNat < s.wdog.progress.toNat then some (i, h) else none
    | none => none)

def endGrant (i : Nat) (s : State) : State := onArb i (fun a => { a with holder := none, hint := none }) s

end Sys2Proof.Machine
end

