-- ==== Sys2Proof/Machine/Float.lean ====
section
/-! DEFINITION. Binary32 and binary64 arithmetic as the spec's formulas need it: exact comparison, and sum, product and
quotient rounded to nearest, ties to even (PRESUMED, log entry 7: the spec names the formats and no rounding); exp and ln to within one
unit in the last place of that (DESIGN CHOICE, log entry 4). -/

namespace Sys2Proof.Machine

/-- A floating-point value. -/
inductive Num where
  | nan
  | inf (neg : Bool)
  | fin (neg : Bool) (m : Nat) (e : Int)
deriving DecidableEq, Repr

/-- Decode a format with `fb` fraction bits, `eb` exponent bits and bias `bias`; `hasInf`: all-ones exponents are
infinities and NaNs. -/
def decodeFp (eb fb bias : Nat) (hasInf : Bool) (x : Nat) : Num :=
  let frac := x % 2 ^ fb
  let ex := x / 2 ^ fb % 2 ^ eb
  let neg : Bool := x / 2 ^ (fb + eb) % 2 = 1
  if hasInf && ex = 2 ^ eb - 1 then (if frac = 0 then .inf neg else .nan)
  else if ex = 0 then .fin neg frac (1 - (bias : Int) - fb)
  else .fin neg (2 ^ fb + frac) ((ex : Int) - bias - fb)

def ofF32 (x : U32) : Num := decodeFp 8 23 127 true x.toNat
def ofF64 (x : U64) : Num := decodeFp 11 52 1023 true x.toNat

/-- Round m / d × 2^e to a format of `p` significant bits with least exponent `emin` and infinity `infBits` (magnitude
bits). -/
def roundMag (p : Nat) (emin : Int) (infBits : Nat) (m d : Nat) (e : Int) : Nat :=
  if m = 0 then 0 else
    let a : Int := (p : Int) + 2 - (Nat.log2 m : Int) + Nat.log2 d
    let num := if 0 ≤ a then m * 2 ^ a.toNat else m
    let den := if 0 ≤ a then d else d * 2 ^ (-a).toNat
    let q := num / den
    let sticky : Bool := num % den ≠ 0
    let e0 := e - a
    let lsb := max (e0 + Nat.log2 q - (p - 1)) emin
    let r := (lsb - e0).toNat
    let k := q / 2 ^ r
    let rem := q % 2 ^ r
    let half := 2 ^ (r - 1)
    let up : Bool := half < rem || (rem = half && (sticky || k % 2 = 1))
    let k := if up then k + 1 else k
    let bits := if k < 2 ^ (p - 1) then k else (lsb - emin + 1).toNat * 2 ^ (p - 1) + (k - 2 ^ (p - 1))
    if infBits ≤ bits then infBits else bits

def toF32q (neg : Bool) (m d : Nat) (e : Int) : U32 :=
  BitVec.ofNat 32 (roundMag 24 (-149) 0x7F800000 m d e + (if neg then 2 ^ 31 else 0))

def toF64q (neg : Bool) (m d : Nat) (e : Int) : U64 :=
  BitVec.ofNat 64 (roundMag 53 (-1074) 0x7FF0000000000000 m d e + (if neg then 2 ^ 63 else 0))

def nan32 : U32 := 0x7FC00000
def nan64 : U64 := 0x7FF8000000000000
def negInf32 : U32 := 0xFF800000
def posInf32 : U32 := 0x7F800000

def toF32 : Num → U32
  | .nan => nan32
  | .inf neg => if neg then negInf32 else posInf32
  | .fin neg m e => toF32q neg m 1 e

def toF64 : Num → U64
  | .nan => nan64
  | .inf neg => if neg then 0xFFF0000000000000 else 0x7FF0000000000000
  | .fin neg m e => toF64q neg m 1 e

/-- The signed integer m × 2^(e − least) of a finite value, on a common exponent. -/
def alignInt (neg : Bool) (m : Nat) (e least : Int) : Int :=
  let v : Int := (m * 2 ^ (e - least).toNat : Nat)
  if neg then -v else v

/-- Exact sum. −0 arises only from two negative zeros. -/
def Num.add : Num → Num → Num
  | .nan, _ => .nan
  | _, .nan => .nan
  | .inf a, .inf b => if a = b then .inf a else .nan
  | .inf a, _ => .inf a
  | _, .inf b => .inf b
  | .fin a m e, .fin b n f =>
    let l := min e f
    let v := alignInt a m e l + alignInt b n f l
    if v = 0 then .fin (a && b) 0 l else .fin (decide (v < 0)) v.natAbs l

def Num.neg : Num → Num
  | .nan => .nan
  | .inf a => .inf (!a)
  | .fin a m e => .fin (!a) m e

def Num.mul : Num → Num → Num
  | .nan, _ => .nan
  | _, .nan => .nan
  | .inf a, .inf b => .inf (a != b)
  | .inf a, .fin b n _ => if n = 0 then .nan else .inf (a != b)
  | .fin a m _, .inf b => if m = 0 then .nan else .inf (a != b)
  | .fin a m e, .fin b n f => .fin (a != b) (m * n) (e + f)

/-- Quotient rounded to binary64. -/
def div64 (x y : Num) : U64 :=
  match x, y with
  | .nan, _ => nan64
  | _, .nan => nan64
  | .inf _, .inf _ => nan64
  | .inf a, .fin b _ _ => toF64 (.inf (a != b))
  | .fin a _ _, .inf b => toF64 (.fin (a != b) 0 0)
  | .fin a m e, .fin b n f =>
    if n = 0 then (if m = 0 then nan64 else toF64 (.inf (a != b))) else toF64q (a != b) m n (e - f)

/-- Quotient rounded to binary32. -/
def div32 (x y : Num) : U32 :=
  match x, y with
  | .nan, _ => nan32
  | _, .nan => nan32
  | .inf _, .inf _ => nan32
  | .inf a, .fin b _ _ => toF32 (.inf (a != b))
  | .fin a _ _, .inf b => toF32 (.fin (a != b) 0 0)
  | .fin a m e, .fin b n f =>
    if n = 0 then (if m = 0 then nan32 else toF32 (.inf (a != b))) else toF32q (a != b) m n (e - f)

def ofNatNum (n : Nat) : Num := .fin false n 0
def ofIntNum (n : Int) : Num := .fin (decide (n < 0)) n.natAbs 0

def add32 (x y : U32) : U32 := toF32 ((ofF32 x).add (ofF32 y))
def add64 (x y : U64) : U64 := toF64 ((ofF64 x).add (ofF64 y))
def sub64 (x y : U64) : U64 := toF64 ((ofF64 x).add (ofF64 y).neg)
def mul64 (x y : U64) : U64 := toF64 ((ofF64 x).mul (ofF64 y))
def f32to64 (x : U32) : U64 := toF64 (ofF32 x)
def f64to32 (x : U64) : U32 := toF32 (ofF64 x)

/-- Order key of a binary32 that is not NaN; −0 and +0 have one key (09 R246). -/
def f32Key (x : U32) : Int :=
  let m : Int := (x.toNat % 2 ^ 31 : Nat)
  if 2 ^ 31 ≤ x.toNat then -m else m

def f64Key (x : U64) : Int :=
  let m : Int := (x.toNat % 2 ^ 63 : Nat)
  if 2 ^ 63 ≤ x.toNat then -m else m

def f64Nan (x : U64) : Bool := 0x7FF0000000000000 < x.toNat % 2 ^ 63

/-- x < y in IEEE 754 binary32. -/
def f32Lt (x y : U32) : Bool := !f32Nan x && !f32Nan y && decide (f32Key x < f32Key y)

/-- x < y in IEEE 754 binary64. -/
def f64Lt (x y : U64) : Bool := !f64Nan x && !f64Nan y && decide (f64Key x < f64Key y)

/-- x ≤ y in IEEE 754 binary64. -/
def f64Le (x y : U64) : Bool := !f64Nan x && !f64Nan y && decide (f64Key x ≤ f64Key y)

/-! ### exp and ln (09 R248, 10 R264; log entry 4), in fixed point with 192 fraction bits -/

/-- One in fixed point. -/
def fixOne : Nat := 2 ^ 192

/-- ln 2 in fixed point. -/
def fixLn2 : Nat := 4350955369971217654477563090224794165364344896676135745069

/-- m × 2^e in fixed point, rounded down. -/
def toFix (m : Nat) (e : Int) : Nat :=
  let k := e + 192
  if 0 ≤ k then m * 2 ^ k.toNat else m / 2 ^ (-k).toNat

/-- The sum of the terms rᵏ / k! of exp from term `k` on, in fixed point; `n` bounds them. -/
def expTerms (r : Nat) : Nat → Nat → Nat → Nat
  | 0, _, _ => 0
  | n + 1, k, t => t + expTerms r n (k + 1) (t * r / fixOne / (k + 1))

/-- The sum of the terms tᵏ / k over odd k from `k` on, in fixed point; `n` bounds them and `sq` is t². -/
def athTerms (sq : Nat) : Nat → Nat → Nat → Nat
  | 0, _, _ => 0
  | n + 1, k, t => t / k + athTerms sq n (k + 2) (t * sq / fixOne)

/-- A positive binary64 moved by one unit down (0), not at all (1) or up (2), within 0 and +∞. -/
def ulp64 (x : U64) (c : Fin 3) : U64 := BitVec.ofNat 64 (min 0x7FF0000000000000 (x.toNat + c.val - 1))

/-- exp over binary64. From 2¹¹ on in magnitude it over- or underflows whatever the argument. -/
def exp64 (x : U64) : U64 :=
  match ofF64 x with
  | .nan => nan64
  | .inf neg => if neg then 0 else x
  | .fin neg m e =>
    if m = 0 then 0x3FF0000000000000 else
      let big : Bool := decide (10 < e + Nat.log2 m)
      let y : Int := if big then (1100 * fixOne : Nat) else (toFix m e : Nat)
      let y := if neg then -y else y
      let n := y / (fixLn2 : Int)
      let r := (y - n * fixLn2).toNat
      ulp64 (toF64q false (expTerms r 60 0 fixOne) 1 (n - 192)) (Config.expUlp x)

/-- Natural logarithm over binary64. -/
def ln64 (x : U64) : U64 :=
  match ofF64 x with
  | .nan => nan64
  | .inf neg => if neg then nan64 else x
  | .fin neg m e =>
    if m = 0 then 0xFFF0000000000000 else if neg then nan64 else
      let k := Nat.log2 m
      let t := (m - 2 ^ k) * fixOne / (m + 2 ^ k)
      let v : Int := (e + k) * fixLn2 + (2 * athTerms (t * t / fixOne) 70 1 t : Nat)
      if v = 0 then 0 else
        let y := ulp64 (toF64q false v.natAbs 1 (-192)) (Config.lnUlp x)
        if v < 0 then y ||| 0x8000000000000000 else y

/-- ⌈n / x⌉ for a positive finite binary32 x; 0 where x is not one. -/
def ceilDivF32 (n : Nat) (x : U32) : Nat :=
  match ofF32 x with
  | .fin false m e => if m = 0 then 0 else if 0 ≤ e then cdiv n (m * 2 ^ e.toNat) else cdiv (n * 2 ^ (-e).toNat) m
  | _ => 0

/-- An element of a SELECT job converted exactly to binary32 (09 R255). -/
def elemTo32 (format : BitVec 3) (x : U32) : U32 :=
  match format.toNat with
  | 0 => x
  | 1 => BitVec.ofNat 32 (x.toNat % 2 ^ 16 * 2 ^ 16)
  | 2 => toF32 (decodeFp 5 10 15 true (x.toNat % 2 ^ 16))
  | 3 => if x.toNat % 128 = 127 then nan32 else toF32 (decodeFp 4 3 7 false (x.toNat % 256))
  | _ => toF32 (decodeFp 5 2 15 true (x.toNat % 256))

end Sys2Proof.Machine
end

