-- ==== Sys2Proof/Machine/Plots.lean ====
section
/-! DEFINITION. The plot keeper (07 R173 to R184, R200 to R209): pools, refcounts, plot tables, spills and restores. -/

namespace Sys2Proof.Machine

/-- No step executes and no carried chunk is open (05 R130, 07 R180). -/
def State.restful (s : State) : Bool :=
  s.sow.exec.isNone && s.reqs.all (fun e => match e.2.chunk with | some c => c.bound | none => true)

/-! ### Pools and refcounts -/

def State.plotCount (s : State) (m : Nat) : Nat := match s.desc m with | some d => d.plotCount.toNat | none => 0

/-- A frame is free: no reference, in the pool, not retired (R182, 15 R386, R387). -/
def State.frameFree (s : State) (p : Nat) : Bool :=
  !mhas p s.plots.refs && !s.plots.released.contains p && !s.wdog.retiredFrames.contains p && !s.wdog.keptFrames.contains p

/-- Free frames of a model's pool (R177). -/
def State.freeFrames (s : State) (m : Nat) : Nat :=
  let b := (s.slot m).poolBase
  let n := s.plotCount m
  let inR (p : Nat) : Bool := b ≤ p && p < b + n
  n - (s.plots.refs.filter (fun e => inR e.1)).length - (s.plots.released.filter inR).length
    - ((s.wdog.retiredFrames ++ s.wdog.keptFrames).eraseDups.filter (fun p =>
        inR p && !mhas p s.plots.refs && !s.plots.released.contains p)).length

/-- The lowest free frame of the model's pool on a stack; plot b + q lies on stack q mod 12 (R174). -/
def State.frameOn (s : State) (m stack : Nat) : Option Nat :=
  let b := (s.slot m).poolBase
  ((List.range (s.plotCount m / 12)).map (fun f => b + f * 12 + stack)).find? s.frameFree

/-- The frame for plot `j` of the sequence in request slot `slot`: the plots of a sequence go round the twelve stacks (R176; 01 R18). -/
def State.pickFrame (s : State) (m slot j : Nat) : Option (Nat × Nat) :=
  let first := (slot % 12 + j) % 12
  ((List.range 12).map (fun i => (first + i) % 12)).findSome? (fun k => (s.frameOn m k).map (fun p => (p, k)))

def State.refOf (s : State) (p : Nat) : Nat := match mget p s.plots.refs with | some c => c.toNat | none => 0

def setRef (p : Nat) (c : Nat) (s : State) : State :=
  { s with plots := { s.plots with refs := if c = 0 then mdel p s.plots.refs else mput p (BitVec.ofNat 16 c) s.plots.refs } }

/-- Tenants passed over are tried again (11 R297). -/
def retryPassed (s : State) : State := { s with tens := s.tens.map (fun x => { x with passed := false }) }

/-- A frame whose count reached 0 is released: into the pool at once while nothing runs, else at the next step's start
(R184, 05 R130). A retired frame stays out by its own list. The release lets tenants passed over try again (11 R297). -/
def releaseFrame (p : Nat) (s : State) : State :=
  if s.restful then retryPassed s else { s with plots := { s.plots with released := s.plots.released ++ [p] } }

/-- Drop a reference; a pinned count ignores it (R182, R183). -/
def dropRef (p : Nat) (s : State) : State :=
  let c := s.refOf p
  if c = 0 || c = 0xFFFF then s
  else if c = 1 then releaseFrame p (setRef p 0 s)
  else setRef p (c - 1) s

/-- Add-unless-zero: none where the count is 0; a pinned count ignores the raise (R182, R183). -/
def raiseRef (p : Nat) (s : State) : Option State :=
  let c := s.refOf p
  if c = 0 then none else if c = 0xFFFF then some s else some (setRef p (c + 1) s)

/-- Frames released during a step enter the pool at the start of the next, and old table blocks are freed (05 R130,
07 R180). -/
def enterPool (s : State) : State := { s with plots := { s.plots with released := [], oldBlocks := [] } }

/-! ### Plot tables -/

/-- Bytes of the heap block that holds `n` entries: a power of two of at least 64 (R180). -/
def blockBytes (n : Nat) : Nat := if n ≤ 8 then 64 else 2 ^ (Nat.log2 (n * 8 - 1) + 1)

/-- Table-heap bytes of a model slot in use (R180). -/
def State.heapUsed (s : State) (m : Nat) : Nat :=
  (s.reqs.map (fun e => if e.2.model.toNat = m then e.2.tableBlock else 0)).sum
    + (s.reqs.map (fun e => match e.2.fbTable with | some (k, l) => if k.toNat = m then blockBytes l.length else 0 | none => 0)).sum
    + ((s.plots.oldBlocks.filter (fun b => b.1 = m)).map (fun b => b.2)).sum
    + (s.teth.mirrors.map (fun x => if s.teth.model.toNat = m && x.table ≠ [] then blockBytes x.table.length else 0)).sum

def State.heapSize (s : State) (m : Nat) : Nat := 16 * 2 ^ 20 + 16 * s.plotCount m

/-- The heap of a model slot can supply a block for `n` entries beside those in use (R180). -/
def State.heapFits (s : State) (m n : Nat) : Bool := decide (s.heapUsed m + blockBytes n ≤ s.heapSize m)

/-- A table gives up a heap block of `n` bytes: it is free at the start of the next step, or at once while nothing runs (R180). -/
def freeBlock (m n : Nat) (s : State) : State :=
  if n = 0 || s.restful then s else { s with plots := { s.plots with oldBlocks := s.plots.oldBlocks ++ [(m, n)] } }

/-- The table's block for `n` entries: doubled where it must grow; none where the heap cannot supply it (R180). -/
def growBlock (slot n : Nat) (s : State) : Option State :=
  match s.req slot with
  | none => none
  | some r =>
    let m := r.model.toNat
    let new := blockBytes n
    if new ≤ r.tableBlock then some s
    else if !s.heapFits m n then none
    else some (freeBlock m r.tableBlock (s.onReq slot (fun r => { r with tableRoot := Config.tableAddr slot new, tableBlock := new })))

/-- Plots that a group's leader may still reserve: the smallest count over the members' STATUS, each FREE less the plots
named by the manifests after its MANIFEST_STEP, less the plots reserved, or coming back, and not yet named (05 R137, 13 R344). -/
def State.groupRoom (s : State) : Nat :=
  let unnamed := (s.reqs.map (fun e => if e.2.model = s.teth.model then e.2.table.length - e.2.named else 0)).sum
  let room (x : MemStat) : Nat :=
    x.e.free.toNat - ((s.teth.mans.filter (fun m => decide (x.e.manifestStep.toNat < m.1.toNat))).map (fun m => m.2)).sum
  (s.teth.stats.map room).foldl min 1048576 - unnamed - s.teth.coming

/-- Reserve the next plot of a sequence (R177): a frame, its count 1, and the table entry. -/
def reserveOne (slot : Nat) (s : State) : Option State :=
  match s.req slot with
  | none => none
  | some r =>
    if s.grouped && r.model = s.teth.model && s.groupRoom = 0 then none else
    match growBlock slot (r.table.length + 1) s, s.pickFrame r.model.toNat slot r.table.length with
    | some s', some (p, k) =>
      some ((setRef p 1 s').onReq slot (fun r => { r with table := r.table ++ [⟨p, k, 0, false, 0⟩] }))
    | _, _ => none

/-- Reserve `n` further plots, all or none. -/
def reserveN (slot : Nat) : Nat → State → Option State
  | 0, s => some s
  | n + 1, s => match reserveOne slot s with
    | some s' => reserveN slot n s'
    | none => none

/-- Reserve the plots that bring the table to `n` entries, all or none. -/
def coverTo (slot n : Nat) (s : State) : Option State :=
  match s.req slot with
  | some r => reserveN slot (n - r.table.length) s
  | none => none

/-- Reserve up to `n` further plots, as many as there are. -/
def reserveSome (slot : Nat) : Nat → State → State
  | 0, s => s
  | n + 1, s => match reserveOne slot s with
    | some s' => reserveSome slot n s'
    | none => s

/-- A reservation that may fail: the frames taken until then. -/
def coverSome (slot n : Nat) (s : State) : State :=
  match s.req slot with
  | some r => reserveSome slot (n - r.table.length) s
  | none => s

/-- Entries needed to cover position `pos`. -/
def plotsFor (pos : Nat) : Nat := pos / 128 + 1

/-! ### Cold-frame granules (R200 to R202) -/

def State.tierSize (s : State) : Tier → Nat
  | .pool => s.plots.poolSize.toNat
  | .host t => ((mget t s.plots.hostSize).getD 0).toNat

def State.tierUsed (s : State) (t : Tier) : Nat := ((s.plots.runs.filter (fun r => r.tier = t)).map (fun r => r.len)).sum

/-- COLD_POOL_FREE and COLD_HOST_FREE[t] (R200). -/
def State.tierFree (s : State) (t : Tier) : Nat := s.tierSize t - s.tierUsed t

/-- The lowest gap of `len` granules among runs sorted by base. -/
def gapFor (len size : Nat) : Nat → List ColdRun → Option Nat
  | at_, [] => if at_ + len ≤ size then some at_ else none
  | at_, r :: rs => if at_ + len ≤ r.base then some at_ else gapFor len size (max at_ (r.base + r.len)) rs

def allocIn (t : Tier) (len : Nat) (s : State) : Option ColdRun :=
  (gapFor len (s.tierSize t) 0 (sortBy (fun a b => decide (a.base < b.base)) (s.plots.runs.filter (fun r => r.tier = t)))).map
    (fun b => ⟨t, b, len⟩)

/-- Step 1 of R201: the pooled tier if enabled and it has room, else the tenant's host area likewise. -/
def allocCold (tenant len : Nat) (s : State) : Option ColdRun :=
  let a := if s.plots.poolEn then allocIn .pool len s else none
  match a with
  | some r => some r
  | none => if s.plots.hostEn then allocIn (.host tenant) len s else none

def addRun (r : ColdRun) (s : State) : State := { s with plots := { s.plots with runs := s.plots.runs ++ [r] } }

def freeRun (r : ColdRun) (s : State) : State := { s with plots := { s.plots with runs := s.plots.runs.erase r } }

/-- Where a run lies: the tier's memory, and its address (R200). -/
def State.runSpace (s : State) (r : ColdRun) : Space :=
  match r.tier with
  | .pool => .pooled
  | .host t => .host (s.pasidOf t)

def State.runAddr (s : State) (r : ColdRun) : Nat :=
  match r.tier with
  | .pool => (s.plots.poolBase.toNat + r.base) * 65536
  | .host t => (((mget t s.plots.hostBase).getD 0).toNat + r.base) * 65536

/-- KV bytes of a plot of model slot `m` (R173). -/
def State.kvBytes (s : State) (m : Nat) : Nat := match s.desc m with | some d => 128 * d.kvBytes.toNat | none => 0

def Tier.loc : Tier → BitVec 2
  | .pool => 1
  | .host _ => 2

/-- The run of granules that a cold entry of a request names. -/
def coldRunAt (s : State) (h : U32) (m : Nat) (e : PlotEnt) : Option ColdRun :=
  if e.loc = 1 then some ⟨.pool, e.cold.toNat, cdiv (s.kvBytes m) 65536⟩
  else if e.loc = 2 then some ⟨.host (hTenant h), e.cold.toNat, cdiv (s.kvBytes m) 65536⟩
  else none

def coldRunOf (s : State) (r : Req) (e : PlotEnt) : Option ColdRun := coldRunAt s r.handle r.model.toNat e

/-- The Ledger's charge of a cold-frame move (11 R287). -/
def coldCharge (h : U32) (t : Tier) (n : Nat) (s : State) : State :=
  chargeReq h (match t with | .pool => { pooledBytes := BitVec.ofNat 64 n } | .host _ => { hostBytes := BitVec.ofNat 64 n }) s

/-! ### Spills (R201 to R204) -/

def onMoves (f : List Move → List Move) (s : State) : State := { s with plots := { s.plots with moves := f s.plots.moves } }

/-- A plot table: of the request in a slot, or of a follower's mirrored row, whose slot stands above 2^20 (13 R334). -/
structure Tab where
  handle : U32
  model  : Nat
  table  : List PlotEnt

def mirrorSlot (h : U32) : Nat := 2 ^ 20 + hSlot h

def State.mirror (s : State) (h : U32) : Option Mirror := s.teth.mirrors.find? (fun m => m.handle = h)

/-- Plots of a mirrored row that are not in stack memory. -/
def Mirror.outPlots (m : Mirror) : List Nat :=
  (List.range m.table.length).filter (fun j => match m.table[j]? with | some e => e.loc ≠ 0 | none => false)

def onMirror (h : U32) (f : Mirror → Mirror) (s : State) : State :=
  { s with teth := { s.teth with mirrors := s.teth.mirrors.map (fun m => if m.handle = h then f m else m) } }

def State.tab (s : State) (slot : Nat) : Option Tab :=
  if slot < 2 ^ 20 then (s.req slot).map (fun r => ⟨r.handle, r.model.toNat, r.table⟩)
  else (s.teth.mirrors.find? (fun m => mirrorSlot m.handle = slot)).map (fun m => ⟨m.handle, s.teth.model.toNat, m.table⟩)

def setEnt (slot j : Nat) (f : PlotEnt → PlotEnt) (s : State) : State :=
  if slot < 2 ^ 20 then s.onReq slot (fun r => { r with table := lupd j f r.table })
  else { s with teth := { s.teth with mirrors := s.teth.mirrors.map (fun m =>
    if mirrorSlot m.handle = slot then { m with table := lupd j f m.table } else m) } }

/-- R203 for a spill under R129, and a refused or poisoned spill: the reference is dropped and no copy kept. -/
def dropPlot (slot j : Nat) (s : State) : State :=
  match s.tab slot with
  | some r => match r.table[j]? with
    | some e => setEnt slot j (fun e => { e with loc := 3, plot := 0 }) (dropRef e.plot s)
    | none => s
  | none => s

def movesOf (slot : Nat) (s : State) : List Move := s.plots.moves.filter (fun m => m.slot = slot && !m.dead)

/-- Copy a request's table out where a tier has room (R202). -/
def tableOut (slot : Nat) (r : Req) (s : State) : State :=
  match allocCold (hTenant r.handle) (cdiv (r.table.length * 8) 65536) s with
  | some run => putCopy egressCold (.table r.tableRoot true (s.runSpace run) (s.runAddr run) (r.table.length * 8))
      ((addRun run s).onReq slot (fun r => { r with tableCold := some run, tableBlock := 0 }))
  | none => s

/-- When every plot of a request has left stack memory: its table is copied out where a tier has room (R202), and a PAUSED request
becomes COLD, whatever waits for it (02 R37). -/
def spillEnd (slot : Nat) (s : State) : State :=
  match s.req slot with
  | none => s
  | some r =>
    if r.table.all (fun e => e.loc ≠ 0) && (movesOf slot s).isEmpty && (r.state = .paused || r.state = .heldPlots || r.state = .cold)
      && (match r.restore with | some x => !x.running | none => true) then
      let s := if r.table = [] || r.tableCold.isSome then s else tableOut slot r s
      if r.state = .paused then moveReq r.handle .cold s else s
    else s

/-- Queue the spill of every plot in stack memory that has no move yet (R201). -/
def queueSpill (slot : Nat) (cls : MoveFor) (s : State) : State :=
  match s.tab slot with
  | none => s
  | some r =>
    let js := (List.range r.table.length).filter (fun j => match r.table[j]? with
      | some e => e.loc = 0 && !(movesOf slot s).any (fun m => m.plot = j) | none => false)
    onMoves (fun ms => ms ++ js.map (fun j => ⟨slot, r.handle, j, cls, false, (r.table.getD j ⟨0, 0, 0, false, 0⟩).plot, none, false, s.kvBytes r.model, 0⟩)) s

/-- A reload copies from a tier: the host memory, or the pooled memory (08 R228). -/
def State.reloadsFrom (s : State) (t : Tier) : Bool :=
  let of (sp : BitVec 2) : Bool := match t with | .pool => sp = 1 | .host _ => sp = 0
  s.gh.slots.any (fun x => x.reloading && of x.srcSpace) || s.gh.grafts.any (fun g => g.reloading && of g.srcSpace)

/-- The run that a spill move takes now (R201). -/
def State.spillRun (s : State) (m : Move) : Option ColdRun := allocCold (hTenant m.handle) (cdiv m.bytes 65536) s

/-- A queued move may start: no reload copy on its tier stands ahead of it (08 R228). -/
def State.mayMove (s : State) (m : Move) : Bool :=
  !m.flying && (match (if m.cls = .restore then m.run else s.spillRun m) with | some r => !s.reloadsFrom r.tier | none => true)

/-- The move served next: by class, the oldest of a class first (R204). -/
def State.nextMove (s : State) : Option Move :=
  let ms := s.plots.moves.filter s.mayMove
  ([.pressure, .restore, .flush] : List MoveFor).findSome? (fun c => ms.find? (fun m => m.cls = c))

/-- The NoC copy of a move through the egress port (R201, R205). -/
def moveCopy (m : Move) (run : ColdRun) (s : State) : State :=
  putCopy egressCold (if m.cls = .restore then .restore m.frame (s.runSpace run) (s.runAddr run) m.bytes
    else .spill m.frame (s.runSpace run) (s.runAddr run) m.bytes) s

/-- A move starts (R204). -/
def launchMove (m : Move) (run : ColdRun) (s : State) : State :=
  moveCopy m run (onMoves (fun ms => ms.map (fun x => if x = m then { x with flying := true, run := some run, at_ := s.ctl.lcc } else x)) s)

/-- Start queued moves in the order of R204 while fewer than 64 are in flight; a spill without room drops its plot
(R129) or ends the flush of its request (R203). -/
def startMoves : Nat → State → State
  | 0, s => s
  | n + 1, s =>
    if 64 ≤ (s.plots.moves.filter (fun m => m.flying)).length then s else
    match s.nextMove with
    | none => s
    | some m =>
      if m.cls = .restore then
        startMoves n (match m.run with
          | some run => launchMove m run s
          | none => onMoves (fun ms => ms.map (fun x => if x = m then { x with flying := true, at_ := s.ctl.lcc } else x)) s)
      else
        match s.spillRun m with
        | some run => startMoves n (launchMove m run (addRun run s))
        | none =>
          if m.cls = .pressure then
            startMoves n (spillEnd m.slot (dropPlot m.slot m.plot (onMoves (fun ms => ms.erase m) s)))
          else startMoves n (onMoves (fun ms => ms.filter (fun x => !(x.slot = m.slot && x.cls = .flush && !x.flying))) s)

def pumpMoves (s : State) : State := startMoves s.plots.moves.length s

/-- How a COLD_FLUSH stands with one of its requests (04 R106): moved, failed (without room, or no longer there), or
still moving. -/
inductive FlushSeen where
  | moved | ended | failed | moving
deriving DecidableEq

def flushSeen (s : State) (h : U32) : FlushSeen :=
  match s.reqH h with
  | none => .ended
  | some r =>
    if r.state = .ended then .ended else if r.state = .cold then .moved
    else if r.state = .paused && !(movesOf (hSlot h) s).isEmpty then .moving
    else .failed

/-- Bring every waiting COLD_FLUSH up to date. -/
def flushNote (s : State) : State :=
  { s with pages := s.pages.map (fun g => { g with started := g.started.map (fun x => match x.wait with
      | .flush hs all moved failed =>
        let seen := hs.map (fun h => (h, flushSeen s h))
        let left := (seen.filter (fun e => e.2 = .moving || (!all && e.2 = .ended))).map (fun e => e.1)
        let nm := (seen.filter (fun e => e.2 = .moved)).length
        let bad := seen.any (fun e => e.2 = .failed || (all && e.2 = .ended))
        { x with wait := .flush left all (moved + nm) (failed || bad) }
      | _ => x) }) }

/-- A COLD_FLUSH moves the plots of a request. -/
def State.flushing (s : State) (h : U32) : Bool :=
  s.pages.any (fun g => g.started.any (fun x => match x.wait with | .flush hs _ _ _ => hs.contains h | _ => false))

/-- Complete the COLD_FLUSH messages whose requests have all settled (R106, 04 R446). -/
def flushDone (s : State) : State :=
  let s := flushNote s
  finishAll (fun _ x => match x.wait with
    | .flush [] true moved failed => some (if failed then stNoRoom else stOk, [(16, moved)])
    | .flush [] false _ failed => some (if failed then stNoRoom else stOk, [])
    | .flush (h :: _) false _ _ =>
      match s.reqH h with
      | some r => if r.state = .ended then some (stAlreadyEnded, [(16, r.endStatus.toNat)]) else none
      | none => some (stAlreadyEnded, [(16, 0)])
    | _ => none) s

/-- A spill's copy is written (R201 step 3): its bytes are charged (11 R287), the entry is rewritten and the reference dropped; for
a request that has ended, granules and frame are released (R209). -/
def spillDone (m : Move) (s : State) : State :=
  let s := onMoves (fun ms => ms.erase m) s
  let s := progressNow s
  match m.run with
  | none => s
  | some run =>
    let s := coldCharge m.handle run.tier m.bytes s
    if m.dead then freeRun run (dropRef m.frame s)
    else
      let s := setEnt m.slot m.plot (fun e => { e with loc := run.tier.loc, cold := BitVec.ofNat 32 run.base, plot := 0 }) s
      spillEnd m.slot (dropRef m.frame s)

/-- A spill whose write was refused, or whose read was poisoned. A refused plot is dropped under R129, and left in place, with
the flush stopped, under COLD_FLUSH (R203, R206); a poisoned one is dropped (15 R395). -/
def spillFail (m : Move) (poisoned : Bool) (s : State) : State :=
  let s := onMoves (fun ms => ms.erase m) s
  let s := match m.run with | some run => freeRun run s | none => s
  if m.dead then dropRef m.frame s
  else if m.cls = .flush && !poisoned then
    onMoves (fun ms => ms.filter (fun x => !(x.slot = m.slot && x.cls = .flush && !x.flying))) s
  else spillEnd m.slot (dropPlot m.slot m.plot s)

/-! ### Release at a request's end, and restores (R205, R206, R209) -/

/-- Release everything a request's table holds; moves in flight finish first (R209). -/
def dropTable (slot : Nat) (s : State) : State :=
  match s.req slot with
  | none => s
  | some r =>
    let mine := (movesOf slot s).filter (fun m => m.flying)
    let busy (j : Nat) : Bool := mine.any (fun m => m.plot = j)
    let idle := (movesOf slot s).filter (fun m => !m.flying && m.cls = .restore)
    let s := onMoves (fun ms => (ms.filter (fun m => m.slot ≠ slot || m.dead || m.flying)).map (fun m =>
      if m.slot = slot then { m with dead := true } else m)) s
    let s := each idle (fun m s => dropRef m.frame s) s
    let s := each ((List.range r.table.length).filter (fun j => !busy j)) (fun j s => match r.table[j]? with
      | some e => if e.loc = 0 then dropRef e.plot s else match coldRunOf s r e with
        | some run => freeRun run s
        | none => s
      | none => s) s
    let s := match r.tableCold with | some run => freeRun run s | none => s
    let s := match r.fbTable with | some (_, l) => each l (fun e s => dropRef e.plot s) s | none => s
    let s := freeBlock r.model.toNat r.tableBlock s
    s.onReq slot (fun r => { r with table := [], tableCold := none, tableRoot := 0, tableBlock := 0, restore := none, named := 0, fbTable := none })

/-- Plots of a request that have a cold copy. -/
def coldPlots (r : Req) : List Nat :=
  (List.range r.table.length).filter (fun j => match r.table[j]? with | some e => e.loc = 1 || e.loc = 2 | none => false)

/-- The restore waits no longer (R205): no shortfall, frames enough and a heap block for the table (R180), no spill of the request
in flight. -/
def restoreFree (s : State) (slot : Nat) (r : Req) : Bool :=
  s.sow.short = 0 && (movesOf slot s).isEmpty && (coldPlots r).length ≤ s.freeFrames r.model.toNat
    && (r.tableCold.isNone || s.heapFits r.model.toNat r.table.length)

/-- Truncate a request's table to its plots below `j`, releasing cold copies from `j` on unread (R206). A spill of such a plot is
dropped, or ends first where it is in flight. -/
def cutTable (slot j : Nat) (s : State) : State :=
  match s.req slot with
  | none => s
  | some r =>
    let out (m : Move) : Bool := m.slot = slot && !m.dead && m.cls ≠ .restore && decide (j ≤ m.plot)
    let busy (i : Nat) : Bool := s.plots.moves.any (fun m => out m && m.flying && m.plot = i)
    let s := onMoves (fun ms => (ms.filter (fun m => !out m || m.flying)).map (fun m => if out m then { m with dead := true } else m)) s
    let s := each ((List.range r.table.length).filter (fun i => decide (j ≤ i) && !busy i)) (fun i s => match r.table[i]? with
      | some e => if e.loc = 0 then dropRef e.plot s else match coldRunOf s r e with
        | some run => freeRun run s
        | none => s
      | none => s) s
    s.onReq slot (fun r => { r with table := r.table.take j, offered := min r.offered j, named := min r.named j })

/-- Take back the restore moves of a request that have not started. -/
def stopRestore (slot : Nat) (s : State) : State :=
  let mine := (movesOf slot s).filter (fun m => m.cls = .restore && !m.flying)
  each mine (fun m s => dropRef m.frame (onMoves (fun ms => ms.erase m) s)) s

/-- Every other member of the group has reported the request's restore (13 R344). -/
def State.backAll (s : State) (r : Req) : Bool :=
  !(s.grouped && r.model = s.teth.model)
    || (List.range s.teth.sizeM1.toNat).all (fun i => s.teth.backs.contains (r.handle, i + 1))

/-- Firmware hands a request that returns to the layout (05 R118, R122). -/
def offerBack (h : U32) (s : State) : State :=
  { s.onReqH h (fun r => { r with handSeq := s.seq }) with
    seq := s.seq + 1
    sow := { s.sow with returning := s.sow.returning ++ [h] } }

/-- A restore with no copy left offers the request to the layout (R205, 05 R124). -/
def restoreEnd (slot : Nat) (s : State) : State :=
  match s.req slot with
  | none => s
  | some r => match r.restore with
    | none => s
    | some x =>
      if x.running && x.left = [] && !x.done && s.backAll r then
        let s := offerBack r.handle (s.onReq slot (fun r => { r with restore := some { x with done := true } }))
        { s with teth := { s.teth with backs := s.teth.backs.filter (fun b => b.1 ≠ r.handle) } }
      else s

/-- The JOIN entry of a request (13 R341). -/
def joinOf (r : Req) (row : BitVec 13) (d : BitVec 3) : JoinE :=
  ⟨row, d, r.adm.holdOnEnd, r.model, r.handle, (match r.graft with | some (g, _) => g | none => 0),
    r.graft.isSome, (match r.graft with | some (_, v) => v | none => 0), r.adm.profile, r.stopMatch,
    BitVec.ofNat 24 (r.committed.getD 0), r.committed.isSome, BitVec.ofNat 24 r.newLeft, r.draw⟩

def coverOf (r : Req) (row : BitVec 13) : ManEntry := .cover row (BitVec.ofNat 24 (r.table.length * 128 - 1))

/-- A group's leader announces a restore in the next manifest: a JOIN whose COVER follows it. The request has no row yet; its
ROW is 0 (13 R341). -/
def tellRestore (r : Req) (s : State) : State :=
  if s.grouped && s.leader && r.model = s.teth.model then
    { s with teth := { s.teth with
      leaves := s.teth.leaves ++ [.join (joinOf r 0 0), coverOf r 0]
      coming := s.teth.coming + (coldPlots r).length } }
  else s

/-- The positions whose KV the request keeps: a table that covers fewer was cut by a restore that did not end (R206). -/
def Req.keptTo (r : Req) : Nat := if r.left = some .decode && !r.replay && !r.extendPending then r.committed.getD 0 else r.next

/-- Start a restore: the table back in the heap, the replay cut, frames reserved, copies queued (R205, R206). -/
def startRestore (slot : Nat) (s : State) : State :=
  match s.req slot with
  | none => s
  | some r =>
    let lost := ((List.range r.table.length).find? (fun j => match r.table[j]? with | some e => e.loc = 3 | none => false))
      <|> (if 128 * r.table.length < r.keptTo then some r.table.length else none)
    let s := match r.tableCold with
      | some run =>
        let block := blockBytes r.table.length
        let root := Config.tableAddr slot block
        putCopy egressCold (.table root false (s.runSpace run) (s.runAddr run) (r.table.length * 8))
          ((freeRun run s).onReq slot (fun r => { r with tableCold := none, tableRoot := root, tableBlock := block }))
      | none => s
    let s := match lost with | some j => cutTable slot j s | none => s
    match s.req slot with
    | none => s
    | some r =>
      let js := coldPlots r
      let s := each js (fun j s => match s.pickFrame r.model.toNat slot j with
        | some (p, _) => onMoves (fun ms => ms ++ [⟨slot, r.handle, j, .restore, false, p,
            (match r.table[j]? with | some e => coldRunOf s r e | none => none), false, s.kvBytes r.model.toNat, 0⟩]) (setRef p 1 s)
        | none => s) s
      restoreEnd slot (pumpMoves (tellRestore r (s.onReq slot (fun r => { r with restore := some ⟨true, js, lost, false⟩ }))))

/-- A plot of a follower's restore is back; the last one is reported in the next STATUS (13 R341, R344). -/
def mirrorBack (h : U32) (j : Nat) (s : State) : State :=
  match (s.mirror h).bind (fun m => m.restore) with
  | none => s
  | some l =>
    let l := l.erase j
    let s := onMirror h (fun m => { m with restore := if l = [] then none else some l }) s
    if l = [] then { s with teth := { s.teth with restored := s.teth.restored ++ [h] } } else s

/-- Start the restore of a mirrored row's copies (R205): a frame for each; a plot without a copy takes one without contents. -/
def mirrorRestore (h : U32) (s : State) : State :=
  match s.mirror h with
  | none => s
  | some m =>
    let s := onMirror h (fun m => { m with restore := some m.outPlots, waits := false }) s
    pumpMoves (each m.outPlots (fun j s => match s.pickFrame s.teth.model.toNat (hSlot h) j, m.table[j]? with
      | some (p, k), some e =>
        let s := setRef p 1 s
        (match coldRunAt s h s.teth.model.toNat e with
          | some run => onMoves (fun ms => ms ++ [⟨mirrorSlot h, h, j, .restore, false, p, some run, false, s.kvBytes s.teth.model.toNat, 0⟩]) s
          | none => mirrorBack h j (setEnt (mirrorSlot h) j (fun _ => ⟨p, k, 0, false, 0⟩) s))
      | _, _ => s) s)

/-- A follower's restore waits no longer (R205; 13 R341): frames enough, and no spill of the row under way. -/
def mirrorFree (s : State) (m : Mirror) : Bool :=
  (movesOf (mirrorSlot m.handle) s).isEmpty && decide (m.outPlots.length ≤ s.freeFrames s.teth.model.toNat)

/-- Start a follower's restores whose wait is over, in the order of their JOIN entries. -/
def mirrorRestores : Nat → State → State
  | 0, s => s
  | n + 1, s =>
    match (s.teth.mirrors.filter (fun m => m.waits)).find? (mirrorFree s) with
    | some m => mirrorRestores n (mirrorRestore m.handle s)
    | none => s

/-- A restored copy is in place: the entry names the frame, SEEDED 0, and the granules are free (R205). A COLD_FLUSH handled while the
copy was under way moves the plot out again (04 R106). A plot that was offered before its spill is not offered again (07 R193; DESIGN CHOICE,
log entry 62). -/
def restoreDone (m : Move) (s : State) : State :=
  let s := onMoves (fun ms => ms.erase m) s
  let s := progressNow s
  let s := match m.run with | some run => freeRun run (coldCharge m.handle run.tier m.bytes s) | none => s
  if m.dead then dropRef m.frame s
  else
    let b := match s.tab m.slot with | some r => (s.slot r.model).poolBase | none => 0
    let s := setEnt m.slot m.plot (fun _ => ⟨m.frame, (m.frame - b) % 12, 0, false, 0⟩) s
    if 2 ^ 20 ≤ m.slot then mirrorBack m.handle m.plot s else
    let s := if s.flushing m.handle && (s.req m.slot).any (fun r => r.state = .paused) then pumpMoves (queueSpill m.slot .flush s) else s
    restoreEnd m.slot (s.onReq m.slot (fun r => { r with restore := r.restore.map (fun x => { x with left := x.left.erase m.plot }) }))

/-- The restore of a request keeps the copies below plot `j` alone: a replay starts there (R206). -/
def restoreCut (slot j : Nat) (s : State) : State :=
  let late := (movesOf slot s).filter (fun x => x.cls = .restore && decide (j ≤ x.plot))
  let s := each late (fun x s => dropRef x.frame (onMoves (fun ms => ms.erase x) s)) s
  let s := cutTable slot j s
  restoreEnd slot (s.onReq slot (fun r => { r with restore := r.restore.map (fun x =>
    { x with left := x.left.filter (fun i => decide (i < j)), replay := some j }) }))

/-- A copy that cannot be read: a replay from the lowest such plot (R206). A follower keeps the frame without its contents and
answers the next roll call with INTACT clear (13 R351). -/
def restoreFail (m : Move) (s : State) : State :=
  if m.dead then
    let s := dropRef m.frame (onMoves (fun ms => ms.erase m) s)
    match m.run with | some run => freeRun run s | none => s
  else if 2 ^ 20 ≤ m.slot then
    let s := onMoves (fun ms => ms.erase m) { s with teth := { s.teth with intact := false } }
    let s := match m.run with | some run => freeRun run s | none => s
    let b := (s.slot s.teth.model.toNat).poolBase
    mirrorBack m.handle m.plot (setEnt m.slot m.plot (fun _ => ⟨m.frame, (m.frame - b) % 12, 0, false, 0⟩) s)
  else restoreCut m.slot m.plot s

/-- The copy of a plot table is refused or poisoned. One that was to leave stack memory stays there, as where neither tier has room (R202,
R203); without one that was to come back the restore finds no copy, and the request replays from its first position (R206). The
spec says neither of a table (DESIGN CHOICE, log entry 62). -/
def tableFail (h : U32) (back : Bool) (s : State) : State :=
  match s.reqH h with
  | none => s
  | some r =>
    if back then (match r.restore with
      | some x => if x.running && !x.done then restoreCut (hSlot h) 0 s else s
      | none => s)
    else match r.tableCold with
      | some run =>
        let block := blockBytes r.table.length
        (freeRun run s).onReqH h (fun r => { r with tableCold := none, tableRoot := Config.tableAddr (hSlot h) block, tableBlock := block })
      | none => s

/-- Start the restores whose wait is over, in the order of their RESUME, EXTEND or pre-emption (07 R205). -/
def startRestores : Nat → State → State
  | 0, s => s
  | n + 1, s =>
    let waiting := sortBy (fun (a b : Req) => decide (a.heldSeq < b.heldSeq))
      ((s.reqs.map (fun e => e.2)).filter (fun r => match r.restore with | some x => !x.running | none => false))
    match waiting.find? (fun r => restoreFree s (hSlot r.handle) r) with
    | some r => startRestores n (startRestore (hSlot r.handle) s)
    | none => s

def restores (s : State) : State := mirrorRestores s.teth.mirrors.length (startRestores s.reqs.length s)

end Sys2Proof.Machine
end

