-- ==== Sys2Proof/Machine/Seedbed.lean ====
section
/-! DEFINITION. The Seedbed walker (07 R185 to R199): keys and hashes, matches, offers, pins, eviction, the sweep and the
removal walks. -/

namespace Sys2Proof.Machine

/-! ### Hashes (R187) -/

def fnvBasis : Nat := 0xCBF29CE484222325
def fnvPrime : Nat := 0x100000001B3

/-- 64-bit FNV-1a continued over bytes. -/
def fnv (h : Nat) (bytes : List Nat) : Nat := bytes.foldl (fun h b => Nat.xor h b * fnvPrime % 2 ^ 64) h

/-- The little-endian bytes of token ids. -/
def tokBytes (l : List U32) : List Nat := l.flatMap (fun t => bytesLE 4 t.toNat)

/-- The 128 token ids of plot `i` of a token log. -/
def plotToks (log : List U32) (i : Nat) : List U32 := (log.drop (128 * i)).take 128

/-- Nodes in the store (R188). -/
def seedNodes : Nat := 4194304

/-- The window of a home slot: 16 slots, wrapping (R188). -/
def window (h : Nat) : List Nat := (List.range 16).map (fun i => (h + i) % seedNodes)

def onSeed (f : Seed → Seed) (s : State) : State := { s with seed := f s.seed }

/-- Place a node in the walker's cache, most recent first, 16 ways (R189). Besides a node that is written only those of a match enter it: what a probe, a sweep visit
or an offer's walk reads does not (DESIGN CHOICE, log entry 62). -/
def cacheTouch (n : Nat) (s : State) : State :=
  onSeed (fun d => { d with cache := mput (n % 4096) ((n :: ((mget (n % 4096) d.cache).getD []).erase n).take 16) d.cache }) s

/-- Write a node through to the store and the cache (R189). -/
def putNode (n : Nat) (x : Node) (s : State) : State :=
  cacheTouch n (onSeed (fun d => { d with nodes := mput n x d.nodes }) s)

/-- A node leaves the store; it is a candidate no more. The change goes through the cache like any other (R189). -/
def delNode (n : Nat) (s : State) : State :=
  cacheTouch n (onSeed (fun d => { d with nodes := mdel n d.nodes, cands := mdel n d.cands }) s)

/-- A node is evictable (R197). -/
def State.evictable (s : State) (n : Nat) : Bool :=
  match mget n s.seed.nodes with
  | some x => x.children = 0 && x.pins = 0 && s.refOf x.plot = 1
  | none => false

/-- A node that stops being evictable is no candidate until the sweep visits it again (R198). -/
def dropCands (s : State) : State := onSeed (fun d => { d with cands := d.cands.filter (fun e => s.evictable e.1) }) s

/-- STAMP: LCC [51:20] (R188). -/
def State.stamp (s : State) : U32 := BitVec.ofNat 32 (s.ctl.lcc.toNat / 2 ^ 20)

/-- The key of a request in a scope (R185). -/
def State.keyOf (s : State) (r : Req) (scope : Nat) : Key :=
  let t := hTenant r.handle
  ⟨r.model, BitVec.ofNat 8 scope, r.graft, if scope = 0 then BitVec.ofNat 5 t else 0x10,
   if scope = 0 then (s.ten t).epoch else 0⟩

/-- The Seedbed takes no part for the group's model (13 R334). -/
def State.seedOff (s : State) (r : Req) : Bool := s.grouped && r.model = s.teth.model

/-! ### Matching (R190, R191) -/

/-- Level i of a walk: the node that agrees in full, and the nodes of the window that agree in hash alone. -/
def probe (s : State) (key : Key) (h i : Nat) (parent : Option Nat) (toks : List U32) : Option Nat × Nat :=
  let same := (window (h % seedNodes)).filter (fun n => match mget n s.seed.nodes with
    | some x => x.hash.toNat = h
    | none => false)
  let full (n : Nat) : Bool := match mget n s.seed.nodes with
    | some x => x.depth = i && x.parent = parent && x.key = key && x.toks = toks
    | none => false
  (same.find? full, (same.filter (fun n => !full n)).length)

/-- Walk a scope for at most `n` further levels: the nodes matched and the collisions counted (R190). -/
def walk (s : State) (key : Key) (log : List U32) : Nat → Nat → Nat → Option Nat → List Nat × Nat
  | 0, _, _, _ => ([], 0)
  | n + 1, i, h, parent =>
    let toks := plotToks log i
    let h' := fnv h (tokBytes toks)
    match probe s key h' i parent toks with
    | (some x, c) =>
      let (l, c') := walk s key log n (i + 1) h' (some x)
      (x :: l, c + c')
    | (none, c) => ([], c)

/-- The scopes a tenant's request may see: private, then S0 to S3 (R190). -/
def State.scopesOf (s : State) (t : Nat) : List Nat :=
  let v := ((mget t s.seed.scopes).getD 0).toNat
  0 :: ([v % 256, v / 256 % 256, v / 65536 % 256, v / 16777216].filter (fun x => x ≠ 0))

/-- The chain of a request in a scope, up to `m` plots. -/
def chainIn (s : State) (r : Req) (scope m : Nat) : List Nat × Nat :=
  let key := s.keyOf r scope
  walk s key r.log m 0 (fnv fnvBasis key.bytes) none

/-- Raise the plots of a chain in order; a raise that finds 0 ends it (R191). The table entries are SEEDED. -/
def raiseChain (slot : Nat) : List Nat → State → State × Nat
  | [], s => (s, 0)
  | n :: rest, s =>
    match mget n s.seed.nodes with
    | none => (s, 0)
    | some x =>
      match growBlock slot (((s.req slot).map (fun r => r.table.length + 1)).getD 1) s with
      | none => (s, 0)
      | some s1 =>
        match raiseRef x.plot s1 with
        | none => (s, 0)
        | some s2 =>
          let s3 := s2.onReq slot (fun r => { r with table := r.table ++ [⟨x.plot, x.stack, 0, true, 0⟩] })
          let (s4, k) := raiseChain slot rest (putNode n { x with stamp := s.stamp } s3)
          (s4, k + 1)

/-- The match of R42 for the request in `slot`: m, with the chain raised. A level at which the token log is poisoned is a miss that ends the
walk (15 R387). -/
def seedMatch (slot : Nat) (s : State) : State × Nat :=
  match s.req slot with
  | none => (s, 0)
  | some r =>
    if r.adm.noMatch || s.seedOff r then (s, 0) else
      let m := (r.adm.promptLen.toNat - 1) / 128
      let m := match r.badLog with | some l => min m l | none => m
      let chains := (s.scopesOf (hTenant r.handle)).map (fun sc => chainIn s r sc m)
      let hits := (chains.map (fun c => c.2)).sum
      let best := chains.foldl (fun b c => if b.length < c.1.length then c.1 else b) []
      let s := onSeed (fun d => { d with collide := satAdd d.collide hits }) s
      let s := each (chains.flatMap (fun c => c.1)) cacheTouch s
      let a := raiseChain slot best s
      (dropCands a.1, a.2)

/-! ### Eviction (R197) -/

/-- Change the number of a node's children, written through the cache (R189). -/
def setChildren (p : Option Nat) (f : Nat → Nat) (s : State) : State :=
  match p with
  | some n => cacheTouch n (onSeed (fun d => { d with nodes := mupd n (fun x => { x with children := f x.children }) d.nodes }) s)
  | none => s

/-- One child fewer for a node. -/
def lessChild (p : Option Nat) (s : State) : State := setChildren p (fun c => c - 1) s

/-- Evict a node whose compare-and-swap from 1 to 0 succeeds. -/
def evictNode (n : Nat) (s : State) : State :=
  match mget n s.seed.nodes with
  | some x =>
    if s.evictable n then lessChild x.parent (delNode n (dropRef x.plot s)) else s
  | none => s

/-! ### Offers (R193 to R195) -/

/-- The evictable node of a window with the oldest STAMP. -/
def oldestEvictable (s : State) (w : List Nat) : Option Nat :=
  (w.filter s.evictable).foldl (fun b n => match b with
    | none => some n
    | some m => match mget n s.seed.nodes, mget m s.seed.nodes with
      | some x, some y => if x.stamp.toNat < y.stamp.toNat then some n else some m
      | _, _ => some m) none

/-- Hash of the chain through plot j: H_(j+1). -/
def chainHash (key : Key) (log : List U32) (j : Nat) : Nat :=
  (List.range (j + 1)).foldl (fun h i => fnv h (tokBytes (plotToks log i))) (fnv fnvBasis key.bytes)

/-- The node of plot j of a request's own tokens in a key, if any: the chain is followed from the root. -/
def nodeOf (s : State) (key : Key) (log : List U32) (j : Nat) : Option Nat :=
  let c := (walk s key log (j + 1) 0 (fnv fnvBasis key.bytes) none).1
  if c.length = j + 1 then c.getLast? else none

/-- The plot of a request that a new node names, with its stack: the one that its table lists in stack memory, else the one that the node
of its private chain names (R194, R196). -/
def State.plotToName (s : State) (r : Req) (j : Nat) : Option (Nat × Nat) :=
  match r.table[j]?.filter (fun e => e.loc = 0) with
  | some e => some (e.plot, e.stack)
  | none => ((nodeOf s (s.keyOf r 0) r.log j).bind (fun n => mget n s.seed.nodes)).map (fun x => (x.plot, x.stack))

/-- Insert a node for plot j in a key, its parent known: the first free slot of the window, else the slot of the
evictable node with the oldest STAMP, else refused and counted (R194, R195). -/
def insertNode (slot j : Nat) (key : Key) (parent : Option Nat) (s : State) : State × Option Nat :=
  match s.req slot with
  | none => (s, none)
  | some r => match s.plotToName r j with
    | none => (s, none)
    | some (plot, stack) =>
      let h := chainHash key r.log j
      let w := window (h % seedNodes)
      let place := match w.find? (fun n => !mhas n s.seed.nodes) with
        | some n => some n
        | none => oldestEvictable s w
      match place with
      | none => (onSeed (fun d => { d with full := satInc d.full }) s, none)
      | some n =>
        let s := evictNode n s
        match raiseRef plot s with
        | none => (s, none)
        | some s =>
          let x : Node := ⟨BitVec.ofNat 64 h, parent, j, plot, stack, key, s.stamp, 0, 0, plotToks r.log j⟩
          let s := dropCands (setChildren parent (fun c => c + 1) (putNode n x s))
          (setEnt slot j (fun e => { e with seeded := e.seeded || e.loc = 0 }) s, some n)

/-- Offer plot j of a row in its private scope (R193, R194). -/
def offer (slot j : Nat) (s : State) : State :=
  match s.req slot with
  | none => s
  | some r =>
    let key := s.keyOf r 0
    let parent := if j = 0 then some none else (nodeOf s key r.log (j - 1)).map some
    match parent with
    | none => s
    | some p =>
      match nodeOf s key r.log j with
      | some n => match mget n s.seed.nodes with
        | some x => putNode n { x with stamp := s.stamp } s
        | none => s
      | none => (insertNode slot j key p s).1

/-- The offers of a row at a seal: every full prompt plot written and not offered (R193). `written` positions have their
KV. -/
def offerAll (slot : Nat) (written : Nat) (s : State) : State :=
  match s.req slot with
  | none => s
  | some r =>
    if r.noOffer || s.seedOff r then s else
      let n := min ((r.promptEnd + 1) / 128) (min (written / 128) r.table.length)
      let s := each ((List.range n).filter (fun j => decide (r.offered ≤ j))) (fun j s => offer slot j s) s
      s.onReq slot (fun r => { r with offered := max r.offered n })

/-! ### Pins (R104, R105, R196) -/

/-- Raise or lower PINS of the nodes (R196). -/
def pinNodes (up : Bool) (ns : List Nat) (s : State) : State :=
  dropCands <| each ns (fun n s => match mget n s.seed.nodes with
    | some x => putNode n { x with pins := if up then satInc x.pins else if x.pins = 0xFFFF then x.pins else x.pins - 1 } s
    | none => s) s

/-- Publish the first `n` plots of a request into a shared scope: missing nodes are inserted (R196). -/
def publish (slot : Nat) (key : Key) : List Nat → Option Nat → State → State × List Nat
  | [], _, s => (s, [])
  | j :: js, parent, s =>
    match s.req slot with
    | none => (s, [])
    | some r =>
      match nodeOf s key r.log j with
      | some n => let (s, l) := publish slot key js (some n) s; (s, n :: l)
      | none => match insertNode slot j key parent s with
        | (s, some n) => let (s, l) := publish slot key js (some n) s; (s, n :: l)
        | (s, none) => (s, [])

/-! ### The sweep and removal walks (R198, R199) -/

/-- Keep at most 4,096 candidates of a model slot, those with the oldest STAMP. -/
def keepCands (m : Nat) (l : List (Nat × (Nat × U32))) : List (Nat × (Nat × U32)) :=
  let mine := l.filter (fun e => e.2.1 = m)
  if mine.length ≤ 4096 then l else
    let newest := mine.foldl (fun b e => if b.2.2.toNat ≤ e.2.2.toNat then e else b) (mine.getD 0 (0, (0, 0)))
    l.filter (fun e => e.1 ≠ newest.1)

/-- The key names a tenant epoch other than the tenant's current one (R198). -/
def State.staleKey (s : State) (k : Key) : Bool := k.scope = 0 && k.epoch ≠ (s.ten k.tenant.toNat).epoch

/-- The sweep visits a node (R198). -/
def sweepNode (n : Nat) (s : State) : State :=
  match mget n s.seed.nodes with
  | none => s
  | some x =>
    if s.evictable n then
      if s.staleKey x.key then evictNode n s
      else onSeed (fun d => { d with cands := keepCands x.key.model.toNat (mput n (x.key.model.toNat, x.stamp) d.cands) }) s
    else s

/-- SEEDBED_SWEEP: the next node in ascending number, wrapping at the end (R198). -/
def sweepStep (s : State) : State :=
  let keys := s.seed.nodes.map (fun e => e.1)
  match (match keys.find? (fun n => decide (s.seed.sweep ≤ n)) with | some n => some n | none => keys.head?) with
  | some n => sweepNode n (onSeed (fun d => { d with sweep := (n + 1) % seedNodes }) s)
  | none => s

/-- Remove nodes, pinned or not: each drops its plot's reference; pins that cover one are released (R199). -/
def removeNodes (pick : Node → Bool) (s : State) : State :=
  let gone := s.seed.nodes.filter (fun e => pick e.2)
  let nums := gone.map (fun e => e.1)
  let s := each (List.range 17) (fun t s =>
    let hit := (s.ten t).pins.filter (fun p => p.nodes.any (fun n => nums.contains n))
    let s := each hit (fun p s => pinNodes false (p.nodes.filter (fun n => !nums.contains n)) s) s
    s.onTen t (fun x => { x with pins := x.pins.filter (fun p => !p.nodes.any (fun n => nums.contains n)) })) s
  each gone (fun e s => lessChild e.2.parent (delNode e.1 (dropRef e.2.plot s))) s

end Sys2Proof.Machine
end

