-- ==== Sys2Proof/Machine/Dispatcher.lean ====
section
/-! DEFINITION. The dispatcher (06 R140 to R172): beds and contexts, the work-item table, gates, flows, ready lists, placement,
pre-emption, epochs, switches and teardowns. -/

namespace Sys2Proof.Machine

def onDisp (f : Disp → Disp) (s : State) : State := { s with disp := f s.disp }

def State.bed (s : State) (b : Nat) : Bed := s.disp.beds.getD b {}

def onBed (b : Nat) (f : Bed → Bed) (s : State) : State := onDisp (fun d => { d with beds := lupd b f d.beds }) s

def onCtx (b c : Nat) (f : Ctx → Ctx) (s : State) : State := onBed b (fun x => { x with ctxs := lupd c f x.ctxs }) s

def State.ctx (s : State) (b c : Nat) : Ctx := (s.bed b).ctxs.getD c {}

def State.core (s : State) (c : Nat) : Option Core := mget c s.disp.cores

def onCore (c : Nat) (f : Core → Core) (s : State) : State := onDisp (fun d => { d with cores := mupd c f d.cores }) s

def State.item (s : State) (i : Nat) : Option Item := s.disp.items.find? (fun x => x.idx = i)

def onItem (i : Nat) (f : Item → Item) (s : State) : State :=
  onDisp (fun d => { d with items := d.items.map (fun x => if x.idx = i then f x else x) }) s

def dropItem (i : Nat) (s : State) : State := onDisp (fun d => { d with items := d.items.filter (fun x => x.idx ≠ i) }) s

/-- The request that holds a Trellis row. -/
def State.rowReq (s : State) (row : BitVec 13) : Option Req :=
  (s.reqs.find? (fun e => e.2.row = some row)).map (fun e => e.2)

/-- The mirrored row of a follower (13 R334). -/
def State.rowMirror (s : State) (row : BitVec 13) : Option Mirror := s.teth.mirrors.find? (fun m => m.row = some row)

/-- The handle, the chunk and the flow of a row, the Trellis' own or a mirrored one. -/
def State.rowHandle (s : State) (row : BitVec 13) : Option U32 :=
  match s.rowReq row with | some r => some r.handle | none => (s.rowMirror row).map (fun m => m.handle)

def State.rowChunk (s : State) (row : BitVec 13) : Option Chunk :=
  match s.rowReq row with | some r => r.chunk | none => (s.rowMirror row).bind (fun m => m.chunk)

def State.rowFlow (s : State) (row : BitVec 13) : Option (BitVec 12) :=
  match s.rowReq row with | some r => r.flow | none => (s.rowMirror row).bind (fun m => m.flow)

/-! ### Residence (R141, R142) -/

/-- Scratchpad allocation in KiB of a model slot (R141, 08 R211). -/
def State.allocKiB (s : State) (m : Nat) : Nat := match s.desc m with | some d => 32 * d.scratch.toNat | none => 0

def State.stagingKiB (s : State) (m : Nat) : Nat := match s.desc m with | some d => d.staging.toNat | none => 0

/-- A context holds its allocation and staging share: it is resident, is being reloaded, or comes in by a switch under way. -/
def State.holdsRoom (s : State) (b c : Nat) : Bool :=
  (s.ctx b c).resident || (s.ctx b c).tearing || (match (s.bed b).sw with | some w => w.inc = c | none => false)

/-- KiB per core that a bed's contexts take, but for those in `less`. -/
def State.bedAlloc (s : State) (b : Nat) (less : List Nat) : Nat :=
  ((List.range 4).map (fun c =>
    match (s.ctx b c).model with
    | some m => if s.holdsRoom b c && !less.contains c then s.allocKiB m.toNat else 0
    | none => 0)).sum

/-- Staging KiB that the contexts of all beds take, but for contexts `less` of bed `b`. -/
def State.staged (s : State) (b : Nat) (less : List Nat) : Nat :=
  ((List.range 32).map (fun i => ((List.range 4).map (fun c =>
    match (s.ctx i c).model with
    | some m => if s.holdsRoom i c && !(i = b && less.contains c) then s.stagingKiB m.toNat else 0
    | none => 0)).sum)).sum

/-- A context fits beside the residents once `less` have gone (R142). -/
def State.fits (s : State) (b : Nat) (less : List Nat) (m : Nat) : Bool :=
  s.bedAlloc b less + s.allocKiB m ≤ 384 && s.staged b less + s.stagingKiB m ≤ 98304

/-- A model whose slot may serve contexts (08 R210): a LOADING slot's context waits. -/
def State.slotUp (s : State) (m : Nat) : Bool := (s.slot m).state = .resident || (s.slot m).state = .tainted

/-- Bring the contexts of a bed that `pick` names resident, in context order, while they fit (16 R405, 08 R210). A context that a
switch evicted comes back by the swap rule alone (R142). -/
def bringIn (pick : Nat → Bool) (b : Nat) (s : State) : State :=
  each ((List.range 4).filter pick) (fun c s => match (s.ctx b c).model with
    | some m => if !(s.ctx b c).resident && !(s.ctx b c).tearing && s.slotUp m.toNat && (s.bed b).sw.isNone && s.fits b [] m.toNat
        then onCtx b c (fun x => { x with resident := true }) s else s
    | none => s) s

/-! ### Ready lists and placement (R148 to R151, R154, R155) -/

/-- Class order of the ready list (R149). -/
def Item.rank (i : Item) : Nat :=
  match i.cls with
  | .cyclic => 0 | .decode => 1 | .select => 2 | .prefill => if i.bound then 3 else 4 | .swap => 5

/-- The gate has counted what the item waits for (R148). -/
def State.gateOpen (s : State) (i : Item) : Bool :=
  i.deps = 0 || i.deps.toNat ≤ ((mget i.waitGate s.disp.gates).getD 0).toNat

/-- Items that wait and whose gate is open become ready. The table holds 65,536 items; the Sower holds back the rest until
entries free (R145, R147). -/
def wakeItems (s : State) : State :=
  onDisp (fun d => { d with items := (d.items.take 65536).map (fun i =>
    if i.state = .waiting && s.gateOpen i then { i with state := .ready } else i) ++ d.items.drop 65536 }) s

/-- Projection work of a wave waits until the wave before is finalised (09 R242). -/
def State.rowsHeld (s : State) (rows : List (BitVec 13)) : Bool :=
  rows.any (fun r => match s.prn.rows.find? (fun p => p.row = r) with
    | some p => s.prn.rows.any (fun q => decide (q.wave < p.wave) && q.state = .opened)
    | none => false)

/-- The Sower holds a `SELECT` item of the core stream (09 R242). -/
def State.waveHeld (s : State) (i : Item) : Bool := i.cls = .select && s.rowsHeld i.rows

/-- The Sower holds a projection item of the stack stream (09 R242). -/
def State.stackHeld (s : State) (i : StackItem) : Bool := i.proj && s.rowsHeld i.rows

/-- Issue the stack-stream items that no wave holds back (05 R126, 09 R242). -/
def issueStack (s : State) : State :=
  match s.sow.exec with
  | none => s
  | some x =>
    let go (i : StackItem) : Bool := !i.issued && !s.stackHeld i
    { s with
      sow := { s.sow with exec := some { x with stack := x.stack.map (fun i => if go i then { i with issued := true, at_ := s.ctl.lcc } else i) } }
      out := { s.out with stackWork := s.out.stackWork ++ (x.stack.filter go).map (fun i => (i.stack, i.rows)) } }

def before (a b : Item) : Bool := decide (a.rank < b.rank) || (decide (a.rank = b.rank) && decide (a.idx < b.idx))

/-- A ready item, in the ready list or parked (R149, R155), that the Sower does not hold back. -/
def State.isReady (s : State) (i : Item) : Bool :=
  (match i.state with | .ready | .parked _ => true | _ => false) && !s.waveHeld i

/-- The bed's ready list: ready items of its resident contexts, in order (R149). -/
def State.readyList (s : State) (b : Nat) : List Item :=
  sortBy before (s.disp.items.filter (fun i => i.bed = b && i.state = .ready && (s.ctx b i.ctx).resident && !s.waveHeld i))

/-- Items parked on a core, in the order of the ready list. -/
def State.parkedAll (s : State) (c : Nat) : List Item :=
  sortBy before (s.disp.items.filter (fun i => i.state = .parked c))

/-- The parked item of a resident context that resumes on the core (R155). -/
def State.parkedOn (s : State) (c : Nat) : Option Item := (s.parkedAll c).find? (fun x => (s.ctx x.bed x.ctx).resident)

/-- A core of the bed that runs nothing and awaits nothing; it may hold a parked item (R150, R151). -/
def State.coreIdle (s : State) (b c : Nat) : Bool :=
  match s.core c with
  | some k => k.bed = b && k.running.isNone && !k.joining && !k.leaving && !s.wdog.fenced.contains c
      && !s.disp.await.any (fun a => a.1 = c)
  | none => false

def State.idleCore (s : State) (b : Nat) (aff : Option (BitVec 10)) : Option Nat :=
  match aff with
  | some a => if s.coreIdle b a.toNat then some a.toNat
    else (s.disp.cores.find? (fun e => s.coreIdle b e.1)).map (fun e => e.1)
  | none => (s.disp.cores.find? (fun e => s.coreIdle b e.1)).map (fun e => e.1)

/-- Place an item: it awaits delivery (R152). -/
def placeItem (i c : Nat) (s : State) : State :=
  onDisp (fun d => { d with await := d.await ++ [(c, i)] }) (onItem i (fun x => { x with state := .placed c }) s)

/-- A pre-emption and the park to come (R172); `waiting` is the item that waits, if one does. -/
def tracePreempt (i c : Nat) (waiting : Option Nat) (s : State) : State := trace 1 0 0 none 0 i c (waiting.getD 0) s

/-- Pre-empt a core at its next tile boundary. -/
def flagCore (c : Nat) (waiting : Option Nat) (s : State) : State :=
  match (s.core c).bind (fun k => k.running) with
  | some i => tracePreempt i c waiting (onCore c (fun k => { k with flagged := true }) s)
  | none => s

/-- The ready items and the parked items of a bed's resident contexts: by class, the parked ones at the head of theirs (R149, R155). -/
def State.placeList (s : State) (b : Nat) : List Item :=
  let parked (i : Item) : Bool := match i.state with | .parked _ => true | _ => false
  sortBy (fun x y => decide (x.rank < y.rank) || (decide (x.rank = y.rank) && ((parked x && !parked y) || (parked x = parked y && decide (x.idx < y.idx)))))
    (s.disp.items.filter (fun i => i.bed = b && s.isReady i && (s.ctx b i.ctx).resident))

/-- Place the items that are ready on idle cores, a parked item on its own core alone (R150, R151, R155). -/
def placeReady (b : Nat) (s : State) : State :=
  each (s.placeList b) (fun i s => match i.state with
    | .parked c => if s.coreIdle b c then placeItem i.idx c s else s
    | _ => match s.idleCore b i.affinity with
      | some c => placeItem i.idx c s
      | none => s) s

/-- The next item of a core that frees (R151). -/
def chooseFor (b c : Nat) (s : State) : Option Nat :=
  let l := s.readyList b
  let head := l.head?
  let parked := s.parkedOn c
  let keep := match parked, head with
    | some p, some h => !decide (h.rank < p.rank)
    | some _, none => true
    | none, _ => false
  if keep then parked.map (fun p => p.idx) else
    match head with
    | none => none
    | some h => match ((l.filter (fun i => i.rank = h.rank)).take 32).find? (fun i => i.affinity = some (BitVec.ofNat 10 c)) with
      | some i => some i.idx
      | none => some h.idx

/-- A core frees: its parked item or another item is placed on it (R151, R152, R155). Items whose gate has just opened stand in the
ready list. -/
def coreFree (c : Nat) (s : State) : State :=
  let s := wakeItems (onCore c (fun k => { k with running := none, flagged := false, orphan := none }) s)
  match s.core c with
  | none => s
  | some k =>
    if k.leaving || k.joining || s.wdog.fenced.contains c then s else
    match chooseFor k.bed c s with
    | none => s
    | some i => placeItem i c s

/-- A core that runs a carried prefill item of a resident context: the one that R154 pre-empts, and its item. -/
def State.carriedOn (s : State) (b : Nat) (e : Nat × Core) : Option (Nat × Nat) :=
  match e.2.running.bind s.item with
  | some x => if e.2.bed = b && !e.2.leaving && x.rank = 4 && (s.ctx b x.ctx).resident then some (e.1, x.idx) else none
  | none => none

/-- Pre-empt carried prefill for waiting items of a higher class (R154): one core for each, the core whose item was
submitted last among those that hold no parked item. -/
def preempt (b : Nat) (s : State) : State :=
  let flagged := (s.disp.cores.filter (fun e => e.2.flagged && (s.carriedOn b e).isSome)).length
  each (((s.readyList b).filter (fun i => i.rank ≤ 3)).drop flagged) (fun w s =>
    let can := (s.disp.cores.filter (fun e => !e.2.flagged && (s.parkedAll e.1).isEmpty)).filterMap (s.carriedOn b)
    match can.foldl (fun (m : Option (Nat × Nat)) e => match m with
      | none => some e
      | some y => if y.2 < e.2 then some e else some y) none with
    | some (c, _) => flagCore c (some w.idx) s
    | none => s) s

/-- A ready item of a context, bound or carried. A parked item is ready on its own core (R155). -/
def State.readyIn (s : State) (b c : Nat) (bound : Bool) : Bool :=
  s.disp.items.any (fun i => i.bed = b && i.ctx = c && i.bound = bound && s.isReady i)

/-- The oldest ready item of a context, by submission (R164). -/
def State.oldestReady (s : State) (b c : Nat) : Option Item :=
  (sortBy (fun (x y : Item) => decide (x.idx < y.idx)) (s.disp.items.filter (fun i => i.bed = b && i.ctx = c && s.isReady i))).head?

/-- Since when each context has held ready carried work without a break: the number of the first step sealed since (R164). -/
def holdCarried (new : Option Nat) (s : State) : State :=
  onDisp (fun d => { d with beds := d.beds.mapIdx (fun b x => { x with ctxs := x.ctxs.mapIdx (fun c y =>
    { y with carriedSince := if s.readyIn b c false then y.carriedSince <|> new else none }) }) }) s

/-! ### Charges (11 R287) -/

/-- Positions a row contributes to the executing step: a chunk's, or 1 + d. -/
def State.rowPositions (s : State) (prefill : Bool) (row : BitVec 13) : Nat :=
  let depth := match s.rowReq row with | some r => r.depth | none => ((s.rowMirror row).map (fun m => m.depth)).getD 0
  if (s.rowHandle row).isNone then 0
  else if prefill then (match s.rowChunk row with | some c => c.len | none => 1) else 1 + depth

/-- Split `n` over rows in proportion to their positions, each share rounded down, the remainder to the first (R290). -/
def splitBy (ws : List Nat) (n : Nat) : List Nat :=
  let t := ws.sum
  if t = 0 then (match ws with | [] => [] | _ :: r => n :: r.map (fun _ => 0))
  else match ws.map (fun w => n * w / t) with
    | [] => []
    | a :: r => (a + (n - (a :: r).sum)) :: r

/-- Charge rows of the executing step, each with its positions (posted at the seal, R289). -/
def chargeRows (rows : List (BitVec 13 × Nat)) (ns : Nat) (mk : Nat → Ledg) (s : State) : State :=
  let shares := splitBy (rows.map (fun e => e.2)) ns
  let add := (rows.zip shares).filterMap (fun e => (s.rowHandle e.1.1).map (fun h => (h, mk e.2)))
  { s with led := { s.led with cur := s.led.cur ++ add } }

/-- Charge the rows that an item serves. -/
def chargeStep (prefill : Bool) (rows : List (BitVec 13)) (ns : Nat) (mk : Nat → Ledg) (s : State) : State :=
  chargeRows (rows.map (fun row => (row, s.rowPositions prefill row))) ns mk s

/-- Core-busy cycles at 850 MHz in ns (R287). -/
def coreNs (cycles : Nat) : Nat := cycles * 20 / 17

/-! ### Release (R153, R158, R159) -/

def classPrefill : WClass → Bool
  | .prefill => true
  | _ => false

/-- Release one complete item: gate, counts, charges, history, progress; its entry is freed. -/
def releaseItem (i : Item) (core busy : Nat) (s : State) : State :=
  let s := dropItem i.idx s
  let s := trace 2 0 0 none 0 i.idx busy ((i.flow.getD 0).toNat + i.seq.toNat * 4096) s
  let s := match i.sigGate with
    | some g => onDisp (fun d => { d with gates := mupd g (fun n => n + 1) d.gates }) s
    | none => s
  let s := onBed i.bed (fun b => { b with rel := b.rel + 1 }) s
  let s := onCtx i.bed i.ctx (fun c => { c with lastRel := (s.bed i.bed).rel }) s
  let s := chargeStep (classPrefill i.cls) i.rows (coreNs busy) (fun n => { coreNs := BitVec.ofNat 64 n }) s
  let s := match i.flow with
    | some f => onDisp (fun d => { d with flows := mupd f.toNat (fun x => { x with next := x.next + 1, count := x.count - 1 }) d.flows }) s
    | none => s
  let aff := if classPrefill i.cls then i.rows.filterMap (fun r => (s.rowReq r).map (fun q => (q.handle, core))) else []
  progressNow { s with
    sow := { s.sow with
      histNow := ((i.kernel.toNat, i.part, i.bed * 4 + i.ctx), core) :: s.sow.histNow
      affNow := aff ++ s.sow.affNow } }

/-- Release every complete item whose turn in its flow has come; `n` bounds them. -/
def releaseAll : Nat → State → State
  | 0, s => s
  | n + 1, s =>
    match s.disp.items.find? (fun i => match i.state with
      | .complete _ _ => (match i.flow with
        | some f => (mget f.toNat s.disp.flows).any (fun x => x.next = i.seq)
        | none => true)
      | _ => false) with
    | some i => match i.state with
      | .complete c b => releaseAll n (releaseItem i c b s)
      | _ => s
    | none => s

/-! ### STALE and epochs (R160 to R163) -/

/-- `a` is no older than `b`, modulo 65,536 in a window of 32,768 (R161). -/
def noOlder (a b : U16) : Bool := (a - b).toNat < 32768

/-- The core accepts the item (R161). -/
def State.accepts (s : State) (c : Nat) (i : Item) : Bool :=
  match s.core c with
  | some k => k.bed = i.bed && !k.leaving && !k.joining && !s.wdog.fenced.contains c && noOlder i.epoch k.join
      && noOlder i.epoch (s.ctx i.bed i.ctx).epoch
  | none => false

/-- The Sower issues a returned item again (R162); the rejection or return is a STALE event of the trace. What the item waited for
has been counted, so it is ready. -/
def reissue (i : Nat) (s : State) : State :=
  match s.item i with
  | some x =>
    let core := match x.state with | .placed c | .running c | .parked c => c | _ => 0
    let s := trace 3 0 0 none 0 i core (x.epoch.toNat + (s.bed x.bed).epoch.toNat * 65536) s
    onItem i (fun y => { y with epoch := (s.bed x.bed).epoch, affinity := none, state := .ready }) s
  | none => s

/-- A core leaves an item that a teardown removed. With the last of them the teardown of its request context has ended
(R170, R172). -/
def orphanGone (c : Nat) (s : State) : State :=
  match (s.core c).bind (fun k => k.orphan) with
  | none => s
  | some o =>
    let s := onCore c (fun k => { k with orphan := none }) s
    match o.torn with
    | some h =>
      if s.disp.cores.any (fun e => match e.2.orphan with | some p => p.torn = some h | none => false) then s
      else trace 5 0 0 (some (hTenant h)) h.toNat ((o.row.getD 0).toNat + 131072) 0 o.bed s
    | none => s

/-- A core leaves its bed: its running, parked and awaiting items return (R163, 15 R380). -/
def returnItems (c : Nat) (s : State) : State :=
  match s.core c with
  | none => s
  | some k =>
    let s := orphanGone c s
    let own := k.running.toList ++ (s.parkedAll c).map (fun x => x.idx) ++ (s.disp.await.filter (fun a => a.1 = c)).map (fun a => a.2)
    let s := each own reissue s
    onDisp (fun d => { d with await := d.await.filter (fun a => a.1 ≠ c) })
      (onCore c (fun k => { k with running := none, flagged := false, orphan := none }) s)

/-! ### Removals and teardowns (R169 to R171) -/

/-- What is kept of a removed item that a core still runs. -/
def Item.orphan (i : Item) : Orphan := { row := match i.rows with | [r] => some r | _ => none, bed := i.bed, ctx := i.ctx }

/-- Take items out of the table; their flows are freed and awaiting placements forgotten. A core keeps running a removed
item until its tile boundary. -/
def removeItems (pick : Item → Bool) (s : State) : State :=
  let gone := s.disp.items.filter pick
  let nums := gone.map (fun i => i.idx)
  let left (k : Core) : Option Item := k.running.bind (fun i => gone.find? (fun x => x.idx = i))
  let flows := gone.filterMap (fun i => i.flow.map (fun f => f.toNat))
  onDisp (fun d => { d with
    items := d.items.filter (fun i => !pick i)
    await := d.await.filter (fun a => !nums.contains a.2)
    flows := d.flows.filter (fun e => !flows.contains e.1)
    cores := d.cores.map (fun e => match left e.2 with
      | some i => (e.1, { e.2 with flagged := true, orphan := some i.orphan })
      | none => e) }) s

/-- The row without its chunk: positions of a carried chunk that only waited for its projection count as unprocessed again (05
R112). -/
def Req.noChunk (r : Req) : Req :=
  let undo : Bool := !r.replay && (match r.chunk with | some c => !c.bound && c.layers && c.ends | none => false)
  { r with
    chunk := none
    flow := none
    committed := if undo then (if r.next = 0 then none else some (r.next - 1)) else r.committed }

/-- The chunk items of a row leave, and its flow is free. -/
def dropRowItems (row : BitVec 13) (flow : Option (BitVec 12)) (s : State) : State :=
  let s := removeItems (fun i => i.cls = .prefill && i.rows = [row]) s
  match flow with
  | some f => onDisp (fun d => { d with flows := mdel f.toNat d.flows }) s
  | none => s

/-- Drop a row's chunk: its items leave, its flow is free, its positions count as unprocessed (08 R227). -/
def dropChunk (h : U32) (s : State) : State :=
  match s.reqH h with
  | none => match s.mirror h with
    | some m => match m.row with
      | some row => onMirror h (fun m => { m with chunk := none, flow := none }) (dropRowItems row m.flow s)
      | none => s
    | none => s
  | some r => match r.row with
    | none => s.onReqH h Req.noChunk
    | some row => (dropRowItems row r.flow s).onReqH h Req.noChunk

/-- Teardown of a bed context (R171). Its rows' step is discarded and they end FAULT by the caller. Where the context's epoch would pass the
bed's, the bed's rises with it (DESIGN CHOICE, log entry 62). -/
def teardownCtx (b c : Nat) (s : State) : State :=
  let n := (s.disp.items.filter (fun i => i.bed = b && i.ctx = c)).length
  let s := trace 5 0 0 none 0 (c + 65536) n b s
  let e := (s.ctx b c).epoch + 1
  let s := onCtx b c (fun x => { x with epoch := e, tearing := true, resident := false }) s
  let s := onBed b (fun x => { x with
    epoch := if noOlder x.epoch e then x.epoch else e
    sw := x.sw.bind (fun w => if w.inc = c then none else some { w with out := w.out.erase c }) }) s
  removeItems (fun i => i.bed = b && i.ctx = c) s

/-- Handles of the rows of a bed context, the mirrored ones of a follower among them (13 R334). -/
def State.ctxRows (s : State) (b c : Nat) : List U32 :=
  match (s.ctx b c).model with
  | some m => (s.reqs.filter (fun e => e.2.row.isSome && e.2.bed.toNat = b && e.2.model = m)).map (fun e => e.2.handle)
      ++ (s.teth.mirrors.filter (fun x => x.row.isSome && x.bed.toNat = b && s.teth.model = m)).map (fun x => x.handle)
  | none => []

/-! ### Switching contexts (R164 to R167) -/

/-- A context has step work: a ready or running bound item. -/
def State.stepWork (s : State) (b c : Nat) : Bool :=
  s.disp.items.any (fun i => i.bed = b && i.ctx = c && i.bound && (match i.state with
    | .placed _ | .running _ => true
    | _ => s.isReady i))

/-- The context that R164 would bring in: among the candidates of a case, the one whose oldest ready item ranks first. -/
def switchIn (s : State) (b : Nat) : Option Nat :=
  if (List.range 4).any (fun c => (s.ctx b c).resident && s.stepWork b c) then none else
    let outs := (List.range 4).filter (fun c => (s.ctx b c).model.isSome && !(s.ctx b c).resident && !(s.ctx b c).tearing
      && (match (s.ctx b c).model with | some m => s.slotUp m.toNat | none => false))
    let pick (bound : Bool) (l : List Nat) : Option Nat :=
      ((l.filter (fun c => s.readyIn b c bound)).filterMap (fun c => (s.oldestReady b c).map (fun i => (c, i)))).foldl (fun (m : Option (Nat × Item)) e => match m with
        | none => some e
        | some y => if before e.2 y.2 then some e else some y) none |>.map (fun e => e.1)
    match pick true outs with
    | some c => some c
    | none => pick false (outs.filter (fun c => match (s.ctx b c).carriedSince with
      | some k => decide (k < s.sow.step.toNat)
      | none => false))

/-- The contexts evicted, least recently useful first, until the incoming one fits (R165). -/
def switchOut (s : State) (b m : Nat) : List Nat → List Nat → List Nat
  | [], acc => acc
  | c :: rest, acc => if s.fits b acc m then acc else switchOut s b m rest (acc ++ [c])

/-- Cores of a bed. -/
def State.bedCores (s : State) (b : Nat) : List Nat := (s.disp.cores.filter (fun e => e.2.bed = b && !e.2.leaving)).map (fun e => e.1)

/-- A SWAP item for each core of the bed, which saves a context or restores one (R146, R166). -/
def swapItems (b : Nat) (mk : InboxItem) (s : State) : State :=
  { s with out := { s.out with inbox := s.out.inbox ++ (s.bedCores b).map (fun c => ⟨c, mk⟩) } }

/-- The restore begins: every core reads the incoming context's ranges and tiles (R166). -/
def startRestoring (b : Nat) (s : State) : State :=
  match (s.bed b).sw with
  | some w => swapItems b (.restore b w.inc) (onBed b (fun x => { x with sw := some { w with phase := .restore, swaps := s.bedCores b } }) s)
  | none => s

/-- The drain has ended: the saves begin, or without an eviction the restores, and every stack engine reloads the incoming
context's staging share (R165, R166). -/
def drained (b : Nat) (s : State) : State :=
  match (s.bed b).sw with
  | none => s
  | some w =>
    let s := onBed b (fun x => { x with sw := some { w with phase := .save, swaps := s.bedCores b, staging := List.range 12 } }) s
    if w.out = [] then startRestoring b s else each w.out (fun c s => swapItems b (.save b c) s) s

/-- The drain ends when no core runs, and none is about to run, an outgoing item; a core still runs an item that a teardown removed
(R166, R171). -/
def drainCheck (b : Nat) (s : State) : State :=
  match (s.bed b).sw with
  | some w =>
    if w.phase = .drain && !s.disp.items.any (fun i => i.bed = b && w.out.contains i.ctx && (match i.state with
      | .running _ | .placed _ => true | _ => false))
      && !s.disp.cores.any (fun e => e.2.orphan.any (fun o => o.bed = b && w.out.contains o.ctx)) then drained b s
    else s
  | none => s

/-- After an event: drains, ready items, placements and pre-emptions of every bed. -/
def schedule (s : State) : State :=
  let s := wakeItems (each (List.range 32) drainCheck s)
  let bs := (List.range 32).filter (fun b => s.disp.items.any (fun i => i.bed = b))
  holdCarried none (each bs (fun b s => preempt b (placeReady b s)) s)

/-- Start a switch (R164 to R166). The resident contexts go least recently useful first; of two that have released nothing the lower
index goes first (DESIGN CHOICE, log entry 62). -/
def switchStart (b : Nat) (s : State) : State :=
  match (s.bed b).sw, switchIn s b with
  | none, some c =>
    match (s.ctx b c).model with
    | none => s
    | some m =>
      let res := sortBy (fun x y => decide ((s.ctx b x).lastRel < (s.ctx b y).lastRel))
        ((List.range 4).filter (fun k => (s.ctx b k).resident))
      let out := switchOut s b m.toNat res []
      if !s.fits b out m.toNat then s else
        let s := trace 4 0 0 none 0 b ((out.map (fun k => 2 ^ k)).sum) c s
        let s := each out (fun k s => onCtx b k (fun x => { x with resident := false }) s) s
        let hit := (s.disp.cores.filter (fun e => e.2.bed = b && !e.2.leaving && (match e.2.running.bind s.item with
          | some x => out.contains x.ctx
          | none => false))).map (fun e => e.1)
        let s := each hit (fun k s => flagCore k none s) s
        drainCheck b (onBed b (fun x => { x with sw := some { out := out, inc := c, phase := .drain } }) s)
  | _, _ => s

/-- Re-arm: the incoming context is resident (R166). -/
def rearm (b : Nat) (s : State) : State :=
  match (s.bed b).sw with
  | some w =>
    let s := trace 4 0 0 none 0 (b + 256) ((w.out.map (fun k => 2 ^ k)).sum) w.inc s
    schedule (onCtx b w.inc (fun x => { x with resident := true }) (onBed b (fun x => { x with sw := none }) s))
  | none => s

/-! ### Bed configuration (R140, R143, R160, R163) -/

/-- A leaving core's items have left: it joins its next bed, if any (R163). -/
def coreLeft (c : Nat) (s : State) : State :=
  match s.core c with
  | none => s
  | some k =>
    let s := onDisp (fun d => { d with cores := mdel c d.cores }) (returnItems c s)
    match k.next with
    | some b =>
      let k' : Core := { bed := b, join := (s.bed b).epoch, joining := (s.bed b).ctxs.any (fun x => x.resident) }
      onDisp (fun d => { d with cores := mput c k' d.cores }) s
    | none => s

/-- A core leaves its bed: at its next tile boundary where it runs an item, at once otherwise (R163). -/
def leaveBed (c : Nat) (s : State) : State :=
  match s.core c with
  | none => s
  | some k =>
    if k.running.isSome then
      flagCore c none (onCore c (fun k => { k with leaving := true }) (each ((s.parkedAll c).map (fun x => x.idx)) reissue s))
    else coreLeft c s

/-- Apply a BED_CONFIG at a composition. The epoch rises with the first of a bed that the composition applies (R160). A core that
is still leaving the bed joins it anew once its items have left. A context that keeps its model slot keeps its epoch (DESIGN CHOICE, log
entry 62). -/
def applyBed (first : Bool) (f : BedF) (s : State) : State :=
  let b := f.bed.toNat
  let old := s.bed b
  let e := if first then old.epoch + 1 else old.epoch
  let inNew (c : Nat) : Bool := f.firstCore.toNat ≤ c && c < f.firstCore.toNat + f.cores.toNat
  let model (c : Nat) : Option (BitVec 5) := if f.ctxValid.getLsbD c && f.cores ≠ 0 then some (f.ctxModel.getD c 0) else none
  let new (c : Nat) : Bool := (s.ctx b c).model ≠ model c
  let leaving := (s.disp.cores.filter (fun x => x.2.bed = b && !x.2.leaving && !inNew x.1)).map (fun x => x.1)
  let s := each ((List.range 4).filter new) (fun c s =>
    onCtx b c (fun _ => { model := model c, epoch := e, save := match model c with | some m => Config.saveArea m.toNat | none => 0 }) s) s
  let s := onBed b (fun x => { x with
    first := f.firstCore
    cores := f.cores
    epoch := e
    sw := x.sw.bind (fun w => if new w.inc then none else some { w with out := w.out.filter (fun c => !new c) }) }) s
  let s := bringIn new b s
  let s := onDisp (fun d => { d with cores := d.cores.map (fun x =>
    if x.2.next = some b && !inNew x.1 then (x.1, { x.2 with next := none }) else x) }) s
  let s := each leaving leaveBed s
  let joins := ((List.range f.cores.toNat).map (fun i => f.firstCore.toNat + i)).filter (fun c => match s.core c with
    | some k => k.bed ≠ b || k.leaving
    | none => true)
  let joining := (s.bed b).ctxs.any (fun x => x.resident)
  let s := each joins (fun c s => match s.core c with
    | some _ => onCore c (fun k => { k with next := some b }) s
    | none => onDisp (fun d => { d with cores := mput c { bed := b, join := e, joining := joining } d.cores }) s) s
  schedule s

/-- Fence a core (15 R380). The bed left without a core is the caller's to tear down. -/
def fence (c : Nat) (s : State) : State :=
  match s.core c with
  | none => { s with wdog := { s.wdog with fenced := s.wdog.fenced ++ [c] } }
  | some k =>
    let s := onBed k.bed (fun x => { x with epoch := x.epoch + 1 }) { s with wdog := { s.wdog with fenced := s.wdog.fenced ++ [c] } }
    let s := returnItems c s
    onDisp (fun d => { d with cores := mdel c d.cores }) s

end Sys2Proof.Machine
end

