-- ==== Sys2Proof/Machine/Requests.lean ====
section
/-! DEFINITION. Requests and spools (02 R33 to R58, 10 R276 to R284, 11 R298 to R301): release of records, the freeing of a
descriptor, leaving the Trellis, and the end of a request. -/

namespace Sys2Proof.Machine

/-! ### Greenhouse events and graft versions without users (08 R222, R233) -/

/-- Queue a Greenhouse event and raise PF vector 7; the 65th is lost and sets OVF (08 R233). -/
def ghEvent (kind cause model slot region ver : Nat) (s : State) : State :=
  let e := kind % 16 + cause % 16 * 2 ^ 4 + model % 32 * 2 ^ 8 + slot % 4096 * 2 ^ 16 + region % 65536 * 2 ^ 32
    + ver % 65536 * 2 ^ 48
  let g := s.gh
  let g := if 64 ≤ g.events.length then { g with ovf := true } else { g with events := g.events ++ [BitVec.ofNat 64 e] }
  vecEvent mgmt 7 { s with gh := g }

/-- A mirrored row uses the version. -/
def mirrorUses (g : Nat) (v : U16) (m : Mirror) : Bool := m.join.graftValid && m.join.graftSlot.toNat = g && m.ver = v

/-- Users of a graft version: requests not ENDED that name it (08 R222), those that a follower mirrors among them (13 R334). -/
def State.graftUsers (s : State) (slot : BitVec 12) (ver : U16) : Nat :=
  (s.reqs.filter (fun e => e.2.state ≠ .ended && e.2.graft = some (slot, ver))).length
    + (s.teth.mirrors.filter (mirrorUses slot.toNat ver)).length

/-- Users of a model slot: requests not ENDED whose model slot it is (08 R233). -/
def State.modelUsers (s : State) (m : Nat) : Nat :=
  (s.reqs.filter (fun e => e.2.state ≠ .ended && e.2.model.toNat = m)).length

/-- Free the superseded and retired versions without users (08 R222). -/
def gleanGrafts (s : State) : State :=
  let gone := s.gh.grafts.filter (fun g => (g.state = .superseded || g.state = .retired) && s.graftUsers g.slot g.ver = 0)
  let s := { s with gh := { s.gh with grafts := s.gh.grafts.filter (fun g => !gone.contains g) } }
  each gone (fun g s => ghEvent 11 0 g.base.toNat g.slot.toNat 0 g.ver.toNat s) s

/-! ### Quota warnings (11 R301) -/

/-- Vector 6 when the live requests reach the warning level of the quota; again only after they fell below it. -/
def quotaCheck (t : Nat) (s : State) : State :=
  let x := s.ten t
  let reached : Bool := x.quota.toNat * x.warnPct.toNat ≤ s.liveOf t * 100
  let s' := s.onTen t (fun x => { x with warnQ := reached })
  if reached && !x.warnQ then vecEvent t 6 s' else s'

/-! ### Budgets of a request (11 R298, R299) -/

/-- Bring a row's BUDGET_*_LEFT fields up to date, and hand the Sower the end of a budget that is spent. No budget acts on a
follower (R311). -/
def budgetRow (h : U32) (s : State) : State :=
  match s.reqH h with
  | none => s
  | some r =>
    if r.row.isNone || (s.grouped && !s.leader) then s else
    let q := r.spent
    let s := s.onReqH h Req.spent
    let has (st : U8) : Bool := s.sow.events.any (fun e => e.handle = h && e.ev = .stop st)
    let s := if q.budTime = 0 && !has 0x20 then handOver h (.stop 0x20) s else s
    let s := if q.budBytes = 0 && !has 0x21 then handOver h (.stop 0x21) s else s
    if q.budEnergy = 0 && !has 0x22 then handOver h (.stop 0x22) s else s

/-! ### Records and their release (10 R276 to R284) -/

/-- Token records buffered for the spool: SPOOL_BUF (10 R280). -/
def Req.spoolBuf (r : Req) : Nat := (r.bufRecs.filter (fun x => !x.isEnd)).length

/-- Token records committed and not yet released. -/
def Req.unreleased (r : Req) : Nat := (r.newRecs.filter (fun x => !x.isEnd)).length

/-- The END record of a request or a turn (10 R277, R283). -/
def Req.endRec (r : Req) (st : U8) : Rec :=
  { position := BitVec.ofNat 24 (r.committed.getD 0)
    switched := r.switched
    fellBack := r.fellBack
    isEnd := true
    status := st }

/-- Room in a spool's ring by the last known TAIL (10 R276). -/
def Spool.room (sp : Spool) : Nat := 2 ^ sp.log2.toNat - (sp.head - sp.tail).toNat

def onSpool (t k : Nat) (f : Spool → Spool) (s : State) : State :=
  s.onTen t (fun x => { x with spools := mupd k f x.spools })

def State.spool (s : State) (t k : Nat) : Option Spool := mget k (s.ten t).spools

/-- Free the descriptor and the token log; the spool is unbound (02 R57). -/
def freeReq (h : U32) (s : State) : State :=
  match s.reqH h with
  | none => s
  | some r =>
    let s := onSpool (hTenant h) r.adm.spool.toNat (fun sp => if sp.owner = some h then { sp with owner := none } else sp) s
    quotaCheck (hTenant h) { s with reqs := mdel (hSlot h) s.reqs }

/-- Write records from number `n` on, in order. -/
def writeRecs (t : Nat) (ring : U64) (log2 : Nat) (lcc : U64) : Nat → List Rec → List HostWr
  | _, [] => []
  | n, r :: rs =>
    .spoolRec t (ring + BitVec.ofNat 64 (n % 2 ^ log2 * 16)) { r with lcc := lcc.setWidth 32 }
      :: writeRecs t ring log2 lcc ((n + 1) % 2 ^ 32) rs

/-- TAIL of a spool is read from its header (10 R279). -/
def askTail (t k : Nat) (s : State) : State :=
  if s.tails.contains (t, k) then s else
    let rd := match s.spool t k with
      | some sp => [HostRd.mk (.host (s.pasidOf t)) (sp.hdrAddr + 32) 4]
      | none => []
    putReads rd { s with tails := s.tails ++ [(t, k)] }

/-- The read of a spool's TAIL is over. -/
def tailGone (t k : Nat) (s : State) : State := { s with tails := s.tails.filter (fun e => e ≠ (t, k)) }

/-- A token record carries the flags that hold from the seal before its release on (10 R277, 08 R225). -/
def Req.stamp (r : Req) (x : Rec) : Rec := if x.isEnd then x else { x with switched := r.switched, fellBack := r.fellBack }

/-- Release the records of a request that find room, the buffered ones first; the rest is buffered (10 R278, R280). A gardener
core writes an END record alone of a request without a row, the spool's lane every other (12 R314). The release of the final
END record frees the descriptor (02 R57). On a broken spool every record is discarded (10 R282). The writes count against the
request's budgets as they are issued (11 R287, R298). A record that finds no room goes to the overflow area through the spool's lane (10 R280,
01 R31). -/
def releaseReq (h : U32) (s : State) : State :=
  match s.reqH h with
  | none => s
  | some r =>
    let t := hTenant h
    let k := r.adm.spool.toNat
    let all := r.bufRecs ++ r.newRecs.map r.stamp
    if all = [] then s else
    match (s.spool t k).bind (fun sp => if sp.broken then none else some sp) with
    | none =>
      let s := { s.onReqH h (fun r => ({ r with bufRecs := [], newRecs := [] } : Req).lift 3 s.seq) with seq := s.seq + 1 }
      if r.state = .ended then freeReq h s else s
    | some sp =>
      let out := all.take sp.room
      let keep := all.drop sp.room
      let s := if sp.room < all.length then askTail t k s else s
      let s := { s.onReqH h (fun r =>
        let r := { r with bufRecs := keep, newRecs := [] }
        if keep.all (fun x => x.isEnd) then r.lift 3 s.seq else r) with seq := s.seq + 1 }
      let s := each ((keep.drop (r.bufRecs.drop sp.room).length).filter (fun x => !x.isEnd)) (fun _ => egress (egressLane k) 16) s
      if out = [] then s else
      let final : Bool := r.state = .ended && keep = []
      let head := sp.head + BitVec.ofNat 32 out.length
      let hdr := HostWr.spoolHdr t sp.hdrAddr head (if final then 0 else h) s.ctl.lcc
      let recs := writeRecs t sp.ringAddr sp.log2.toNat s.ctl.lcc sp.head.toNat out
      let via := if out.all (fun x => x.isEnd) && r.bufRecs = [] && r.row.isNone then egressGardener (s.page t).gardener.toNat
        else egressLane k
      let s := each (recs ++ [hdr]) (fun w s => hostWrite via t 16 w s) s
      let s := onSpool t k (fun sp => { sp with head := head }) s
      let s := budgetRow h (chargeReq h { hostBytes := BitVec.ofNat 64 (16 * out.length + 16) } s)
      let s := each (out.filter (fun x => x.isEnd)) (fun _ s => vecEvent t 2 s) s
      if final then freeReq h s else s

/-- The records of the finished step may leave: the next step's first work item has been dispatched, or no step
executes (10 R278). -/
def State.mayRelease (s : State) : Bool :=
  match s.sow.exec with
  | some x => x.dispatched
  | none => true

def releaseAllRecs (s : State) : State :=
  if s.mayRelease then
    each ((s.reqs.filter (fun e => e.2.newRecs ≠ [])).map (fun e => e.2.handle)) releaseReq s
  else s

/-! ### Leaving the Trellis (05 R110, 11 R291) -/

/-- A row leaves the Trellis: its counters are rolled up, its chunk dropped, its index free for the next layout; where this composition
seals a step, `rowsFreed` gives the layout that first allocates it (05 R110). A cancellation that still waits for its composition
stays pending (04 R91, R94). -/
def leaveRow (h : U32) (s : State) : State :=
  match s.reqH h with
  | none => s
  | some r => match r.row with
    | none => s
    | some row =>
      let s := dropChunk h (rollUp h s)
      let s := { s with sow := { s.sow with freeFrom := s.sow.freeFrom ++ [(row.toNat, s.sow.step.toNat + 1)] } }
      s.onReqH h (fun r =>
        { r with
          row := none
          idle := false
          depth := 0
          tokens := []
          affinity := none })

/-- The LCC at which a time to live of `ttl` seconds ends; 0 selects 900 s (02 R47, 07 R207). -/
def State.expiryOf (s : State) (ttl : U32) : U64 :=
  s.ctl.lcc + BitVec.ofNat 64 ((if ttl = 0 then 900 else ttl.toNat) * 1000000000)

/-! ### The end of a request (02 R53 to R58) -/

/-- Complete the messages that wait for a request which has ended with status `st` (04 R89, R91 to R95). -/
def endWaits (h : U32) (st : U8) (s : State) : State :=
  flushDone (finishAll (fun _ x => match x.wait with
    | .cancel h' _ first =>
      if h' = h then some (if first && st = 0x10 then stOk else stAlreadyEnded, [(16, st.toNat)]) else none
    | .pause h' _ _ => if h' = h then some (stAlreadyEnded, [(16, st.toNat)]) else none
    | .resume h' => if h' = h then some (stAlreadyEnded, [(16, st.toNat)]) else none
    | .extend h' _ => if h' = h then some (stAlreadyEnded, [(16, st.toNat)]) else none
    | _ => none) s)

/-- A tenant partition is being reset: records not released are discarded at each end (04 R102). -/
def State.tenStopping (s : State) (t : Nat) : Bool := (s.page t).stopping.isSome

/-- The plots from plot 0 on that were matched in the Seedbed or offered to it (04 R104). -/
def Req.offeredUpTo (r : Req) : Nat :=
  let more := (r.table.drop r.offered).takeWhile (fun e => e.seeded)
  r.offered + more.length

/-- End a request that is not ENDED: plots, granules and table are released, the END record follows its token records, and
messages that wait for it complete (02 R57). -/
def endReq (h : U32) (st : U8) (s : State) : State :=
  match s.reqH h with
  | none => s
  | some r =>
    if r.state = .ended then s else
    let s := s.onReqH h (fun r => { r with endStatus := st, offered := r.offeredUpTo })
    let s := moveReq h .ended s
    let s := dropTable (hSlot h) (leaveRow h s)
    let s := s.onReqH h (fun r =>
      let wipe := s.tenStopping (hTenant h)
      { r with
        holds := {}
        turnEnd := false
        expiry := none
        cancelPending := false
        pausePending := false
        extendPending := false
        chunk := none
        bufRecs := if wipe then [] else r.bufRecs
        newRecs := (if wipe then [] else r.newRecs) ++ [r.endRec st] })
    let s := { s with
      sow := { s.sow with
        events := s.sow.events.filter (fun e => e.handle ≠ h)
        idleWant := s.sow.idleWant.filter (fun x => x ≠ h)
        returning := s.sow.returning.filter (fun x => x ≠ h) } }
    gleanGrafts (endWaits h st s)

/-- End a request without a Trellis row when firmware handles the cause; its END record leaves at once unless token
records of its last step are still to be released (02 R55, R56). The frames that it frees may let a restore start (07 R205).
While the prompt is still being copied, the end waits for the copy, which first completes the ADMIT (02 R40; DESIGN CHOICE,
log entry 63), unless the tenant is being reset. -/
def endNow (h : U32) (st : U8) (s : State) : State :=
  match s.reqH h with
  | none => s
  | some r =>
    if !r.copied && !s.tenStopping (hTenant h) then s.onReqH h (fun r => { r with doomed := r.doomed <|> some st }) else
    let s := restores (endReq h st s)
    if r.newRecs = [] || s.mayRelease then releaseReq h s else s

/-- Hand the Sower an end for a row; a request without a row ends at handling (02 R55, 05 R118). -/
def endCause (h : U32) (st : U8) (s : State) : State :=
  match s.reqH h with
  | none => s
  | some r =>
    if r.state = .ended then s
    else if r.row.isSome then handOver h (.stop st) s
    else endNow h st s

/-- Firmware ends a request whose deadline or time to live has passed (02 R50, 07 R207, 11 R310). -/
def expireReq (h : U32) (s : State) : State :=
  match s.reqH h with
  | none => s
  | some r =>
    let past (x : U64) : Bool := x.toNat ≤ s.ctl.lcc.toNat
    if (r.state = .queued || r.state = .admitted) && r.copied && r.adm.deadline ≠ 0 && past r.adm.deadline then endNow h 0x12 s
    else if (r.state = .paused || r.state = .cold) && (match r.expiry with | some x => past x | none => false) then
      endNow h 0x12 s
    else s

/-! ### Teardowns that end requests (06 R169 to R171) -/

/-- The open rows of a handle in the Pruner close with nothing committed (09 R252; 15 R373); the stack-stream items that no wave holds
back now are issued (09 R242). -/
def closeOpen (pick : U32 → Bool) (s : State) : State :=
  issueStack { s with prn := { s.prn with rows := s.prn.rows.map (fun p => if p.state = .opened && pick p.handle then
      { p with state := .closed, out := none, pos := p.pos.map (fun x => { x with list := [] }) } else p) } }

/-- The teardown of a request context ends once no core runs an item that it removed: at once, or when the last such core leaves its
item (06 R170, R172). -/
def tornEnds (h : U32) (row : BitVec 13) (bed : Nat) (s : State) : State :=
  let mine (k : Core) : Bool := match k.orphan with | some o => o.row = some row && o.torn.isNone | none => false
  if s.disp.cores.any (fun e => mine e.2) then
    onDisp (fun d => { d with cores := d.cores.map (fun e =>
      if mine e.2 then (e.1, { e.2 with orphan := e.2.orphan.map (fun o => { o with torn := some h }) }) else e) }) s
  else trace 5 0 0 (some (hTenant h)) h.toNat (row.toNat + 131072) 0 bed s

/-- Request-context teardown: the row's items and flow go, and the request ends with FAULT at the next seal (06 R170). A row
whose items are removed gets no lists of them, so the Pruner closes it. -/
def teardownReq (h : U32) (s : State) : State :=
  match s.reqH h with
  | none => s
  | some r =>
    let n := match r.row with
      | some row => (s.disp.items.filter (fun i => i.rows = [row])).length
      | none => 0
    let s := match r.row with
      | some row =>
        let s := trace 5 0 0 (some (hTenant h)) h.toNat row.toNat n r.bed.toNat s
        tornEnds h row r.bed.toNat (removeItems (fun i => i.rows = [row]) (dropChunk h s))
      | none => s
    let s := if n = 0 then s else closeOpen (fun x => x = h) s
    endCause h 0x30 (schedule s)

/-- The executing step is discarded for these rows, and none of them holds up its end (05 R134, 09 R244). -/
def discardRows (hs : List U32) (s : State) : State :=
  closeOpen (fun h => hs.contains h) { s with sow := { s.sow with exec := s.sow.exec.map (fun x => { x with discard := x.discard ++ hs.filter (fun h => !x.discard.contains h) }) } }

/-- The step executes and has not ended: a discard still withdraws outcomes (09 R252). -/
def State.stepOpen (s : State) : Bool := match s.sow.exec with | some x => !x.ended | none => false

end Sys2Proof.Machine
end

