-- ==== Sys2Proof/Machine/Sower.lean ====
section
/-! DEFINITION. The Sower's layout (05 R115 to R131, 11 R296, R302, R303): rank, depth limits, chunks, joins and supply. -/

namespace Sys2Proof.Machine

/-! ### What a model and a row allow -/

/-- CROSSOVER_POSITIONS; 0 selects 64 (R115). -/
def State.crossover (s : State) (m : Nat) : Nat :=
  match s.desc m with
  | some d => if d.crossover = 0 then 64 else d.crossover.toNat
  | none => 64

/-- FILL_LIMIT; 0 selects 4,096 (R115). -/
def State.fillLimit (s : State) (m : Nat) : Nat :=
  match s.desc m with
  | some d => if d.fillLimit = 0 then 4096 else d.fillLimit.toNat
  | none => 4096

def State.contextLen (s : State) (m : Nat) : Nat := match s.desc m with | some d => d.contextLen.toNat | none => 0

/-- The step of the die ladder (14 R363). -/
def State.dieStep (s : State) : Nat := (s.pwr.ladders.getD 0 {}).b.toNat

/-- The stacks whose ladder is lowered (14 R366). -/
def State.hotOwn (s : State) : BitVec 12 :=
  BitVec.ofNat 12 (((List.range 12).map (fun i => if (s.pwr.ladders.getD (i + 1) {}).b ≠ 0 then 2 ^ i else 0)).sum)

/-- Hot stacks: this SA9's, and on a leader those the members report (13 R348, 14 R366). -/
def State.hot (s : State) : BitVec 12 :=
  if s.grouped then s.teth.stats.foldl (fun a x => a ||| x.e.hot) s.hotOwn else s.hotOwn

/-- The fill limit under a lowered die ladder (14 R366). -/
def State.fillNow (s : State) (m : Nat) : Nat :=
  let b := s.dieStep
  if b = 0 then s.fillLimit m else max 256 (s.fillLimit m * (25 - b) / 25 / 256 * 256)

/-- The reduction of depths by heat (13 R348, 14 R366). -/
def State.depthTrim (s : State) : Nat := if s.hot ≠ 0 || 8 ≤ s.dieStep then 1 else 4

def State.profOf (s : State) (r : Req) : Option Prof := mget r.adm.profile.toNat (s.ten (hTenant r.handle)).profiles

/-- DRAFT_MAX of a row's profile within the model's DRAFT_HEADS (10 R263). -/
def State.draftMax (s : State) (r : Req) : Nat :=
  let p := match s.profOf r with | some p => p.f.draftMax.toNat | none => 0
  let h := match s.desc r.model.toNat with | some d => d.draftHeads.toNat | none => 0
  min p h

/-! ### Steps sealed or laid out and not finished (R120, R128) -/

/-- The state that a request returns to: of a row that left its replay, the one that the replay returns to (02 R37, 07 R206). -/
def Req.origin (r : Req) : Option RState := if r.replay then some r.replayTo else r.left

/-- A restore found plots without a copy below the positions still needed: the request rejoins through a replay (07 R206). -/
def Req.needsReplay (r : Req) : Bool :=
  match r.restore with
  | some x => (match x.replay with
    | some j => if r.origin = some .decode || r.origin = some .fallback then decide (128 * j < r.committed.getD 0) else true
    | none => false)
  | none => false

/-- A request about to rejoin after a restore, with the fields its prefill or replay starts from (07 R206). -/
def Req.rewound (r : Req) : Req :=
  match r.restore with
  | some x => match x.replay with
    | some j =>
      if !r.needsReplay then { r with next := if r.origin = some .fallback then min r.next (128 * j) else r.next }
      else if r.origin = some .prefill || r.extendPending then
        let n := min r.next (128 * j)
        { r with next := n, committed := if n = 0 then none else some (n - 1) }
      else { r with next := min r.next (128 * j), replay := true, replayTo := r.origin.getD .decode }
    | none => r
  | none => r

/-- A request as it is taken in: a join has the prefix before its first chunk committed (02 R44), and so has a request that rejoins for
an EXTEND (05 R112). -/
def Req.entering (r : Req) : Req :=
  let q := r.rewound
  if r.state = .admitted || r.extendPending then { q with committed := if q.next = 0 then none else some (q.next - 1) } else q

/-- The state in which a request without a row is taken in (02 R37, R44, R49; 07 R206). -/
def Req.joinState (r : Req) : RState :=
  if r.state = .admitted || r.extendPending || r.needsReplay || r.replay then .prefill else r.left.getD .prefill

/-- The member of a waiting layout that takes a request in: a group's leader lays out one step beyond it (R135). -/
def State.laidJoin (s : State) (h : U32) : Option Member :=
  s.sow.laid.findSome? (fun l => l.members.find? (fun m => m.handle = h && m.joins))

/-- A request as the next layout finds it: one that a waiting layout takes in has its promised row already. -/
def State.asLaid (s : State) (r : Req) : Req :=
  if r.row.isSome then r else
    match s.laidJoin r.handle with
    | none => r
    | some m =>
      let q := r.entering
      { q with
        row := some (m.row.getD 0)
        state := r.joinState
        restore := if q.replay then q.restore else none
        extendPending := false
        joinStep := (m.chunk.map (fun c => c.step)).getD s.sow.step }

/-- The request of a handle, as the next layout finds it. -/
def State.laidReq (s : State) (h : U32) : Option Req := (s.reqH h).map s.asLaid

/-- Every request, as the next layout finds it. -/
def State.laidReqs (s : State) : List Req := s.reqs.map (fun e => s.asLaid e.2)

/-- The roles of a request in the executing step and in the layouts that wait. -/
def State.roles (s : State) (h : U32) : List Member :=
  (match s.sow.exec with
    | some x => if x.discard.contains h then [] else x.members.filter (fun m => m.handle = h)
    | none => []) ++ s.sow.laid.flatMap (fun l => l.members.filter (fun m => m.handle = h))

/-- A chunk whose step samples the first token after it, or ends a bound replay. -/
def Chunk.finishing (c : Chunk) : Bool := c.ends && (c.bound || c.projDue)

/-- A row after the largest commits still possible: last position, NEW_LEFT, records, and committing steps. -/
structure View where
  pos  : Nat
  left : Nat
  comm : Nat
  n    : Nat

def Req.logEnd (r : Req) : Nat := r.log.length - 1

def View.through (r : Req) (v : View) (m : Member) : View :=
  match m.chunk with
  | none => ⟨v.pos + 1 + m.depth, v.left - (1 + m.depth), v.comm + 1 + m.depth, v.n + 1⟩
  | some c => if c.finishing && !r.replay then ⟨r.logEnd + 1, v.left - 1, v.comm + 1, v.n + 1⟩ else v

def State.view (s : State) (r : Req) : View :=
  (s.roles r.handle).foldl (View.through r) ⟨r.committed.getD 0, r.newLeft, 0, 0⟩

/-- A row leaves by a known limit (R120). -/
def State.knownLimit (s : State) (r : Req) : Bool :=
  let v := s.view r
  let first := (s.roles r.handle).any (fun m => match m.chunk with | some c => c.finishing && !r.replay | none => false)
  let low := if first then r.logEnd + v.n else r.committed.getD 0 + v.n
  0 < v.n && (r.newLeft ≤ v.n || s.contextLen r.model.toNat ≤ low + 1)

/-- The largest draft depth of R121, plots apart. -/
def State.depthLimit (s : State) (r : Req) : Nat :=
  let v := s.view r
  min (min (s.draftMax r) s.depthTrim)
    (min (min (v.left - 1) (s.contextLen r.model.toNat - 1 - v.pos)) (64 - (r.spoolBuf + r.unreleased + v.comm + 1)))

/-- The row's carried chunk of which every item has completed, its projection apart where it ends a prompt: such a chunk is open no more
(R123). -/
def Req.chunkDone (r : Req) : Option Chunk := r.chunk.filter (fun c => !c.bound && c.layers && (!c.ends || r.replay))

/-- The row may move again: it shows a hold and none is pending (02 R38). -/
def Req.released (r : Req) : Bool := r.row.isSome && !r.state.running && r.state.rowState && !r.holds.any

/-- Generation rows (R118): rows in DECODE, rows whose last chunk finishes in an unfinished step, rows leaving a hold to
DECODE. -/
def State.isGen (s : State) (r : Req) : Bool :=
  let fin := (s.roles r.handle).any (fun m => match m.chunk with | some c => c.finishing | none => false)
  r.row.isSome && !r.holds.any &&
    (r.state = .decode
      || ((r.state = .prefill || r.state = .fallback) && fin && (!r.replay || r.replayTo = .decode))
      || (r.state = .prefill && r.replay && r.replayTo = .decode && r.chunkDone.any (fun c => c.ends))
      || (r.released && r.left = some .decode && !r.replay))

/-- Requests without a row that return to DECODE (R119 group 4). -/
def State.returnsGen (s : State) (r : Req) : Bool :=
  r.row.isNone && s.sow.returning.contains r.handle && r.left = some .decode && !r.extendPending && !r.needsReplay && !r.replay

/-! ### Rank (R119, 11 R296) -/

def State.tenWeight (s : State) (r : Req) : Nat := (s.ten (hTenant r.handle)).weight.toNat

/-- Tie order of R119: older STEP_IN, then lower row. -/
def tieBefore (a b : Req) : Bool :=
  decide (a.stepIn.toNat < b.stepIn.toNat)
    || (a.stepIn = b.stepIn && decide ((a.row.getD 0).toNat < (b.row.getD 0).toNat))

/-- K of 11 R296 in binary32. -/
def State.shareKey (s : State) (t j : Nat) : U32 :=
  let x := s.ten t
  let q := div32 (ofIntNum x.deficit) (ofNatNum (max 1 s.sow.meanE))
  div32 (ofF32 (toF32 ((ofF32 (toF32 (ofNatNum (j + 1)))).add (ofF32 q).neg))) (ofNatNum x.weight.toNat)

/-- Rows in the order of 11 R296; weight 0 ranks after every positive weight of its class (11 R294). -/
def State.shareOrder (s : State) (rows : List Req) : List Req :=
  let tied := sortBy tieBefore rows
  let keyed := (List.range tied.length).zip tied |>.map (fun e =>
    let r := e.2
    let j := ((tied.take e.1).filter (fun q => hTenant q.handle = hTenant r.handle && q.adm.cls = r.adm.cls)).length
    (s.shareKey (hTenant r.handle) j, r))
  let lt (a b : U32 × Req) : Bool :=
    if a.2.adm.cls ≠ b.2.adm.cls then decide (b.2.adm.cls.toNat < a.2.adm.cls.toNat)
    else if (s.tenWeight a.2 = 0) ≠ (s.tenWeight b.2 = 0) then decide (s.tenWeight b.2 = 0)
    else if s.tenWeight a.2 = 0 then false
    else f32Lt a.1 b.1 || (!f32Lt b.1 a.1 && decide (hTenant a.2.handle < hTenant b.2.handle))
  (sortBy lt keyed).map (fun e => e.2)

/-- The tenant and the positions that the cyclic table reserves in the step laid out next: the entry after those of the layouts that
wait and were made under the same table (11 R302). -/
def State.cycEntry (s : State) : Option (Nat × Nat) :=
  let c := s.sow.cyc
  let k := (s.sow.laid.filter (fun l => l.cycGen = c.gen)).length
  if c.len = 0 then none else
    match c.entries[(c.next + k) % c.len.toNat]? with
    | none => none
    | some (who, n) =>
      let t := if who = 1 then some c.a.toNat else if who = 2 then some c.b.toNat else none
      t.bind (fun t => if (s.page t).isOpen then some (t, n.toNat) else none)

/-! ### The layout in progress -/

/-- The layout as it grows: the state with its reservations, the rows that leave for FALLBACK in it, members in rank order, rows and
positions, the shortfall per model, rows idle for want of a plot, and the tenants of rows taken in by it and by the layouts
that wait; `dropped` and `shallow` tell that a chunk and that a draft position found no plot (R129 steps 1 and 2). -/
structure Lay where
  st     : State
  fallen : List U32
  mem    : List Member
  rows   : Nat
  pos    : Nat
  short  : List (Nat × Nat)
  want   : List U32
  taken  : List Nat
  gone   : List (BitVec 13)
  dropped : Bool := false
  shallow : Bool := false

/-- Trellis rows that the layout of step `k` may allocate (R110). -/
def State.rowsFree (s : State) (k : Nat) : Nat :=
  8192 - (s.reqs.filter (fun e => e.2.row.isSome)).length
    - (s.sow.freeFrom.filter (fun e => decide (k < e.2))).length

/-- The lowest row index free for the layout of step `k`, but for those promised. -/
def State.lowestRow (s : State) (k : Nat) (promised : List (BitVec 13)) : Option (BitVec 13) :=
  ((List.range 8192).find? (fun i =>
    !s.reqs.any (fun e => e.2.row = some (BitVec.ofNat 13 i)) && !promised.contains (BitVec.ofNat 13 i)
      && !s.sow.freeFrom.any (fun e => e.1 = i && decide (k < e.2)))).map (BitVec.ofNat 13)

/-- The bed of R144: of the beds with a context of the model, the one with the fewest rows of it, then the lowest. -/
def State.bedFor (s : State) (m : BitVec 5) : Option Nat :=
  let beds := (List.range 32).filter (fun b => 0 < (s.bed b).cores.toNat && (s.bed b).ctxs.any (fun c => c.model = some m))
  let load (b : Nat) : Nat := (s.reqs.filter (fun e => e.2.row.isSome && e.2.model = m && e.2.bed.toNat = b)).length
    + (s.teth.mirrors.filter (fun x => x.row.isSome && s.teth.model = m && x.bed.toNat = b)).length
  beds.foldl (fun acc b => match acc with
    | none => some b
    | some a => if load b < load a then some b else some a) none

/-- Rows a tenant holds. -/
def State.rowsOf (s : State) (t : Nat) : Nat :=
  (s.reqs.filter (fun e => e.2.row.isSome && hTenant e.2.handle = t)).length

/-- The step that the layout now made is for. -/
def State.layStep (s : State) : Nat := s.sow.step.toNat + 1 + s.sow.laid.length

/-- A request without a row may be taken in (R124): a row, the tenant's ROW_CAP, a bed and a model that serves. -/
def Lay.mayTake (l : Lay) (r : Req) : Bool :=
  let t := hTenant r.handle
  decide (l.taken.length < l.st.rowsFree l.st.layStep)
    && decide (l.st.rowsOf t + (l.taken.filter (fun x => x = t)).length < (l.st.ten t).rowCap.toNat)
    && (l.st.bedFor r.model).isSome && l.st.slotUp r.model.toNat

/-- Positions of the step per row limit (R115). -/
def stepRows : Nat := 4096
def stepPositions : Nat := 32768

/-- Add to a per-model count. -/
def bump (m n : Nat) (l : List (Nat × Nat)) : List (Nat × Nat) := mput m ((mget m l).getD 0 + n) l

/-- A promised row index for a request taken in by a group's leader, whose manifest names it (13 R341). -/
def Lay.promise (l : Lay) (r : Req) : Option (BitVec 13) :=
  if l.st.grouped && r.row.isNone then l.st.lowestRow l.st.layStep l.gone else none

/-- The lowest free flow but for those promised; which free flow a chunk gets the spec leaves open (06 R159; DESIGN CHOICE, log entry
62). -/
def State.freeFlow (s : State) (promised : List (BitVec 12)) : Option (BitVec 12) :=
  ((List.range 4096).find? (fun f => !mhas f s.disp.flows && !promised.contains (BitVec.ofNat 12 f))).map (BitVec.ofNat 12)

/-- The flows that the waiting layouts promise. -/
def State.flowsPromised (s : State) : List (BitVec 12) := s.sow.laid.flatMap (fun l => l.members.filterMap (fun m => m.flow))

/-- A promised flow for a chunk that a group's leader lays out, whose manifest names it (13 R341). -/
def Lay.promiseFlow (l : Lay) : Option (BitVec 12) :=
  if l.st.grouped then l.st.freeFlow (l.st.flowsPromised ++ l.mem.filterMap (fun m => m.flow)) else none

/-- Add a member. -/
def Lay.add (l : Lay) (r : Req) (m : Member) (n : Nat) : Lay :=
  { l with
    mem := l.mem ++ [m]
    rows := l.rows + 1
    pos := l.pos + n
    taken := if r.row.isNone then l.taken ++ [hTenant r.handle] else l.taken
    gone := l.gone ++ m.row.toList }

/-- Depth 0 of one generation row (R118). -/
def Lay.gen (cyc : Bool) (h : U32) (l : Lay) : Lay :=
  match l.st.laidReq h with
  | none => l
  | some r =>
    if l.st.knownLimit r || l.mem.any (fun m => m.handle = h) then l
    else if stepRows ≤ l.rows || stepPositions ≤ l.pos then l
    else if r.row.isNone && !l.mayTake r then l
    else
      let v := l.st.view r
      match coverTo (hSlot h) (plotsFor v.pos) l.st with
      | some s => ({ l with st := s }).add r
          { handle := h, depth := 0, chunk := none, joins := r.row.isNone, cyclic := cyc, row := l.promise r, had := some r.table.length } 1
      | none => { l with
          short := bump r.model.toNat (plotsFor v.pos - r.table.length) l.short
          want := if r.row.isSome then l.want ++ [h] else l.want }

/-- A member whose depth R121 and the positions left let rise by one, and the plots that it then needs. -/
def Lay.wants (i : Nat) (l : Lay) : Option (Member × Nat) :=
  match l.mem[i]? with
  | none => none
  | some m => match l.st.laidReq m.handle with
    | none => none
    | some r =>
      if m.chunk.isSome || l.st.depthLimit r ≤ m.depth || stepPositions ≤ l.pos then none
      else some (m, plotsFor ((l.st.view r).pos + m.depth + 1))

/-- Raise a member's depth by one where R121, the positions left and the plots allow it. -/
def Lay.deeper (i : Nat) (l : Lay) : Option Lay :=
  match l.wants i with
  | none => none
  | some (m, n) => (coverTo (hSlot m.handle) n l.st).map (fun s =>
      { l with st := s, mem := l.mem.set i { m with depth := m.depth + 1 }, pos := l.pos + 1 })

/-- The member's depth rises no further: for want of plots, where it could otherwise (R129 step 2). -/
def Lay.settled (i : Nat) (l : Lay) : Lay := { l with shallow := l.shallow || (l.wants i).isSome }

/-- Raise a member's depth as far as it goes, at most `n`. -/
def Lay.deepest (i : Nat) : Nat → Lay → Lay
  | 0, l => l
  | n + 1, l => match l.deeper i with
    | some l => Lay.deepest i n l
    | none => l.settled i

/-- One round over the cyclic members, spending reserved positions (11 R303). -/
def Lay.round (is : List Nat) (left : Nat) (l : Lay) : Lay × Nat :=
  is.foldl (fun (acc : Lay × Nat) i => if acc.2 = 0 then acc else match acc.1.deeper i with
    | some l => (l, acc.2 - 1)
    | none => (acc.1.settled i, acc.2)) (l, left)

def Lay.rounds (is : List Nat) : Nat → Nat → Lay → Lay
  | 0, _, l => l
  | n + 1, left, l => let (l, left) := l.round is left; Lay.rounds is n left l

/-! ### Chunks (R122, R123, 02 R45) -/

/-- The first position a new chunk of the row would process. -/
def State.firstOf (s : State) (r : Req) : Nat :=
  (s.roles r.handle).foldl (fun n m => match m.chunk with
    | some c => if c.bound then c.first + c.len else n
    | none => n) (match r.chunkDone with | some c => c.first + c.len | none => r.next)

/-- Where the row's prefill ends: the token log, or the last committed token for a replay of a generating row
(07 R206). -/
def Req.target (r : Req) : Nat := if r.replay then r.committed.getD 0 else r.log.length

/-- A carried chunk of the row is open, or laid out. One whose items have completed is open no more (R123). -/
def State.carried (s : State) (r : Req) : Bool :=
  let done (c : Chunk) : Bool := r.chunkDone.any (fun d => d.step = c.step)
  let opened (c : Option Chunk) : Bool := match c with | some c => !c.bound && !done c | none => false
  opened r.chunk || (s.roles r.handle).any (fun m => opened m.chunk)

/-- The row's prefill is complete once the unfinished steps finish. -/
def State.prefilled (s : State) (r : Req) : Bool := decide (r.target ≤ s.firstOf r)

/-- The rows eligible for a chunk of a model, in the order of R122; a row that leaves the model for FALLBACK has no chunk of it
any more (02 R51). Rows leaving a hold and returning requests stand in the order firmware handed them over. The oldest FALLBACK row is the one
with the least JOIN_STEP, and equal rows go in the order of the request table (DESIGN CHOICE, log entry 62). -/
def State.eligible (s : State) (m : Nat) (short : Bool) (fallen : List U32) : List U32 :=
  let rs := s.laidReqs.filter (fun r => r.model.toNat = m && !s.carried r && !fallen.contains r.handle)
  let ready := rs.filter (fun r => r.row.isSome && !r.holds.any && !s.prefilled r)
  let old := sortBy (fun (a b : Req) => decide (a.joinStep.toNat < b.joinStep.toNat))
  let pre := old (ready.filter (fun r => r.state = .prefill))
  let fb := old (ready.filter (fun r => r.state = .fallback))
  let held := ready.filter (fun r => r.released && (r.left ≠ some .decode || r.replay))
  let back := s.sow.returning.filterMap (fun h => rs.find? (fun r => r.handle = h && r.row.isNone
    && (r.extendPending || r.needsReplay || r.replay || r.left ≠ some .decode)))
  let handed := sortBy (fun (a b : Req) => decide (a.handSeq < b.handSeq)) (held ++ back)
  let joins := sortBy (fun (a b : Req) => decide (a.admitSeq < b.admitSeq)) (rs.filter (fun r => r.state = .admitted))
  let joins := if short then [] else joins
  (pre ++ fb ++ handed ++ joins).map (fun r => r.handle)

/-- Members of the model with generation positions. -/
def Lay.genPos (l : Lay) (m : Nat) : Nat :=
  (l.mem.map (fun x => match x.chunk with
    | none => (match l.st.laidReq x.handle with | some r => if r.model.toNat = m then 1 + x.depth else 0 | none => 0)
    | some _ => 0)).sum

/-- Prefill positions that a chunk puts on the hot stack `k`: plot j of the row prefers stack (s0 + j) mod 12 (13 R348). -/
def onStack (slot first len k : Nat) : Nat :=
  ((List.range len).filter (fun i => (slot % 12 + (first + i) / 128) % 12 = k)).length

def stacksOf (hot : BitVec 12) : List Nat := (List.range 12).filter (fun i => hot.getLsbD i)

/-- The longest prefix of a chunk that keeps every hot stack within its limit. -/
def hotCut (hot : List Nat) (cap : Nat) (used : List (Nat × Nat)) (slot first len : Nat) : Nat :=
  hot.foldl (fun c k =>
    let room := cap - (mget k used).getD 0
    let go := (List.range c).foldl (fun (acc : Nat × Nat × Bool) i =>
      if acc.2.2 then acc else
        let on : Bool := (slot % 12 + (first + i) / 128) % 12 = k
        if on && acc.2.1 = 0 then (acc.1, 0, true) else (acc.1 + 1, if on then acc.2.1 - 1 else acc.2.1, false))
      (0, room, false)
    go.1) len

/-- The positions a rejoining request needs plots for (R124, 07 R206). -/
def Req.reach (r : Req) : Nat :=
  if r.extendPending then r.promptEnd + 4 else if r.replay then r.committed.getD 0 else r.logEnd

/-- Give chunks to eligible rows in order (R122). -/
def Lay.chunks (m : Nat) (bound : Bool) (num : U64) (hot : List Nat) (cap : Nat) :
    List U32 → Nat → Nat → List (Nat × Nat) → Lay → Lay
  | [], _, _, _, l => l
  | h :: hs, p, n, used, l =>
    if n = 0 || p = 0 || stepRows ≤ l.rows then l else
    match l.st.laidReq h with
    | none => Lay.chunks m bound num hot cap hs p n used l
    | some r0 =>
      let r := if r0.row.isNone then r0.rewound else r0
      if r0.row.isNone && !l.mayTake r0 then Lay.chunks m bound num hot cap hs p n used l else
      let first := l.st.firstOf r
      let have_ := r.target - first
      let c := hotCut hot cap used (hSlot h) first (min have_ (p / n))
      if c = 0 || (c < 256 && c < have_) then l else
      let need := if r0.row.isNone && r0.state ≠ .admitted then max (plotsFor r.reach) (plotsFor (first + c - 1))
        else plotsFor (first + c - 1)
      match coverTo (hSlot h) need l.st with
      | none => Lay.chunks m bound num hot cap hs p n used { l with dropped := true }
      | some s =>
        let ch : Chunk := ⟨first, c, bound, decide (r.target ≤ first + c), num, 0, false, false⟩
        let used := hot.foldl (fun u k => bump k (onStack (hSlot h) first c k) u) used
        Lay.chunks m bound num hot cap hs (p - c) (n - 1) used
          (({ l with st := s }).add r0 
            { handle := h, depth := 0, chunk := some ch, joins := r0.row.isNone, cyclic := false, row := l.promise r0,
              flow := l.promiseFlow, had := some r0.table.length } c)

/-- Chunks issued in the step and carried chunks open during it. -/
def Lay.chunkCount (l : Lay) : Nat := (l.mem.filter (fun m => m.chunk.isSome)).length

/-- The prefill of one model (R122). -/
def Lay.fillModel (num : U64) (m : Nat) (l : Lay) : Lay :=
  let short : Bool := mhas m l.short
  let cands := (l.st.eligible m short l.fallen).filter (fun h => match l.st.laidReq h with
    | some r => r.row.isSome || l.mayTake r
    | none => false)
  let p := min (stepPositions - l.pos) (l.st.fillNow m)
  let n := min (64 - l.chunkCount) (min cands.length (if 0 < p then max 1 (p / 256) else 0))
  let g := l.genPos m
  l.chunks m (g = 0 || decide (l.st.crossover m < g)) num (stacksOf l.st.hot) (l.st.fillLimit m / 24) cands p n []

/-! ### Newer graft versions (08 R224 to R226, R232) -/

/-- Every member of the group reports the version resident (08 R225). -/
def State.groupHas (s : State) (g : BitVec 12) (v : U16) : Bool :=
  !s.grouped || (List.range (s.teth.sizeM1.toNat + 1)).all (fun i => i = 0 || s.teth.stats.any (fun x => x.member = i && x.e.grafts.contains (g, v)))

/-- A version is retired, or was before it was tainted: its requests stay on it (08 R226). -/
def State.verRetired (s : State) (g : BitVec 12) (v : U16) : Bool :=
  s.gh.grafts.any (fun x => x.slot = g && x.ver = v && (x.state = .retired || (x.state = .tainted && x.back = .retired)))

/-- The newer version that a request of a following tenant moves to (08 R225). -/
def State.followVer (s : State) (r : Req) : Option (BitVec 12 × U16) :=
  match r.graft with
  | none => none
  | some (g, v) =>
    if !(s.page (hTenant r.handle)).follow || s.verRetired g v then none else
      match s.gh.grafts.find? (fun x => x.slot = g && x.state = .resident) with
      | some n => if n.ver = v || !s.groupHas g n.ver then none else some (g, n.ver)
      | none => none

/-- The requests of a group that a layout moves to a newer version: rows, and requests that it takes in (08 R225). -/
def State.switchesFor (s : State) (ms : List Member) : List (U32 × (BitVec 12 × U16)) :=
  if s.grouped && s.leader then
    (s.reqs.map (fun e => e.2)).filterMap (fun r =>
      if r.model = s.teth.model && (r.row.isSome || ms.any (fun m => m.handle = r.handle && m.joins))
          && !s.sow.laid.any (fun l => l.switches.any (fun e => e.1 = r.handle)) then
        (s.followVer r).map (fun v => (r.handle, v))
      else none)
  else []

/-! ### Fallback reservations (02 R51, 08 R219) -/

/-- A model slot's fallback link is active (08 R218). -/
def State.fbActive (s : State) (m : Nat) : Bool :=
  let x := s.slot m
  x.fbValid && (s.slot x.fallback.toNat).state = .resident &&
    (match x.desc, s.desc x.fallback.toNat with
      | some a, some b => a.tokenizer = b.tokenizer
      | _, _ => false)

/-- The link serves a new fallback row: a tainted slot serves it too (08 R219). -/
def State.fbServes (s : State) (m : Nat) : Bool :=
  let x := s.slot m
  s.fbActive m || (x.fbValid && (s.slot x.fallback.toNat).state = .tainted &&
    (match x.desc, s.desc x.fallback.toNat with
      | some a, some b => a.tokenizer = b.tokenizer
      | _, _ => false))

/-- Reserve `n` plots of the fallback model for a request, all or none. -/
def reserveFb (slot m : Nat) : Nat → State → Option (State × List PlotEnt)
  | 0, s => some (s, [])
  | n + 1, s => match reserveFb slot m n s with
    | none => none
    | some (s, l) => (s.pickFrame m slot l.length).map (fun (p, k) => (setRef p 1 s, l ++ [⟨p, k, 0, false, 0⟩]))

/-- The warning of the policy WARN, once for each request (11 R308, R309). -/
def warnReq (h : U32) (s : State) : State :=
  match s.reqH h with
  | some r =>
    if r.warned then s else
      let s := s.onReqH h (fun r => { r with warned := true })
      let s := s.onTen (hTenant h) (fun x => { x with lastWarn := h })
      vecEvent (hTenant h) 5 { s with led := { s.led with warns := satInc s.led.warns } }
  | none => s

/-- Carry out a fallback decision in the layout (02 R51): the plots on the fallback model and a block of its heap for their table
(07 R180), or a failure (11 R309). -/
def fallbackRow (h : U32) (s : State) : State × Bool :=
  match s.reqH h with
  | none => (s, false)
  | some r =>
    if !(r.state = .prefill || r.state = .decode) || r.row.isNone || r.fellBack then (s, false) else
    let m := r.model.toNat
    let f := (s.slot m).fallback
    let last := match r.committed with | some c => c + 5 | none => 5
    let ok := s.fbServes m && (s.bedFor f).isSome && decide (last < s.contextLen f.toNat) && s.heapFits f.toNat (plotsFor last)
    match (if ok then reserveFb (hSlot h) f.toNat (plotsFor last) s else none) with
    | some (s, l) => (s.onReqH h (fun r => { r with fbTable := some (f, l) }), true)
    | none => (warnReq h { s with led := { s.led with fbFails := satInc s.led.fbFails } }, false)

/-! ### Supply (R129) -/

/-- Plots of a request that its spill or return would free: those with one reference. -/
def State.soleRefs (s : State) (r : Req) : Nat :=
  (r.table.filter (fun e => e.loc = 0 && s.refOf e.plot = 1)).length

/-- Supply of a model already planned and not yet released (R129): plots of pressure spills and of rows whose pre-emption waits. -/
def State.plannedFor (s : State) (m : Nat) : Nat :=
  let b := (s.slot m).poolBase
  (s.plots.moves.filter (fun x => x.cls = .pressure && b ≤ x.frame && x.frame < b + s.plotCount m && s.refOf x.frame = 1)).length
    + ((s.sow.events.filter (fun e => e.ev = .preempt)).map (fun e => match s.reqH e.handle with
        | some r => if r.model.toNat = m then s.soleRefs r else 0
        | none => 0)).sum

/-- Return an ADMITTED request's reservation (step 3). -/
def returnAdmitted (h : U32) (s : State) : State :=
  moveReq h .queued (dropTable (hSlot h) (s.onReqH h (fun r => { r with next := 0 })))

/-- Act on candidates in order while the shortfall exceeds the planned supply; each action says what it adds. `idle` are the rows idle (18
R434). -/
def supplyBy (step need idle : Nat) (act : U32 → State → State × Nat) : List U32 → Nat → State → State × Nat
  | [], have_, s => (s, have_)
  | h :: hs, have_, s =>
    if need ≤ have_ then (s, have_) else
      let (s, n) := act h s
      supplyBy step need idle act hs (have_ + n) (trace 11 1 0 none 0 step n idle s)

/-- The sweep's candidates of a model, oldest STAMP first (07 R198). -/
def State.candsOf (s : State) (m : Nat) : List (Nat × U32) :=
  (sortBy (fun (a b : Nat × (Nat × U32)) => decide (a.2.2.toNat < b.2.2.toNat)) (s.seed.cands.filter (fun e => e.2.1 = m))).map
    (fun e => (e.1, e.2.2))

/-- Evict Seedbed-only plots of a model (step 4): candidates in order, but for those whose STAMP has moved or that are no
longer evictable (07 R198). -/
def supplySeed (need idle : Nat) : List (Nat × U32) → Nat → State → State × Nat
  | [], have_, s => (s, have_)
  | (n, stamp) :: rest, have_, s =>
    if need ≤ have_ then (s, have_) else
    if s.evictable n && (mget n s.seed.nodes).any (fun x => x.stamp = stamp) then
      supplySeed need idle rest (have_ + 1) (trace 11 1 0 none 0 4 1 idle (evictNode n s))
    else supplySeed need idle rest have_ s

/-- Steps 3 to 5 of R129 for one model's shortfall. Candidates that the rule ranks alike go in the order of the request table (DESIGN CHOICE,
log entry 62). -/
def supply (m need idle : Nat) (s : State) : State :=
  let rs := (s.reqs.map (fun e => e.2)).filter (fun r => r.model.toNat = m)
  let sole (h : U32) (s : State) : Nat := match s.reqH h with | some r => s.soleRefs r | none => 0
  let young := (sortBy (fun (a b : Req) => decide (b.admitSeq < a.admitSeq)) (rs.filter (fun r => r.state = .admitted))).map (fun r => r.handle)
  let (s, have_) := supplyBy 3 need idle (fun h s => (returnAdmitted h s, sole h s)) young (s.plannedFor m) s
  let (s, have_) := supplySeed need idle (s.candsOf m) have_ s
  let paused := (sortBy (fun (a b : Req) => decide (a.since.toNat < b.since.toNat))
    (rs.filter (fun r => r.state = .paused && !s.sow.returning.contains r.handle && (movesOf (hSlot r.handle) s).isEmpty))).map (fun r => r.handle)
  let (s, have_) := supplyBy 4 need idle (fun h s => (queueSpill (hSlot h) .pressure s, sole h s)) paused have_ s
  let run := (sortBy (fun (a b : Req) => decide (a.adm.cls.toNat < b.adm.cls.toNat)
      || (a.adm.cls = b.adm.cls && decide (b.joinStep.toNat < a.joinStep.toNat)))
    (rs.filter (fun r => r.state.running && r.row.isSome && !s.sow.events.any (fun e => e.handle = r.handle && e.ev = .preempt)))).map (fun r => r.handle)
  let (s, _) := supplyBy 5 need idle (fun h s =>
    ({ s with sow := { s.sow with events := s.sow.events ++ [⟨s.sow.comp + 1, h, .preempt⟩] } }, sole h s)) run have_ s
  pumpMoves s

/-! ### The whole layout -/

/-- The chunk of a row that the step laid out next finds: the row's own while it is open, or the one that a waiting layout gives it. -/
def State.chunkNext (s : State) (r : Req) : Option Chunk :=
  match (if r.chunkDone.isSome then none else r.chunk) with
  | some c => some c
  | none => (s.sow.laid.flatMap (fun l => l.members.filter (fun m => m.handle = r.handle))).findSome? (fun m => m.chunk.bind (fun c =>
    if c.bound then none else some c))

/-- Open carried chunks are roles of the step; one whose layers are complete and that ends its prompt has its projection
issued in it (R123). A group's member runs rows of the group's model alone (R138). -/
def State.openChunks (s : State) (fallen : List U32) : List Member :=
  (s.laidReqs.filter (fun r => !fallen.contains r.handle && (!s.grouped || r.model = s.teth.model))).filterMap (fun r => match s.chunkNext r with
    | some c => if c.bound || (s.roles r.handle).any (fun m => match m.chunk with
        | some c => c.projDue | none => false) then none
      else some { handle := r.handle, depth := 0, chunk := some (if c.layers && c.ends && !r.replay then { c with projDue := true } else c), joins := false, cyclic := false, row := none }
    | none => none)

/-- The fallback decisions that are due, carried out in the layout (02 R51). -/
def takeFallbacks (hs : List U32) (s : State) : State × List U32 :=
  hs.foldl (fun (a : State × List U32) h =>
    let (s, ok) := fallbackRow h a.1
    (s, if ok then a.2 ++ [h] else a.2)) (s, [])

/-- Returning rows join as generation rows, in their order (R131). -/
def layReturning (s : State) (hs : List U32) (l : Lay) : Lay :=
  hs.foldl (fun l h => match s.laidReq h with
    | some r => if s.returnsGen r && (!s.grouped || r.model = s.teth.model) then l.gen false h else l
    | none => l) l

/-- Group 1 of R119: the cyclic tenant's rows in order, until `n` of them have their position (11 R303). Answers the rows tried. -/
def layCyclic (n : Nat) (rs : List Req) (l : Lay) : Lay × List U32 :=
  let start := l.mem.length
  rs.foldl (fun (a : Lay × List U32) r =>
    if n ≤ a.1.mem.length - start then a else (a.1.gen true r.handle, a.2 ++ [r.handle])) (l, [])

/-- Group 1: the cyclic tenant's rows of `gens`, where an entry of the cyclic table reserves positions (11 R303). -/
def layGroup1 (s : State) (gens : List Req) (l : Lay) : Lay × List U32 :=
  match s.cycEntry with
  | some (t, n) => layCyclic n (s.shareOrder (gens.filter (fun r => hTenant r.handle = t))) l
  | none => (l, [])

/-- The members of the layout: groups 1 to 4 at depth 0, draft depths, then prefill model by model (R118 to R122). R122 names no order
of the models: ascending model slots (DESIGN CHOICE, log entry 62). -/
def layRows (num : U64) (fallen : List U32) (s : State) : Lay :=
  let carried := s.openChunks fallen
  let waiting := s.sow.laid.flatMap (fun l => l.members.filter (fun m => m.joins))
  let l : Lay := ⟨s, fallen, carried, carried.length, 0, [], [], waiting.map (fun m => hTenant m.handle), waiting.filterMap (fun m => m.row), false, false⟩
  let gens := (s.laidReqs.filter (fun r => s.isGen r && !fallen.contains r.handle
    && (!s.grouped || r.model = s.teth.model)))
  -- group 1: the cyclic tenant's rows, within the reserved positions
  let g1 := layGroup1 s gens l
  let l := g1.1
  let own := g1.2
  let cycN := l.mem.length - carried.length
  -- group 2: rows idle for want of a plot; group 3: the share ranking; group 4: returning rows
  let rest := gens.filter (fun r => !own.contains r.handle)
  let want := sortBy tieBefore (rest.filter (fun r => s.sow.idleWant.contains r.handle))
  let l := want.foldl (fun l r => l.gen false r.handle) l
  let l := (s.shareOrder (rest.filter (fun r => !s.sow.idleWant.contains r.handle))).foldl (fun l r => l.gen false r.handle) l
  let l := layReturning s s.sow.returning l
  -- draft depths: the cyclic rows round by round, then every other member in rank order
  let first := carried.length
  let left := match s.cycEntry with
    | some (_, n) => n - cycN
    | none => 0
  let l := Lay.rounds ((List.range cycN).map (fun i => first + i)) 4 left l
  let l := ((List.range l.mem.length).filter (fun i => decide (first + cycN ≤ i))).foldl (fun l i => l.deepest i 4) l
  -- prefill, model by model
  let models := (List.range 32).filter (fun m => !s.grouped || m = s.teth.model.toNat)
  models.foldl (fun l m => l.fillModel num m) l

/-- Lay out the next step: members, depths, chunks, joins and, under a shortfall, supply (R118). -/
def layOut (s : State) : State × Laid :=
  let evs := (s.sow.events.filter (fun e => e.ev = .fallback)).map (fun e => e.handle)
  let s := { s with sow := { s.sow with events := s.sow.events.filter (fun e => e.ev ≠ .fallback) } }
  let a := takeFallbacks evs s
  let num := a.1.sow.step + 1 + BitVec.ofNat 64 a.1.sow.laid.length
  let l := layRows num a.2 a.1
  let total := (l.short.map (fun e => e.2)).sum
  let idle := l.want.length
  let s := if l.dropped then trace 11 1 0 none 0 1 0 idle l.st else l.st
  let s := if l.shallow then trace 11 1 0 none 0 2 0 idle s else s
  let s := l.short.foldl (fun s e => supply e.1 e.2 idle s) s
  let s := { s with sow := { s.sow with short := total, idleWant := l.want } }
  let back := (s.reqs.map (fun e => e.2)).filterMap (fun r => if r.released then some r.handle else none)
  (trace 8 1 0 none 0 l.rows l.pos total s, { members := l.mem, fallen := a.2, back := back, switches := s.switchesFor l.mem, cycGen := s.sow.cyc.gen })

end Sys2Proof.Machine
end

