-- ==== Sys2Proof/Machine/Ledger.lean ====
section
/-! DEFINITION. The Ledger's postings, deficits, step-time estimates and the deadline monitor (11 R286 to R311). -/

namespace Sys2Proof.Machine

/-- Engine time per handle of the charges of a step, in the order of first charge. -/
def engineOf (cur : List (U32 × Ledg)) : List (U32 × Nat) :=
  cur.foldl (fun acc e =>
    if acc.any (fun x => x.1 = e.1) then acc.map (fun x => if x.1 = e.1 then (x.1, x.2 + e.2.engine) else x)
    else acc ++ [(e.1, e.2.engine)]) []

/-- Post time and bytes of the step that ended to its rows; what was charged to discarded rows goes to
LEDGER_DISCARD_NS (R288, R289). -/
def postTime (x : Step) (s : State) : State :=
  each s.led.cur (fun e s =>
    if x.discard.contains e.1 then { s with led := { s.led with discNs := s.led.discNs + BitVec.ofNat 64 e.2.engine } }
    else chargeReq e.1 e.2 s) s

/-- Positions that the members of a step contributed (R286). -/
def postPositions (x : Step) (s : State) : State :=
  each (x.members.filter (fun m => !x.discard.contains m.handle)) (fun m s =>
    let n := match m.chunk with
      | none => 1 + m.depth
      | some c => if c.step = x.num then c.len else 0
    chargeReq m.handle { positions := BitVec.ofNat 64 n } s) s

/-- Post the energies held back by one composition (R289). -/
def postEnergy (s : State) : State :=
  let l := s.led.late
  each l (fun e s => chargeReq e.1 { energyNj := BitVec.ofNat 64 e.2 } s) { s with led := { s.led with late := [] } }

/-- Split the energy of the step's interval over the rows with engine time in it: held back for the rows, added at once to
LEDGER_DISCARD_NJ for discarded rows, and to LEDGER_UNATTR_NJ where no row has engine time (R288, R289). -/
def splitEnergy (x : Step) (s : State) : State :=
  let es := engineOf s.led.cur
  let nj := s.led.curNj
  if (es.map (fun e => e.2)).sum = 0 then { s with led := { s.led with unattr := s.led.unattr + BitVec.ofNat 64 nj, curNj := 0 } }
  else
    let shares := (es.map (fun e => e.1)).zip (splitBy (es.map (fun e => e.2)) nj)
    let lost := ((shares.filter (fun e => x.discard.contains e.1)).map (fun e => e.2)).sum
    { s with led := { s.led with
        late := shares.filter (fun e => !x.discard.contains e.1)
        discNj := s.led.discNj + BitVec.ofNat 64 lost
        curNj := 0 } }

/-- Deficits after a step (R295). A tenant of weight 0 takes no part in the sums, and its own engine time lowers its deficit
(R294). -/
def deficits (x : Step) (s : State) : State :=
  let cyc := (x.members.filter (fun m => m.cyclic)).map (fun m => m.handle)
  let charged := s.led.cur.filter (fun e => !x.discard.contains e.1 && !cyc.contains e.1)
  let here (t : Nat) : Bool := x.members.any (fun m => hTenant m.handle = t)
    || s.reqs.any (fun e => e.2.row.isSome && e.2.idle && hTenant e.2.handle = t)
  let us := (List.range 16).filter here
  let ts := us.filter (fun t => (s.ten t).weight ≠ 0)
  let et (t : Nat) : Nat := ((charged.filter (fun e => hTenant e.1 = t)).map (fun e => e.2.engine)).sum
  let all := (ts.map et).sum
  let w := (ts.map (fun t => (s.ten t).weight.toNat)).sum
  let clamp (d : Int) : Int := max (-81200000000) (min 81200000000 d)
  each us (fun t s => s.onTen t (fun y =>
    { y with deficit := clamp (y.deficit + (((all * y.weight.toNat) / w : Nat) : Int) - (et t : Int)) })) s

/-- A tenant without a row and without QUEUED or ADMITTED requests has deficit 0 (R295). -/
def zeroDeficits (s : State) : State :=
  each (List.range 16) (fun t s =>
    if s.reqs.any (fun e => hTenant e.2.handle = t && (e.2.row.isSome || e.2.state = .queued || e.2.state = .admitted)) then s
    else s.onTen t (fun y => { y with deficit := 0 })) s

/-- The mean engine time per member row of the posted step (R296). -/
def meanEngine (x : Step) (s : State) : State :=
  let tot := ((s.led.cur.filter (fun e => !x.discard.contains e.1)).map (fun e => e.2.engine)).sum
  { s with sow := { s.sow with meanE := max 1 (tot / max 1 x.members.length) } }

/-! ### Step-time estimates (R305) -/

def sat32 (n : Nat) : U32 := BitVec.ofNat 32 (min n 0xFFFFFFFF)

/-- Move the estimate of a model's path by a step of duration `t`. -/
def moveEst (m : Nat) (small : Bool) (t : Nat) (s : State) : State :=
  let (a, b) := (mget m s.sow.est).getD (0, 0)
  let up (x : U32) : U32 := if x = 0 then sat32 t else sat32 ((7 * x.toNat + t) / 8)
  { s with sow := { s.sow with est := mput m (if small then (up a, b) else (a, up b)) s.sow.est } }

/-- The models with a member in a step. -/
def State.stepModels (s : State) (x : Step) : List Nat :=
  (List.range 32).filter (fun m => x.members.any (fun e => match s.reqH e.handle with
    | some r => r.model.toNat = m
    | none => false))

/-- Update the estimates for the step that ended, unless it is excluded; a group's leader waits for every STATUS
(13 R347). -/
def estimates (x : Step) (s : State) : State :=
  match x.sealAt with
  | none => s
  | some e =>
    let t := e.toNat - x.start.toNat
    each (s.stepModels x) (fun m s =>
      let dirty := x.members.any (fun y => x.discard.contains y.handle && (match s.reqH y.handle with
        | some r => r.model.toNat = m
        | none => false))
      if dirty || x.slowed then s
      else if s.grouped then onTeth' (x.num, m, x.small.contains m, t) s
      else moveEst m (x.small.contains m) t s) s
where
  onTeth' (p : U64 × Nat × Bool × Nat) (s : State) : State :=
    { s with teth := { s.teth with estPend := s.teth.estPend ++ [p] } }

/-- Estimates of the steps whose STATUS has arrived from every member, unless one of them was slow (13 R347). -/
def estReady (s : State) : State :=
  let all (n : U64) : Bool := (List.range s.teth.sizeM1.toNat).all (fun i =>
    s.teth.stats.any (fun x => x.member = i + 1 && decide (n.toNat ≤ x.step.toNat)))
  let own (n : U64) : Bool := s.teth.slowSteps.contains n
  let done := s.teth.estPend.filter (fun e => all e.1)
  let s := { s with teth := { s.teth with estPend := s.teth.estPend.filter (fun e => !all e.1) } }
  each done (fun e s => if own e.1 then s else moveEst e.2.1 e.2.2.1 e.2.2.2 s) s

/-- The Ledger's work at the composition that follows a step; where every STATUS came before it, the estimates move at once. -/
def closeLedger (x : Step) (s : State) : State :=
  let s := postEnergy s
  let s := postPositions x (postTime x s)
  let s := estReady (estimates x (meanEngine x (deficits x s)))
  let s := splitEnergy x s
  { s with led := { s.led with cur := [], inInt := false } }

/-! ### The deadline monitor (R304 to R309) -/

def State.estOf (s : State) (m : Nat) (small : Bool) : Nat :=
  let (a, b) := (mget m s.sow.est).getD (0, 0)
  if small then a.toNat else b.toNat

/-- Projected finish (R307) of a running row at the LCC. -/
def State.finish_ (s : State) (r : Req) (small : Bool) : Nat :=
  let m := r.model.toNat
  let tau := s.estOf m small
  let left := r.target - r.next
  let p := if r.state = .decode then 0 else
    match r.lastChunk with
    | some (d, n) => left * d / max 1 n
    | none => cdiv left (s.fillLimit m) * s.estOf m false
  s.ctl.lcc.toNat + p + ceilDivF32 r.newLeft r.rate * tau

/-- The monitor leaves the rows of a privileged partition alone while the table is on (R304). -/
def State.cycExempt (s : State) (t : Nat) : Bool :=
  s.sow.cyc.len ≠ 0 && (s.sow.cyc.a.toNat = t || s.sow.cyc.b.toNat = t)

def satLed (f : Led → Led) (s : State) : State := { s with led := f s.led }

/-- Evaluate one row after the seal of the step `x` (R307, R308), unless its gardener core restarts (15 R384). -/
def evalRow (x : Step) (h : U32) (s : State) : State :=
  match s.reqH h with
  | none => s
  | some r =>
    let t := hTenant h
    let y := s.ten t
    if !r.state.running || r.row.isNone || r.adm.deadline = 0 || y.policy = 0 || s.cycExempt t
      || s.gdnDown (s.page t).gardener.toNat then s else
      let f := s.finish_ r (x.small.contains r.model.toNat)
      let late : Int := (f : Int) - (r.adm.deadline.toNat : Int)
      let s := s.onReqH h (fun r => { r with late := some (late / 1000) })
      if late ≤ (y.margin.toNat : Int) * 1000 then s else
        let s := trace 26 3 (s.page t).gardener.toNat (some t) h.toNat y.policy.toNat ((late / 1000) % 4294967296).toNat
          (s.estOf r.model.toNat (x.small.contains r.model.toNat) / 1000) s
        if y.policy = 1 || (y.policy = 2 && r.fellBack) then warnReq h s
        else if y.policy = 2 then
          if s.sow.events.any (fun e => e.handle = h && e.ev = .fallback) then s
          else handOver h .fallback (satLed (fun l => { l with fallbacks := satInc l.fallbacks }) s)
        else
          if s.sow.events.any (fun e => e.handle = h && e.ev = .stop 0x23) then s
          else handOver h (.stop 0x23) (satLed (fun l => { l with aborts := satInc l.aborts }) s)

/-- Right after the seal of a step (R307); on a group's leader only (R311). -/
def monitor (x : Step) (s : State) : State :=
  if s.grouped && !s.leader then s else
    each ((s.reqs.filter (fun e => e.2.row.isSome)).map (fun e => e.2.handle)) (evalRow x) s

end Sys2Proof.Machine
end

