-- ==== Sys2Proof/Machine/Frames.lean ====
section
/-! DEFINITION. Frames that this member sends on the Tether ring (13 R337 to R347) and the group hold (13 R349, R350). -/

namespace Sys2Proof.Machine

def onTeth (f : Teth → Teth) (s : State) : State := { s with teth := f s.teth }

/-- START and common words of a frame of this member (13 R336, R340); every frame is stomped under a forced hold
(15 R382). -/
def State.ownMeta (s : State) (step : U64) (part : Nat) (last full fresh : Bool) : FrameMeta :=
  ⟨s.teth.index, 0, s.teth.id, s.teth.epoch, full, fresh, BitVec.ofNat 15 part, last, step, 0, 0, 0, false, s.teth.forced⟩

/-- Send an own frame, with its WORDS and CRC (13 R336, R337): it is outstanding until it returns (R339). -/
def sendFrame (kind : U8) (step : U64) (part : Nat) (f : FrameOut) (s : State) : State :=
  let f := f.sealed
  onTeth (fun t => { t with own := t.own ++ [⟨kind, step, BitVec.ofNat 15 part, s.ctl.lcc, false, f⟩] })
    { s with out := { s.out with frames := s.out.frames ++ [f] } }

/-- STATUS payload of this member (13 R344); handles beyond the largest frame wait for the next. -/
def State.statusNow (s : State) (slow : Bool) : StatusE :=
  let g := (s.gh.grafts.filter (fun g => g.state = .resident)).map (fun g => (g.slot, g.ver))
  { free := BitVec.ofNat 32 (s.freeFrames s.teth.model.toNat)
    hot := BitVec.ofNat 12 (((List.range 12).map (fun i => if (s.pwr.ladders.getD (i + 1) {}).b ≠ 0 then 2 ^ i else 0)).sum)
    slow := slow
    intact := s.teth.intact
    ballast := (s.pwr.ladders.getD 0 {}).b
    manifestStep := s.teth.manStep
    grafts := g.take 8
    restored := s.teth.restored.take 32000 }

/-- Send STATUS when the member's own work of a step ends. -/
def sendStatus (num : U64) (slow : Bool) (s : State) : State :=
  if s.grouped then
    onTeth (fun t => { t with restored := t.restored.drop 32000 })
      (sendFrame 0x05 num 0 (.status (s.ownMeta num 0 true false false) (s.statusNow slow)) s)
  else s

/-- Send SLOW at once when a stack's, or the die's, limit is lowered (13 R346, 14 R365). Members tell frames apart by their
part (13 R339), so each SLOW of a step has the next one. -/
def sendSlow (hot : BitVec 12) (ballast : BitVec 4) (s : State) : State :=
  if s.grouped then
    let num := match s.sow.exec with | some x => x.num | none => s.sow.step
    let part := if s.teth.slowSent.1 = num then s.teth.slowSent.2 else 0
    onTeth (fun t => { t with slowSent := (num, part + 1) })
      (sendFrame 0x06 num part (.slow (s.ownMeta num part true false false) hot ballast) s)
  else s

/-- PRESENT of this member (13 R351; 15 R374): its slot holds the group's model, and it is not stalled. -/
def State.presentNow (s : State) (modelId : U64) : Bool :=
  !s.wdog.stalled && (s.slot s.teth.model.toNat).state = .resident
    && (match s.desc s.teth.model.toNat with | some d => d.modelId = modelId | none => false)

/-- The leader calls the roll (13 R351, R353): the epoch rises at the first roll call after its reset. -/
def callRoll (s : State) : State :=
  let s := onTeth (fun t =>
    { t with
      epoch := if t.bump then t.epoch + 1 else t.epoch
      bump := false
      rollAt := s.ctl.lcc
      own := t.own.filter (fun o => o.kind ≠ 0x01) }) s
  let n := s.teth.applied
  let id := match s.desc s.teth.model.toNat with | some d => d.modelId | none => 0
  let me (b : Bool) : List Nat := if b then [0] else []
  sendFrame 0x01 n 0 (.rollcall (s.ownMeta n 0 true false s.teth.fresh) id (me (s.presentNow id)) (me s.teth.intact)) s

/-- The work of every unfinished step is dropped (13 R350; 15 R382). What its layouts reserved for fallbacks, and the rows they
take out of a hold, stand until the next seal. -/
def dropWork (s : State) : State :=
  let s := discardRows (match s.sow.exec with | some x => x.members.map (fun m => m.handle) | none => []) s
  let s := removeItems (fun _ => true) s
  let s := each ((s.reqs.filter (fun e => e.2.row.isSome)).map (fun e => e.2.handle)) dropChunk s
  let s := onDisp (fun d => { d with flows := [] }) s
  let s := onTeth (fun t => { t with mirrors := t.mirrors.map (fun m => { m with chunk := none, flow := none }) }) s
  { s with
    sow := { s.sow with laid := s.sow.laid.map (fun l => { l with members := [], switches := [] }), exec := s.sow.exec.map (fun (x : Step) => { x with stack := [] }) }
    teth := { s.teth with dropDue := false }
    prn := { s.prn with rows := s.prn.rows.map (fun p => { p with state := .closed, out := none }) } }

/-- Collectives of the executing step that have not completed. -/
def State.colls (s : State) : Nat := match s.sow.exec with | some x => x.coll | none => 0

/-- The unfinished steps are discarded for every row, and their work is dropped once the last of their collectives has completed (13
R350). -/
def dropUnfinished (s : State) : State :=
  if s.colls = 0 then dropWork s
  else discardRows (match s.sow.exec with | some x => x.members.map (fun m => m.handle) | none => [])
    { s with teth := { s.teth with dropDue := true } }

/-- A hold begins (13 R349, R350): unfinished steps are discarded for every row of the group, and on the leader every
request that holds a row moves to HELD_GROUP at the next seal and the roll is called. A lost lock and a forced hold are causes on this
SA9 (15 R393; DEDUCED, log entry 70). -/
def holdGroup (detail : Nat) (s : State) : State :=
  if !s.grouped then s else
  let s := onTeth (fun t => { t with ours := t.ours || detail = 3 || detail = 4 }) s
  if s.teth.held then s else
  let s := onTeth (fun t =>
    { t with
      held := true
      formed := false
      abandoned := false
      heldAt := s.ctl.lcc
      seen := []
      parts := []
      strikes := []
      estPend := [] }) s
  let s := vecEvent mgmt 5 (logErr { code := 0x18, detail, island := 16 } s)
  let rows := (s.reqs.filter (fun e => e.2.row.isSome && e.2.model = s.teth.model)).map (fun e => e.2.handle)
  let s := dropUnfinished s
  if s.leader then callRoll (each rows (fun h s => handOver h (.hold 0) s) s) else s

/-- TETHER_EN is asserted where the port is enabled in a group of two or more and the block runs (13 R354): the leader calls the roll that
forms the group, and a member of a formed group, whose lanes lost their lock meanwhile, holds (R349, R351). -/
def tetherOn (s : State) : State :=
  if s.grouped && s.ctl.phase = .ready then
    let s := { s with out := { s.out with tetherEn := true } }
    if s.teth.formed then holdGroup 3 s else if s.leader then callRoll s else s
  else s

/-- A member forces a hold (15 R382): a follower stomps every frame until a ROLLCALL reaches it, the leader holds. -/
def forceHold (s : State) : State :=
  if !s.grouped then s
  else if s.leader then holdGroup 4 s
  else holdGroup 4 (onTeth (fun t => { t with forced := true }) s)

end Sys2Proof.Machine
end

