-- ==== Sys2Proof/Machine/Pruner.lean ====
section
/-! DEFINITION. The Pruner and the sampling stage (09 R234 to R259, 10 R262 to R275): merging, completion, distributions, draws,
verification and commit of a row. -/

namespace Sys2Proof.Machine

def onPrn (f : Prn → Prn) (s : State) : State := { s with prn := f s.prn }

def onPRow (row : BitVec 13) (f : PRow → PRow) (s : State) : State :=
  onPrn (fun p => { p with rows := p.rows.map (fun r => if r.row = row then f r else r) }) s

/-! ### Merging (09 R246 to R250) -/

/-- Free choices below 2 while merging: the counter of the next free value. -/
def coin (n : Nat) : Bool := Config.freeNat n % 2 = 1

/-- Insert into a descending list; among equal scores the place is a free choice (09 R250). -/
def insertDesc (e : U32 × BitVec 22) : List (U32 × BitVec 22) → Nat → List (U32 × BitVec 22) × Nat
  | [], n => ([e], n)
  | x :: r, n =>
    if f32Lt x.1 e.1 then (e :: x :: r, n)
    else if f32Lt e.1 x.1 then let (l, n) := insertDesc e r n; (x :: l, n)
    else if coin n then (e :: x :: r, n + 1)
    else let (l, n) := insertDesc e r (n + 1); (x :: l, n)

/-- A merge in progress: the list, the NaN entries dropped, and the free counter. -/
structure Merge where
  list : List (U32 × BitVec 22)
  nans : Nat
  free : Nat

/-- Merge one entry into a list of capacity `k` (09 R246). Equal copies of an index, and a tie at the k-th score, are
free choices (09 R249, R250). -/
def Merge.entry (k : Nat) (e : U32 × BitVec 22 × Bool) (m : Merge) : Merge :=
  let (sc, ix, valid) := e
  if !valid then m
  else if f32Nan sc then { m with nans := m.nans + 1 }
  else if sc = negInf32 then m
  else
    let put (l : List (U32 × BitVec 22)) (n : Nat) : Merge :=
      let (l, n) := insertDesc (sc, ix) l n
      { m with list := l.take k, free := n }
    match m.list.find? (fun x => x.2 = ix) with
    | some old =>
      if f32Lt old.1 sc then put (m.list.erase old) m.free
      else if f32Lt sc old.1 then m
      else if coin m.free then put (m.list.erase old) (m.free + 1) else { m with free := m.free + 1 }
    | none =>
      match (if m.list.length < k then none else m.list.getLast?) with
      | none => put m.list m.free
      | some last =>
        if f32Lt last.1 sc then put m.list.dropLast m.free
        else if f32Lt sc last.1 then m
        else if coin m.free then put m.list.dropLast (m.free + 1) else { m with free := m.free + 1 }

/-- `a` is not above `b`; a NaN is never taken so (09 R247). -/
def notAbove (a b : U32) : Bool := !f32Nan a && !f32Lt b a

/-- The list is skipped: it is full and MAX is not above its k-th score (09 R247). -/
def PPos.skips (p : PPos) (k : Nat) (mx : U32) : Bool :=
  decide (k ≤ p.list.length) && (match p.list.getLast? with | some x => notAbove mx x.1 | none => true)

/-- M and S after a tile's LSE (09 R248); the Bool counts a NaN. -/
def addLse (m : Option U32) (acc : U64) (lse : U32) : Option U32 × U64 × Bool :=
  let one : U64 := 0x3FF0000000000000
  if f32Nan lse then (m, acc, true)
  else if lse = negInf32 then (m, acc, false)
  else match m with
    | none => (some lse, one, false)
    | some x =>
      if x = posInf32 then (m, acc, false)
      else if lse = posInf32 then (some lse, one, false)
      else if f32Lt x lse then
        (some lse, add64 (mul64 acc (exp64 (sub64 (f32to64 x) (f32to64 lse)))) one, false)
      else (m, add64 acc (exp64 (sub64 (f32to64 lse) (f32to64 x))), false)

/-- Merge one list into a row-position: the position, NaNs, whether the list was skipped, and the free counter. Entries
above the MAX of a skipped list are merged or not, a free choice (09 R247). -/
def PPos.merge (p : PPos) (k : Nat) (l : PList) (free : Nat) : PPos × Nat × Bool × Nat :=
  let (m, acc, nan) := addLse p.m p.s l.lse
  let skip := p.skips k l.max
  let (es, free) := if skip then
      l.entries.foldl (fun (a : List (U32 × BitVec 22 × Bool) × Nat) e =>
        if e.2.2 && f32Lt l.max e.1 then (if coin a.2 then a.1 ++ [e] else a.1, a.2 + 1) else a) ([], free)
    else (l.entries, free)
  let r := es.foldl (fun m e => Merge.entry k e m) ⟨p.list, 0, free⟩
  ({ p with list := r.list, shards := p.shards + 1, sum := p.sum + l.shard.toNat, m := m, s := acc },
    r.nans + b2n nan, skip, r.free)

/-! ### Distributions (10 R264 to R267) -/

/-- The distribution of a row-position: none, a point mass, or the kept candidates with their pᵢ and the TRUNC flag. -/
inductive Dist where
  | none_
  | point (tok : U32)
  | kept (l : List (U64 × U32)) (trunc : Bool)

def tokOf (x : BitVec 22) : U32 := x.setWidth 32

/-- The shortest prefix whose sum reaches `goal`, and whether it was reached. -/
def topPrefix (goal : U64) : List (U64 × U32) → U64 → List (U64 × U32) × Bool
  | [], _ => ([], false)
  | x :: r, acc =>
    let acc := add64 acc x.1
    if f64Le goal acc then ([x], true) else let (l, b) := topPrefix goal r acc; (x :: l, b)

def sum64 (l : List (U64 × U32)) : U64 := l.foldl (fun a x => add64 a x.1) 0

/-- The sum serves as a divisor: above 0 and finite. -/
def usable (x : U64) : Bool := f64Lt 0 x && f64Lt x 0x7FF0000000000000

/-- Z = M + ln S, rounded to binary32 (09 R248). -/
def PPos.z (p : PPos) : Option U32 :=
  p.m.map (fun m => if m = posInf32 then m else f64to32 (add64 (f32to64 m) (ln64 p.s)))

def dist (f : ProfileF) (p : PPos) : Dist :=
  match p.list with
  | [] => .none_
  | e0 :: _ =>
    if f32Zero f.temp then .point (tokOf e0.2)
    else if e0.1 = posInf32 || p.z = some posInf32 then .point (tokOf e0.2)
    else match p.z with
      | none => .none_
      | some z =>
        let ps := p.list.map (fun e => (exp64 (sub64 (div64 (ofF32 e.1) (ofF32 f.temp)) (f32to64 z)), tokOf e.2))
        let (l, trunc) := if f32Lt f.topP 0x3F800000 then
            let (l, b) := topPrefix (f32to64 f.topP) ps 0
            (l, !b)
          else (ps, false)
        let l := match l with
          | [] => []
          | x :: r => if f32Zero f.minP then x :: r
            else x :: r.filter (fun y => f64Le (mul64 (f32to64 f.minP) x.1) y.1)
        if usable (sum64 l) then .kept l trunc else .none_

/-! ### The random stream (10 R268) -/

/-- One round of Philox-4×32 (PRESUMED constants, log entry 8). -/
def philoxRound (k0 k1 : Nat) (c : Nat × Nat × Nat × Nat) : Nat × Nat × Nat × Nat :=
  let (c0, c1, c2, c3) := c
  let p0 := 0xD2511F53 * c0
  let p1 := 0xCD9E8D57 * c2
  (Nat.xor (Nat.xor (p1 / 2 ^ 32) c1) k0, p1 % 2 ^ 32, Nat.xor (Nat.xor (p0 / 2 ^ 32) c3) k1, p0 % 2 ^ 32)

def philoxGo : Nat → Nat → Nat → Nat × Nat × Nat × Nat → Nat × Nat × Nat × Nat
  | 0, _, _, c => c
  | n + 1, k0, k1, c =>
    philoxGo n ((k0 + 0x9E3779B9) % 2 ^ 32) ((k1 + 0xBB67AE85) % 2 ^ 32) (philoxRound k0 k1 c)

/-- Output word 0 of Philox-4×32-10. -/
def philox (seed draw : U64) (h : U32) : Nat :=
  (philoxGo 10 (seed.toNat % 2 ^ 32) (seed.toNat / 2 ^ 32) (draw.toNat % 2 ^ 32, draw.toNat / 2 ^ 32, h.toNat, 0)).1

/-- u = word₀ × 2⁻³² in binary64. -/
def uniform (seed draw : U64) (h : U32) : U64 := toF64q false (philox seed draw h) 1 (-32)

/-- The first kept entry whose cumulative probability exceeds u; where rounding leaves none, a free choice. -/
def pick (l : List (U64 × U32)) (total u : U64) (free : Nat) : U32 :=
  let go := l.foldl (fun (a : U64 × Option U32) x =>
    let c := add64 a.1 (div64 (ofF64 x.1) (ofF64 total))
    (c, match a.2 with | some t => some t | none => if f64Lt u c then some x.2 else none)) (0, none)
  match go.2 with
  | some t => t
  | none => match l[Config.freeNat free % max 1 l.length]? with
    | some x => x.2
    | none => 0

/-! ### Verification and commit (10 R272 to R274, 02 R54) -/

/-- What the sampling stage knows of a row: handle, committed position, NEW_LEFT, DRAW, STOP_MATCH and its model's
limits. -/
structure RowBase where
  handle  : U32
  pos     : Nat
  left    : Nat
  draw    : U64
  match_  : U16
  eos     : U32
  ctxLen  : Nat
  flags   : Bool × Bool

/-- The commit in progress. -/
structure Fin_ where
  recs   : List Rec
  acc    : Nat
  draw   : U64
  match_ : U16
  left   : Nat
  status : U8
  trunc  : Nat
  fault  : Bool
  free   : Nat

/-- Largest m below the sequence's length for which the tokens' last m equal its first m. -/
def stopLen (sq toks : List U32) : Nat :=
  ((List.range sq.length).filter (fun m => decide (m ≤ toks.length) && toks.drop (toks.length - m) = sq.take m)).foldl max 0

/-- One stop sequence after a token: its new matched length, and whether it completed (10 R274). -/
def stopStep (sq : List U32) (m : Nat) (tok : U32) : Nat × Bool :=
  if sq = [] then (0, false) else
    let toks := sq.take m ++ [tok]
    (stopLen sq toks, decide (toks.drop (toks.length - sq.length) = sq))

/-- The four stop sequences of a profile. -/
def stopSeqs (f : ProfileF) : List (List U32) :=
  (List.range 4).map (fun j => (f.stop.getD j []).take ((stopLens f.stopLen).getD j 0))

/-- STOP_MATCH after a token, and whether a sequence completed. -/
def stopNext (f : ProfileF) (x : U16) (tok : U32) : U16 × Bool :=
  let l := (List.range 4).map (fun j => stopStep ((stopSeqs f).getD j []) (x.toNat / 16 ^ j % 16) tok)
  (BitVec.ofNat 16 (((List.range 4).map (fun j => (l.getD j (0, false)).1 * 16 ^ j)).sum), l.any (fun e => e.2))

/-- Commit a token at a position: it is recorded and tested against the end causes in the order of 02 R54. -/
def Fin_.commit (b : RowBase) (f : ProfileF) (pos : Nat) (tok : U32) (drafted trunc : Bool) (x : Fin_) : Fin_ :=
  let (m, stop) := stopNext f x.match_ tok
  let st : U8 := if tok = b.eos then 0x01 else if stop then 0x03 else if x.left ≤ 1 then 0x02
    else if b.ctxLen ≤ pos + 1 then 0x04 else 0
  { x with
    recs := x.recs ++ [{ token := tok, position := BitVec.ofNat 24 pos, draft := drafted, trunc := trunc,
                         switched := b.flags.1, fellBack := b.flags.2 }]
    match_ := m
    left := x.left - 1
    status := st
    acc := x.acc + b2n drafted
    trunc := x.trunc + b2n trunc }

/-- Draw from a distribution, without `less` (10 R272); a greedy or point selection consumes no draw. -/
def Fin_.draw_ (b : RowBase) (f : ProfileF) (d : Dist) (less : Option U32) (pos : Nat) (x : Fin_) : Fin_ :=
  match d with
  | .none_ => { x with fault := true }
  | .point t => x.commit b f pos t false false
  | .kept l trunc =>
    let l := match less with | some g => l.filter (fun e => e.2 ≠ g) | none => l
    let total := sum64 l
    if !usable total then { x with fault := true } else
      let u := uniform f.seed x.draw b.handle
      { x with draw := x.draw + 1, free := x.free + 1 }.commit b f pos (pick l total u x.free) false trunc

/-- Verify the guesses from row-position `i` on and commit (10 R272). -/
def verify (b : RowBase) (f : ProfileF) (ps : List PPos) : List U32 → Nat → Fin_ → Fin_
  | [], i, x => x.draw_ b f (dist f (ps.getD i {})) none (b.pos + i + 1)
  | g :: gs, i, x =>
    let pos := b.pos + i + 1
    match dist f (ps.getD i {}) with
    | .none_ => { x with fault := true }
    | .point t =>
      let x' := x.commit b f pos t (g = t) false
      if g ≠ t || x'.status ≠ 0 then x' else verify b f ps gs (i + 1) x'
    | .kept l trunc =>
      let u := uniform f.seed x.draw b.handle
      let x := { x with draw := x.draw + 1 }
      let q := match l.find? (fun e => e.2 = g) with | some e => div64 (ofF64 e.1) (ofF64 (sum64 l)) | none => 0
      if f64Lt u q then
        let x' := x.commit b f pos g true trunc
        if x'.status ≠ 0 then x' else verify b f ps gs (i + 1) x'
      else x.draw_ b f (.kept l trunc) (some g) pos

/-! ### Rows of the open manifest -/

/-- The model slot whose descriptor a row's lists obey: the request's, or the group's on a follower. -/
def State.rowModel (s : State) (h : U32) : Nat :=
  match s.reqH h with
  | some r => r.model.toNat
  | none => s.teth.model.toNat

/-- The base of a row: its request's fields, or its mirrored row's on a sampler that is no leader (13 R334). -/
def State.rowBase (s : State) (p : PRow) : RowBase :=
  let d := s.desc (s.rowModel p.handle)
  let eos := match d with | some d => d.eos | none => 0
  let ctxLen := match d with | some d => d.contextLen.toNat | none => 0
  match s.reqH p.handle with
  | some r =>
    let pos := if r.state = .prefill || r.state = .fallback then r.log.length - 1 else r.committed.getD 0
    ⟨p.handle, pos, r.newLeft, r.draw, r.stopMatch, eos, ctxLen, (r.switched, r.fellBack)⟩
  | none => match s.teth.mirrors.find? (fun m => m.handle = p.handle) with
    | some m => ⟨p.handle, (match m.chunk with | some c => c.first + c.len - 1 | none => m.committed.getD 0), m.newLeft, m.draw, m.stopMatch, eos, ctxLen, (false, false)⟩
    | none => ⟨p.handle, 0, 0, 0, 0, eos, ctxLen, (false, false)⟩

/-- The sampling stage on a complete row (10 R272). -/
def State.outcome (s : State) (p : PRow) : Outcome × Fin_ :=
  let b := s.rowBase p
  let x := verify b p.prof p.pos ((p.tokens.drop 1).take p.d) 0 ⟨[], 0, b.draw, b.match_, b.left, 0, 0, false, s.free⟩
  let recs := x.recs.map (fun r => { r with accepted := BitVec.ofNat 4 x.acc })
  (⟨recs, x.acc, x.draw, x.match_, x.status, x.fault, (p.pos.getD x.acc {}).guess⟩, x)

/-- A record of the sampling stage (10 R267). -/
def sampleEmpty (p : PRow) (s : State) : State :=
  let num := match s.sow.exec with | some x => x.num.toNat | none => 0
  let s := onPrn (fun q => { q with empty := satInc q.empty }) s
  logErr { code := 0x0C, scope := 1, island := 11, tenant := some (hTenant p.handle), addr := p.row.toNat,
           handle := p.handle.toNat, step := num } s

/-- Close a row with nothing committed (09 R245, 15 R373); the stack-stream items that no wave holds back now are issued (R242). -/
def closeRow (row : BitVec 13) (s : State) : State :=
  issueStack (onPRow row (fun p => { p with state := .closed, out := none, pos := p.pos.map (fun x => { x with list := [] }) }) s)

/-- TOKENS entry of an outcome (13 R343). -/
def commitEntry (row : BitVec 13) (o : Outcome) : CommitE :=
  let bits (f : Rec → Bool) : Nat := ((List.range o.tokens.length).map (fun i => b2n (f (o.tokens.getD i {})) * 2 ^ i)).sum
  ⟨row, o.tokens.map (fun r => r.token), o.status, BitVec.ofNat 3 o.accepted, BitVec.ofNat 5 (bits (fun r => r.trunc)),
    BitVec.ofNat 5 (bits (fun r => r.draft)), o.stopMatch, o.draw⟩

/-- The sampler of a group sends what a row commits (13 R343): each row that is no longer open in a part of its own. -/
def sendTokens (e : CommitE) (s : State) : State :=
  if s.grouped && s.teth.sampler = s.teth.index then
    let num := match s.sow.exec with | some x => x.num | none => 0
    let n := (s.prn.rows.filter (fun q => q.state ≠ .opened)).length
    sendFrame 0x04 num (n - 1) (.tokens (s.ownMeta num (n - 1) (decide (n = s.prn.rows.length)) false false) [e]) s
  else s

/-- The entry of a row that ends FAULT with nothing committed. -/
def State.faultEntry (s : State) (p : PRow) : CommitE :=
  let b := s.rowBase p
  ⟨p.row, [], 0x30, 0, 0, 0, b.match_, b.draw⟩

/-- A row torn down on a sampler that follows: it closes, and the leader hears that its request ends with FAULT (09 R245; 13 R343). -/
def tellTorn (row : BitVec 13) (s : State) : State :=
  match s.prn.rows.find? (fun p => p.row = row && p.state = .opened) with
  | some p => sendTokens (s.faultEntry p) (closeRow row s)
  | none => s

/-- The request context of a mirrored row on a follower (06 R170; 13 R334): its items and flow go, the step is discarded for it here,
and a sampler tells the leader that the request ends with FAULT (09 R245). -/
def teardownMirror (m : Mirror) (row : BitVec 13) (s : State) : State :=
  let bed := ((s.disp.items.find? (fun i => i.rows = [row])).map (fun i => i.bed)).getD 0
  let n := (s.disp.items.filter (fun i => i.rows = [row])).length
  let s := trace 5 0 0 (some (hTenant m.handle)) m.handle.toNat row.toNat n bed s
  let s := tornEnds m.handle row bed (removeItems (fun i => i.rows = [row]) (dropChunk m.handle s))
  schedule (discardRows [m.handle] (tellTorn row s))

/-- The request context of a handle is torn down: of a request, or of a mirrored row on a follower (06 R170; 13 R334). -/
def tearRow (h : U32) (s : State) : State :=
  match s.reqH h, s.teth.mirrors.find? (fun m => m.handle = h) with
  | some _, _ => teardownReq h s
  | none, some m => match m.row with
    | some row => teardownMirror m row s
    | none => s
  | none, none => s

/-- Bed-context teardown: the step is discarded for its rows, which end with FAULT; a sampler that
follows tells the leader of mirrored ones (06 R171; 13 R343). -/
def teardownBed (b c : Nat) (s : State) : State :=
  let hs := s.ctxRows b c
  let s := teardownCtx b c s
  let s := each (hs.filterMap (fun h => (s.mirror h).bind (fun m => m.row))) tellTorn s
  let s := if s.stepOpen then discardRows hs s else s
  schedule (each hs (fun h s =>
    let s := dropChunk h s
    if (s.reqH h).isSome then handOver h (.stop 0x30) s else s) s)

/-- Fence a core: it is recorded, its items return as STALE, and a bed left without a core has its contexts torn down
(15 R380). -/
def fenceCore (c : Nat) (s : State) : State :=
  match s.core c with
  | none => fence c s
  | some k =>
    let s := fence c s
    if s.disp.cores.any (fun e => e.2.bed = k.bed) then schedule s
    else each ((List.range 4).filter (fun x => (s.ctx k.bed x).model.isSome)) (fun x s => teardownBed k.bed x s) s

/-- A malformed list or completion: counted, recorded, the row closed and its request torn down; a sampler that is not the leader
tells the leader (09 R245, R251). -/
def malformed (row : BitVec 13) (h : U32) (core : Bool) (unit addr : Nat) (s : State) : State :=
  let num := match s.sow.exec with | some x => x.num.toNat | none => 0
  let s := onPrn (fun q => { q with malformed := satInc q.malformed }) s
  let s := logErr { code := 0x0A, scope := 1, island := 11, origin := if core then 1 else 2, unit,
                    tenant := some (hTenant h), addr, handle := h.toNat, step := num } s
  let s := closeRow row s
  let s := match s.prn.rows.find? (fun p => p.row = row) with
    | some p => sendTokens (s.faultEntry p) s
    | none => s
  tearRow h s

/-- Finalise a complete row (09 R252): its outcome stands until the seal; the sampler of a group sends it. -/
def finaliseRow (p : PRow) (s : State) : State :=
  let (o, x) := s.outcome p
  let s := { s with free := x.free }
  let s := onPRow p.row (fun q => { q with state := .final, out := some o, pos := q.pos.map (fun x => { x with list := [] }) }) s
  let s := onPrn (fun q => { q with trunc := satAdd q.trunc x.trunc }) s
  let s := trace 16 2 0 (some (hTenant p.handle)) p.handle.toNat p.row.toNat o.tokens.length p.skips s
  let s := if o.fault then teardownReq p.handle (sampleEmpty p s) else s
  let e := commitEntry p.row o
  schedule (issueStack (sendTokens (if o.fault then { e with status := 0x30 } else e) s))

/-- A row-position has its T lists. -/
def PRow.complete (p : PRow) : Bool := p.pos.all (fun x => x.shards = p.t)

/-- A position with its T lists fails the check that its shard sum is T(T − 1)/2 (09 R251). -/
def PPos.sumBad (x : PPos) (t : Nat) : Bool := x.shards = t && x.sum * 2 ≠ t * (t - 1)

/-- Finalise the rows that are complete. A sampler that follows waits for the step token (05 R136). -/
def finaliseReady (s : State) : State :=
  let wait := s.grouped && !s.leader && (match s.sow.exec with | some x => decide (s.teth.tokStep.toNat < x.num.toNat) | none => true)
  if wait then s else
    each (s.prn.rows.filter (fun p => p.state = .opened && p.complete)) finaliseRow s

/-! ### The end of a step (05 R127) -/

/-- Bring the seal point and the end of the executing step up to date. -/
def checkEnd (s : State) : State :=
  match s.sow.exec with
  | none => s
  | some x =>
    if !x.dispatched || x.ended then s else
    let open_ := s.prn.rows.any (fun p => p.state = .opened)
    let bound := s.disp.items.any (fun i => i.bound && i.step = x.num)
    let point : Bool := if s.prn.rows = [] then !bound else !open_
    let s := if point && x.sealAt.isNone then
        let x' : Step := { x with sealAt := some s.ctl.lcc }
        { s with sow := { s.sow with exec := some x' }, led := { s.led with inInt := false } }
      else s
    if point && !bound && x.stack = [] && x.coll = 0 then
      let s := { s with sow := { s.sow with exec := s.sow.exec.map (fun (x : Step) => { x with ended := true }) } }
      sendStatus x.num x.slowed s
    else s

/-! ### Arrivals -/

/-- Header bytes 0 to 3 of a list (09 R237). -/
def plHead (l : PList) : Nat :=
  l.row.toNat + b2n l.parity * 2 ^ 13 + l.dpos.toNat * 2 ^ 14 + l.shard.toNat * 2 ^ 17

/-- Header bytes 0 to 7 of a list. -/
def plHead8 (l : PList) : Nat := plHead l + l.count.toNat * 2 ^ 32

/-- The open row a list or guess names, unless it is stray (09 R244). -/
def State.openRow (s : State) (row : BitVec 13) (parity : Bool) : Option PRow :=
  match s.sow.exec with
  | none => none
  | some x =>
    if x.num.getLsbD 0 ≠ parity then none else
    match s.prn.rows.find? (fun p => p.row = row) with
    | some p => if p.state = .opened && !x.discard.contains p.handle then some p else none
    | none => none

def vocabOf (s : State) (h : U32) : Nat := match s.desc (s.rowModel h) with | some d => d.vocab.toNat | none => 0

/-- A lane takes a partial list from its queue, or the port drops one that belongs to no lane (09 R244 to R252). -/
def listMerges (l : PList) (s : State) : State :=
  match s.openRow l.row l.parity with
  | none =>
    trace 17 2 0 none 0 l.row.toNat 0 (plHead l) (onPrn (fun q => { q with stray := satInc q.stray }) s)
  | some p =>
    let pos := p.pos.getD l.dpos.toNat {}
    let bad : Bool := decide (p.d < l.dpos.toNat) || decide (p.t ≤ l.shard.toNat) || decide (64 < l.count.toNat)
      || (l.entries.take l.count.toNat).any (fun e => e.2.2 && decide (vocabOf s p.handle ≤ e.2.1.toNat)) || decide (p.t ≤ pos.shards)
    if bad then
      checkEnd (malformed p.row p.handle l.core l.unit (plHead8 l)
        (trace 17 2 0 (some (hTenant p.handle)) p.handle.toNat l.row.toNat 1 (plHead l) s))
    else
      let (q, nans, skip, free) := pos.merge p.k { l with entries := l.entries.take l.count.toNat } s.free
      let s := onPRow p.row (fun r => { r with pos := lupd l.dpos.toNat (fun _ => q) r.pos, skips := r.skips + b2n skip }) s
      let s := onPrn (fun c => { c with nan := satAdd c.nan nans, skip := if skip then satInc c.skip else c.skip }) { s with free := free }
      if q.sumBad p.t then checkEnd (malformed p.row p.handle l.core l.unit (plHead8 l)
        (trace 17 2 0 (some (hTenant p.handle)) p.handle.toNat l.row.toNat 1 (plHead l) s))
      else checkEnd (finaliseReady (progressNow s))

def onLane (k : Nat) (f : Lane → Lane) (s : State) : State := onPrn (fun p => { p with lanes := lupd k f p.lanes }) s

/-- The lane of a row of the open manifest. -/
def State.laneOf (s : State) (row : BitVec 13) : Option Nat := (s.prn.rows.find? (fun p => p.row = row)).map (fun p => p.lane)

/-- The port routes a list to its lane's queue of 16; while that is full the port holds the list and the grant (09 R236, R243). -/
def routeList (l : PList) (k : Nat) (s : State) : State :=
  if 16 ≤ ((s.prn.lanes.getD k {}).queue).length then onPrn (fun p => { p with port := some l }) s
  else onLane k (fun x => { x with queue := x.queue ++ [l] }) s

/-- A lane drains its queue, and the list that the port holds (09 R243); `n` bounds the lists. -/
def drainLane (k : Nat) : Nat → State → State
  | 0, s => s
  | n + 1, s =>
    match (s.prn.lanes.getD k {}).queue with
    | [] => s
    | l :: _ =>
      let s := onLane k (fun x => { x with queue := x.queue.drop 1 }) s
      let s := match s.prn.port with
        | some h => if s.laneOf h.row = some k then routeList h k (onPrn (fun p => { p with port := none }) s) else s
        | none => s
      drainLane k n (listMerges l s)

/-- A partial list arrives at the ingest port; the NoC bridge drops one of a fenced core (15 R380). A lane works on no command's time: it drains its queue at once (DESIGN CHOICE, log
entry 64). -/
def listArrives (l : PList) (s : State) : State :=
  if l.core && s.wdog.fenced.contains l.unit then s else
  match s.laneOf l.row with
  | none => listMerges l s
  | some k => drainLane k 17 (routeList l k s)

/-- A guess record arrives (10 R270; 15 R380). -/
def guessArrives (g : Guess) (s : State) : State :=
  if g.core && s.wdog.fenced.contains g.unit then s else
  match s.openRow g.row g.parity with
  | none => onPrn (fun q => { q with stray := satInc q.stray }) s
  | some p =>
    if decide (p.d < g.dpos.toNat) || decide (4 < g.heads.toNat) || ((p.pos.getD g.dpos.toNat {}).guess).isSome then
      onPrn (fun q => { q with guessBad := satInc q.guessBad }) s
    else progressNow (onPRow p.row (fun r =>
      { r with pos := lupd g.dpos.toNat (fun x => { x with guess := some (g.guesses.take g.heads.toNat) }) r.pos }) s)

/-! ### The manifest (09 R238 to R241) -/

/-- T: shards of a row-position. -/
def shardCount (vocab : Nat) : Nat := cdiv vocab 4096

/-- Place manifest rows into waves in order: the wave, the member count of the wave and the entries on each lane. -/
def placeRows : List PRow → Nat → Nat → List (Nat × Nat) → List PRow
  | [], _, _, _ => []
  | p :: ps, w, j, used =>
    let n := p.k * (1 + p.d)
    let lane := j % 64
    if decide (4096 ≤ j) || decide (4096 < (mget lane used).getD 0 + n) then
      { p with wave := w + 1, lane := 0 } :: placeRows ps (w + 1) 1 [(0, n)]
    else { p with wave := w, lane := lane } :: placeRows ps w (j + 1) (mput lane ((mget lane used).getD 0 + n) used)

def waveCount (rows : List PRow) : Nat := match rows.getLast? with | some p => p.wave + 1 | none => 0

/-- Open the rows of a step's manifest. -/
def openManifest (rows : List PRow) (s : State) : State :=
  let rows := placeRows rows 0 0 []
  { onPrn (fun q => { q with rows := rows }) s with sow := { s.sow with waves := BitVec.ofNat 3 (waveCount rows) } }

end Sys2Proof.Machine
end

