-- ==== Sys2Proof/Machine/Seal.lean ====
section
/-! DEFINITION. Compositions (05 R110 to R127, R448): the seal of a step and the seal without a step: commits, ends, holds,
pauses, settings, graft switches, rows taken in, manifests and arguments. -/

namespace Sys2Proof.Machine

/-! ### Commits of the step that ended (10 R275, 05 R112) -/

/-- The token rate after a step that committed `n` tokens (11 R306). -/
def rateAfter (a : U32) (n : Nat) : U32 :=
  let c := toF32 (ofNatNum n)
  let diff := toF32 ((ofF32 c).add (ofF32 a).neg)
  add32 a (div32 (ofF32 diff) (ofNatNum 4))

/-- The row's chunk has closed: its flow is free and its duration is kept for the deadline monitor. -/
def closeChunk (h : U32) (s : State) : State :=
  match s.reqH h with
  | none => s
  | some r =>
    let s := match r.flow with
      | some f => onDisp (fun d => { d with flows := mdel f.toNat d.flows }) s
      | none => s
    s.onReqH h (fun r =>
      { r with
        flow := none
        lastChunk := r.chunk.map (fun c => (s.ctl.lcc.toNat - c.began.toNat, c.len))
        chunk := none })

/-- Apply a row's outcome: committed position, NEW_LEFT, DRAW, STOP_MATCH, token log, records, and the ids of the next
step (10 R271, R275). -/
def applyOutcome (h : U32) (o : Outcome) (s : State) : State :=
  let n := o.tokens.length
  let toks := o.tokens.map (fun t => t.token)
  if (s.reqH h).isNone then
    -- a sampler that follows: its mirrored row (13 R334)
    onMirror h (fun m =>
      { m with
        committed := match o.tokens.getLast? with | some t => some t.position.toNat | none => m.committed
        newLeft := m.newLeft - n
        draw := o.draw
        stopMatch := o.stopMatch
        chunk := if n = 0 then m.chunk else none
        tokens := match toks.getLast? with | some t => t :: o.guesses.getD [] | none => m.tokens }) s
  else
  let s := s.onReqH h (fun r =>
    let last := match o.tokens.getLast? with | some t => some t.position.toNat | none => r.committed
    { r with
      committed := last
      newLeft := r.newLeft - n
      draw := o.draw
      stopMatch := o.stopMatch
      log := r.log ++ toks
      newRecs := r.newRecs ++ o.tokens
      tokensOut := r.tokensOut + n
      draftsOk := r.draftsOk + o.accepted
      tokens := match toks.getLast? with | some t => t :: o.guesses.getD [] | none => r.tokens
      rate := if n = 0 then r.rate else rateAfter r.rate n })
  s.onTen (hTenant h) (fun x => { x with tokensOut := x.tokensOut + BitVec.ofNat 64 n })

/-- Processed prefill positions after a chunk that does not end the prefill, or a replay that ends (07 R206). -/
def advance (h : U32) (c : Chunk) (s : State) : State :=
  match s.reqH h with
  | none => s
  | some r =>
    let s := closeChunk h s
    if r.replay then
      if c.ends then
        let st := r.replayTo
        moveReq h st (s.onReqH h (fun r =>
          { r with
            replay := false
            restore := none
            tokens := if st = .decode then r.log.getLast?.toList else []
            next := if st = .decode then r.log.length else c.first + c.len }))
      else s.onReqH h (fun r => { r with next := c.first + c.len })
    else s.onReqH h (fun r => { r with next := c.first + c.len, committed := some (c.first + c.len - 1) })

/-- A prefill whose last chunk's step committed the first new token: the row becomes DECODE (02 R45, 05 R112). -/
def prefillEnds (h : U32) (s : State) : State :=
  moveReq h .decode ((closeChunk h s).onReqH h (fun r => { r with next := r.log.length }))

/-- Apply what one member did in the step that ended. -/
def applyMember (x : Step) (m : Member) (s : State) : State :=
  if x.discard.contains m.handle then
    -- a bound chunk of a discarded row is issued again; a carried one loses only its projection (05 R134)
    match m.chunk with
    | some c =>
      if c.bound then dropChunk m.handle s
      else s.onReqH m.handle (fun r => { r with chunk := r.chunk.map (fun c => { c with projDue := false }) })
    | none => s
  else
    let out := match s.prn.rows.find? (fun p => p.handle = m.handle) with | some p => p.out | none => none
    match m.chunk with
    | none => match out with | some o => applyOutcome m.handle o s | none => s
    | some c =>
      match s.reqH m.handle with
      | none => match out with | some o => applyOutcome m.handle o s | none => s
      | some r =>
        if r.replay then (if c.bound then advance m.handle c s else s)
        else if c.finishing then
          match out with
          | some o =>
            let s := applyOutcome m.handle o s
            if o.tokens = [] then s else prefillEnds m.handle s
          | none => if c.bound then dropChunk m.handle s
            else s.onReqH m.handle (fun r => { r with chunk := r.chunk.map (fun c => { c with projDue := false }) })
        else if c.bound then advance m.handle c s
        else s

/-- Carried chunks whose layers are complete: one that ends no prompt closes at the composition; one that does has written the KV
of its last position, and its projection is still to come (R112, R123). -/
def closeCarried (s : State) : State :=
  each ((s.reqs.map (fun e => e.2)).filter (fun r => match r.chunk with
    | some c => !c.bound && c.layers
    | none => false)) (fun r s => match r.chunkDone, r.chunk with
      | some c, _ => advance r.handle c s
      | none, some c => s.onReqH r.handle (fun r => { r with committed := some (c.first + c.len - 1) })
      | none, none => s) s

/-- The positions of a row from 0 on whose KV has been written: those of a carried chunk whose layers are complete among them (R112,
R123). -/
def Req.written (r : Req) : Nat :=
  if r.state = .decode then r.log.length else match r.chunk with
    | some c => if !c.bound && c.layers then c.first + c.len else r.next
    | none => r.next

/-! ### Ends, holds and pauses (02 R37, R38, R48, R55; 05 R118) -/

/-- Rank of an end cause (02 R55). -/
def endRank (st : U8) : Nat :=
  match st.toNat with
  | 0x31 => 2 | 0x30 => 3 | 0x32 => 3 | 0x33 => 3 | 0x10 => 4 | 0x23 => 5 | 0x20 => 6 | 0x21 => 7 | 0x22 => 8 | _ => 9

/-- The end status an event asks for, given whether the request runs and holds a row. -/
def RowEv.ends (e : RowEv) (running row : Bool) : Option U8 :=
  match e with
  | .cancel => some 0x10
  | .stop st =>
    if st = 0x23 then (if running then some st else none)
    else if st = 0x20 || st = 0x21 || st = 0x22 then (if row then some st else none)
    else some st
  | _ => none

/-- The first end cause of R55 among the events that are due. Of the causes in its item 3, which have no order among them, the one
handed over first (DESIGN CHOICE, log entry 62). -/
def endCauseOf (evs : List RowEv) (running row : Bool) : Option U8 :=
  (evs.filterMap (fun e => e.ends running row)).foldl (fun b st => match b with
    | none => some st
    | some x => if endRank st < endRank x then some st else some x) none

/-- A PAUSE of a request without a row (02 R37, R38, R47; 04 R92): HELD_PLOTS becomes COLD; a PAUSED or COLD request takes the new
time to live. -/
def pauseNow (h : U32) (ttl : U32) (s : State) : State :=
  match s.reqH h with
  | none => s
  | some r =>
    let s := if r.state = .heldPlots then
        let s := stopRestore (hSlot h) (moveReq h .cold s)
        { (s.onReqH h (fun r => { r with holds := { r.holds with plots := false }, restore := none })) with
          sow := { s.sow with returning := s.sow.returning.filter (fun x => x ≠ h) } }
      else s
    if r.state = .heldPlots || r.state = .paused || r.state = .cold then
      s.onReqH h (fun r => { r with expiry := some (s.expiryOf ttl) })
    else s

/-- Pause a request that holds a row (02 R37, R47). -/
def pauseRow (h : U32) (ttl : U32) (s : State) : State :=
  (leaveRow h (moveReq h .paused s)).onReqH h (fun r => { r with expiry := some (s.expiryOf ttl) })

/-- A turn end (02 R48): the END record, the pause, and the time to live of the ADMIT or of a PAUSE at the same
composition (04 R92). -/
def turnEnd (h : U32) (st : U8) (ttl : Option U32) (s : State) : State :=
  match s.reqH h with
  | none => s
  | some r =>
    let s := s.onReqH h (fun r =>
      { r with newRecs := r.newRecs ++ [r.endRec st], endStatus := st, turnEnd := true, stopMatch := 0 })
    pauseRow h (ttl.getD r.adm.turnTtl) s

/-- The own commit's end status of a row in the step that ended. -/
def ownEnd (x : Option Step) (h : U32) (s : State) : U8 :=
  match x with
  | none => 0
  | some x => if x.discard.contains h then 0 else
    match s.prn.rows.find? (fun p => p.handle = h) with
    | some p => (match p.out with | some o => o.status | none => 0)
    | none => 0

/-- The backlog of a row at the seal (10 R280). -/
def Req.backlog (r : Req) : Nat := if r.spoolBuf = 0 then 0 else r.spoolBuf + r.unreleased

/-- Pre-emption (05 R129 step 5): the row is given up, its plots are spilled, and its restore waits from now on in the order of the
pre-emptions (07 R205). -/
def preemptRow (h : U32) (s : State) : State :=
  let s := leaveRow h (moveReq h .heldPlots s)
  let s := { s with seq := s.seq + 1 }.onReqH h (fun r =>
    { r with heldSeq := s.seq, holds := { r.holds with plots := true }, restore := some ⟨false, [], none, false⟩ })
  pumpMoves (queueSpill (hSlot h) .pressure s)

/-- The version that a composition moves a request to: in a group the one that the layout's manifest carries (08 R225). -/
def State.followTo (s : State) (sw : List (U32 × (BitVec 12 × U16))) (r : Req) : Option (BitVec 12 × U16) :=
  if s.grouped && r.model = s.teth.model then (sw.find? (fun e => e.1 = r.handle)).map (fun e => e.2) else s.followVer r

/-- A request moves to a newer version of its graft, and leaves a graft hold of the older one (08 R225, R232). -/
def Req.follow (n : Nat) (v : BitVec 12 × U16) (r : Req) : Req := { r with graft := some v, switched := true, noOffer := true }.lift 2 n

/-- Take back holds handed to the Sower for a row and not yet applied. -/
def forgetHolds (h : U32) (ks : List (Fin 5)) (s : State) : State :=
  { s with sow := { s.sow with events := s.sow.events.filter (fun e => !(e.handle = h && ks.any (fun k => decide (e.ev = .hold k)))) } }

/-- Move a row to the newer version of its graft that stands at this seal (08 R225); it leaves a graft hold of the older one, one that
is due later included (R232). -/
def followReq (sw : List (U32 × (BitVec 12 × U16))) (h : U32) (s : State) : State :=
  match s.reqH h with
  | none => s
  | some r => match s.followTo sw r with
    | some v => forgetHolds h [2] { s.onReqH h (Req.follow s.seq v) with seq := s.seq + 1 }
    | none => s

/-- What a composition does to one request: its end, hold or pause (R124, 02 R38, R55). A row that commits 64 records into a full
spool keeps that hold condition through a turn end. At a turn end a pre-emption of the same seal is dropped: the request is paused
with its plots in place, and of several PAUSEs due together the first one's TTL holds (DESIGN CHOICE, log entry 62). -/
def composeReq (sw : List (U32 × (BitVec 12 × U16))) (x : Option Step) (evs : List RowEv) (h : U32) (s : State) : State :=
  match s.reqH h with
  | none => s
  | some r =>
    if r.state = .ended then s else
    let st := ownEnd x h s
    let pause := evs.findSome? (fun e => match e with | .pause t => some t | _ => none)
    let holds := evs.filterMap (fun e => match e with | .hold k => some k | _ => none)
    let full : Bool := r.state = .decode && decide (64 ≤ r.backlog)
    let s := s.onReqH h (fun r =>
      let a := holds.foldl (fun a k => a.put k true) r.holds
      { r with holds := { a with spool := a.spool || full }, pausePending := r.pausePending && pause.isNone })
    if st ≠ 0 then
      if r.adm.holdOnEnd && st ≠ 0x04 then
        let s := turnEnd h st pause s
        match endCauseOf evs false false with
        | some e => endReq h e s
        | none => s
      else endReq h st s
    else match endCauseOf evs r.state.running r.row.isSome with
      | some e => endReq h e s
      | none =>
        if r.row.isNone then (match pause with | some t => pauseNow h t s | none => s) else
        let s := followReq sw h s
        if evs.contains .preempt && r.state.running then
          let s := preemptRow h s
          match pause with
          | some t => (moveReq h .cold s).onReqH h (fun r =>
              { r with expiry := some (s.expiryOf t), holds := { r.holds with plots := false }, restore := none })
          | none => s
        else match pause with
          | some t => pauseRow h t s
          | none => match (s.reqH h).bind (fun r => r.holds.shown) with
            | some st => moveReq h st s
            | none => s

/-! ### Settings that apply at a composition (04 R107) -/

/-- Apply a setting; `first` for the first BED_CONFIG of its bed at this composition (06 R160). -/
def applySetting (first : Bool) (x : Setting) (s : State) : State :=
  match x with
  | .bed f => applyBed first f s
  | .shares f => s.onTen f.tenant.toNat (fun y => { y with weight := f.weight, rowCap := f.rowCap, maxClass := f.maxClass })
  | .cyclic f => { s with sow := { s.sow with cyc := ⟨f.tenantA, f.tenantB, f.length, f.entries, 0, s.sow.cyc.gen + 1⟩ } }
  | .policy f => s.onTen f.tenant.toNat (fun y => { y with policy := f.policy, margin := f.margin })

/-- The bed that a setting configures. -/
def Setting.bed? : Setting → Option (BitVec 5)
  | .bed f => some f.bed
  | _ => none

/-- Apply the settings that are due, and complete their messages and the pauses that took effect (04 R86, R92, R107). -/
def applySettings (k : Nat) (s : State) : State :=
  let due := s.pages.flatMap (fun g => g.started.filterMap (fun x => match x.wait with
    | .setting d y => if d ≤ k then some y else none
    | _ => none))
  let first (i : Nat) : Bool := match (due[i]?).bind Setting.bed? with
    | some b => !(due.take i).any (fun y => y.bed? = some b)
    | none => true
  let s := each ((List.range due.length).zip due) (fun e s => applySetting (first e.1) e.2 s) s
  finishAll (fun _ x => match x.wait with
    | .setting d _ => if d ≤ k then some (stOk, []) else none
    | .pause _ d _ => if d ≤ k then some (stOk, []) else none
    | _ => none) s

/-! ### Rows taken in and kept (02 R44, 05 R110, R117, R124, R144) -/

/-- Enter FALLBACK with the plots the layout reserved, or give them back (02 R51). Holds that the row was to take with its old slot or
graft go. Rows of a tainted slot are held (08 R219, R227); a row that enters a slot LOST meanwhile ends WEIGHTS_LOST (R230). -/
def enterFallback (h : U32) (s : State) : State :=
  match s.reqH h with
  | none => s
  | some r => match r.fbTable with
    | none => s
    | some (f, l) =>
      if !((r.state = .prefill || r.state = .decode) && r.row.isSome && !r.holds.any) then
        (each l (fun e s => dropRef e.plot s) s).onReqH h (fun r => { r with fbTable := none })
      else
        let s := forgetHolds h [1, 2] (dropChunk h s)
        let s := each r.table (fun e s => dropRef e.plot s) s
        let s := freeBlock r.model.toNat r.tableBlock s
        let bed := match s.bedFor f with | some b => BitVec.ofNat 5 b | none => r.bed
        let tainted : Bool := (s.slot f.toNat).state = .tainted
        (fun s => if tainted then moveReq h .heldWeights s
          else if (s.slot f.toNat).state = .lost then endCause h 0x32 s else s) <| moveReq h .fallback (s.onReqH h (fun r =>
          { r with
            holds := { r.holds with weights := tainted }
            table := l
            fbTable := none
            model := f
            graft := none
            fellBack := true
            bed := bed
            next := 0
            committed := none
            replay := false
            offered := 0
            tokens := []
            affinity := none
            tableRoot := Config.tableAddr (hSlot h) (blockBytes l.length)
            tableBlock := blockBytes l.length }))

/-- Issue a chunk: the row holds it, with a flow of its own, the promised one in a group. Of a chunk issued before, the projection may
fall due (R123). -/
def issueChunk (num : U64) (h : U32) (c : Chunk) (flow : Option (BitVec 12)) (s : State) : State :=
  if c.step ≠ num then s.onReqH h (fun r => { r with chunk := r.chunk.map (fun k => { k with projDue := k.projDue || c.projDue }) }) else
    match flow <|> s.freeFlow s.flowsPromised with
    | some f => onDisp (fun d => { d with flows := mput f.toNat ⟨0, 0, 0⟩ d.flows })
        (s.onReqH h (fun r => { r with chunk := some c, flow := some f }))
    | none => s.onReqH h (fun r => { r with chunk := some c })

/-- Complete the RESUME messages of a request that holds its row again (04 R93). -/
def resumed (h : U32) (s : State) : State :=
  let c := match s.reqH h with | some r => r.committed.getD 0 | none => 0
  finishAll (fun _ x => match x.wait with
    | .resume h' => if h' = h then some (stOk, [(16, c)]) else none
    | _ => none) s

/-- Take in a request that the layout chose: a row, a bed, its state, and a newer version of its graft under the follow policy (R124, 02
R37, 08 R225). Pending holds apply (02 R38). A tenant at its ROW_CAP takes nothing in. Stop sequences that changed meanwhile start afresh
(10 R274). -/
def takeIn (sw : List (U32 × (BitVec 12 × U16))) (num : U64) (m : Member) (s : State) : State × Bool :=
  let h := m.handle
  match s.reqH h with
  | none => (s, false)
  | some r0 =>
    let may := r0.row.isNone && decide (s.rowsOf (hTenant h) < (s.ten (hTenant h)).rowCap.toNat) && (r0.state = .admitted || (s.sow.returning.contains h &&
      (r0.state = .paused || r0.state = .cold || r0.state = .heldPlots)))
    let row := match m.row with | some x => some x | none => s.lowestRow num.toNat []
    match (if may then row else none), s.bedFor r0.model with
    | some row, some bed =>
      let r := match s.followTo sw r0.entering with
        | some v => r0.entering.follow s.seq v
        | none => r0.entering
      let st := r0.joinState
      let cur := (s.profOf r).map (fun p => (p.f.stopLen, p.f.stop))
      let s := s.onReqH h (fun _ =>
        { r with
          row := some row
          bed := BitVec.ofNat 5 bed
          joinStep := num
          rate := 0x3F800000
          lastChunk := none
          idle := false
          expiry := none
          tokens := if st = .decode then r.log.getLast?.toList else []
          stopMatch := if r.stops.isSome && r.stops ≠ cur then 0 else r.stopMatch
          restore := if r.replay then r.restore else none
          extendPending := false
          turnEnd := false
          holds :=
            { r.holds with
              plots := false
              weights := r.holds.weights || (s.slot r.model.toNat).state = .tainted
              graft := r.holds.graft || (match r.graft with
                | some (g, v) => s.gh.grafts.any (fun x => x.slot = g && x.ver = v && x.state = .tainted)
                | none => false) }
          stops := cur })
      let s := { s with sow := { s.sow with returning := s.sow.returning.filter (fun x => x ≠ h) } }
      let s := resumed h (moveReq h st s)
      match (s.reqH h).bind (fun r => r.holds.shown) with
      | some hs => (moveReq h hs s, false)
      | none => (s, true)
    | _, _ => (s, false)

/-- A row whose last hold has cleared returns to the state it left (02 R38). -/
def returnRow (h : U32) (s : State) : State :=
  match s.reqH h with
  | some r => if r.released then moveReq h (if r.replay then .prefill else r.left.getD .prefill) s else s
  | none => s

/-- Keep or take in a member; answers whether it is a member of the step (R124, R125). -/
def takeOrKeep (sw : List (U32 × (BitVec 12 × U16))) (num : U64) (m : Member) (s : State) : State × Bool :=
  let h := m.handle
  let (s, ok) := if m.joins then takeIn sw num m s else
    match s.reqH h with
    | some r =>
      if r.row.isNone || r.holds.any then (s, false)
      else if r.released then (returnRow h s, true)
      else (s, r.state.running)
    | none => (s, false)
  if !ok then (s, false) else
  match s.reqH h with
  | none => (s, false)
  | some r => match m.chunk with
    | none => (s, r.state = .decode)
    | some c =>
      if c.step = num then
        if (r.state = .prefill || r.state = .fallback) && r.chunk.isNone then (issueChunk num h c m.flow s, true) else (s, false)
      else if r.chunk.isSome then (issueChunk num h c none s, true) else (s, false)

/-- The depth of a member after the commit: never above what was laid out (R125, 10 R271, R280), nor above DRAFT_MAX of
the profile the step uses (04 R97). -/
def sealDepth (s : State) (r : Req) (d : Nat) : Nat :=
  let spool := if 60 ≤ r.backlog then 63 - r.backlog else 4
  if s.prn.lost.contains r.handle then 0 else
  min (min d (s.draftMax r)) (min (min (r.newLeft - 1) (s.contextLen r.model.toNat - 1 - r.committed.getD 0)) (min spool (r.tokens.length - 1)))

/-- The manifest row of a member with generation work or a prompt's last position (09 R240). -/
def manifestRow (s : State) (m : Member) : Option PRow :=
  match s.reqH m.handle with
  | none => none
  | some r => match r.row, s.profOf r, s.desc r.model.toNat with
    | some row, some p, some d =>
      let gen := match m.chunk with | none => true | some c => c.finishing && !r.replay
      if gen then some ⟨row, m.handle, p.f.topK.toNat, m.depth, shardCount d.vocab.toNat, 0, 0, p.f, r.tokens,
        List.replicate (1 + m.depth) {}, .opened, 0, none⟩ else none
    | _, _, _ => none

/-- Generation positions of a model among members. -/
def genOf (s : State) (ms : List Member) (m : Nat) : Nat :=
  (ms.map (fun x => match x.chunk with
    | none => (match s.reqH x.handle with | some r => if r.model.toNat = m then 1 + x.depth else 0 | none => 0)
    | some _ => 0)).sum

/-- A running row that is no member is idle; a row whose profile changed its stop sequences starts matching afresh
(R116, 10 R274). -/
def markRow (num : U64) (ms : List Member) (s : State) (r : Req) : Req :=
  if r.row.isNone then r else
    let mem := ms.find? (fun m => m.handle = r.handle)
    let cur := (s.profOf r).map (fun p => (p.f.stopLen, p.f.stop))
    { r with
      idle := r.state.running && mem.isNone
      stepIn := if mem.isSome then num else r.stepIn
      depth := match mem with | some m => m.depth | none => 0
      stopMatch := if r.stops.isSome && r.stops ≠ cur then 0 else r.stopMatch
      stops := cur }

/-! ### The composition -/

/-- The cores that completed chunk items since the last composition, in the rows' AFFINITY (06 R153). -/
def noteAffinity (s : State) : State :=
  { s with
    reqs := s.reqs.map (fun e => (e.1, if e.2.row.isNone then e.2 else
      match s.sow.affNow.find? (fun x => x.1 = e.2.handle) with
      | some x => { e.2 with affinity := some (BitVec.ofNat 10 x.2) }
      | none => e.2))
    sow := { s.sow with affNow := [] } }

/-- Rows that gave up their Trellis row, for a group's next manifest (13 R341). -/
def noteLeaves (before : List Req) (s : State) : State :=
  if s.grouped && s.leader then
    let ls := before.filterMap (fun r => match s.reqH r.handle, r.row with
      | some q, some row => if q.row.isNone then
          some (ManEntry.leave row (if q.state = .ended then q.endStatus else 0) (q.state = .paused)
            (q.state = .heldPlots || q.state = .cold))
        else none
      | _, _ => none)
    { s with teth := { s.teth with leaves := s.teth.leaves ++ ls } }
  else s

/-- Rows that committed with no guess record for the row-position that took their last token (10 R271); rows of a discarded step
commit nothing. -/
def State.unguessed (s : State) : List U32 :=
  let lost := match s.sow.exec with | some x => x.discard | none => []
  (s.prn.rows.filter (fun p => !lost.contains p.handle && (match p.out with
    | some o => o.guesses.isNone && o.tokens ≠ []
    | none => false))).map (fun p => p.handle)

/-- Commits, offers, ledger, ends, holds, pauses, settings and fallbacks: what every composition does (R124, R448). Frames released
here are released in the gap of the step that ended (R130). The offers of a seal go first, under the version the row leaves, and then the
switch to a newer one (07 R193, 08 R225; DESIGN CHOICE, log entry 62). -/
def composeCommon (l : Laid) (s : State) : State :=
  let x := s.sow.exec
  let k := s.sow.comp + 1
  let s := progressNow { s with sow := { s.sow with comp := k, freeFrom := s.sow.freeFrom.filter (fun e => decide (s.sow.step.toNat + 1 < e.2)) } }
  let s := onPrn (fun p => { p with lost := p.lost ++ s.unguessed.filter (fun h => !p.lost.contains h) }) s
  let s := match x with
    | some x =>
      let s := closeLedger x (if s.teth.held then s else { s with teth := { s.teth with applied := x.num } })
      each x.members (applyMember x) s
    | none => postEnergy s
  let s := closeCarried s
  let s := each ((s.reqs.filter (fun e => e.2.row.isSome)).map (fun e => (e.1, e.2.written)))
    (fun e s => offerAll e.1 e.2 s) s
  let due := s.sow.events.filter (fun e => e.due ≤ k && e.ev ≠ .fallback)
  let s := { s with sow := { s.sow with events := s.sow.events.filter (fun e => !(e.due ≤ k && e.ev ≠ .fallback)) } }
  let rowsBefore := (s.reqs.map (fun e => e.2)).filter (fun r => r.row.isSome)
  let s := each (s.reqs.map (fun e => e.2.handle)) (fun h s =>
    composeReq l.switches x ((due.filter (fun e => e.handle = h)).map (fun e => e.ev)) h s) s
  let s := noteAffinity (noteLeaves rowsBefore (applySettings k s))
  let s := each l.fallen enterFallback s
  { s with
    sow := { s.sow with exec := none, hist := if x.isSome then s.sow.histNow else s.sow.hist, histNow := [] }
    prn := { s.prn with rows := [] } }

/-- The Sower's fields of a request's Trellis row (R111). -/
def Req.rowNow (r : Req) : Row :=
  { handle := r.handle
    state := r.state
    left := r.left
    holds := r.holds
    cancel := r.cancelPending
    pause := r.pausePending
    idle := r.idle
    fellBack := r.fellBack
    switched := r.switched
    holdOnEnd := r.adm.holdOnEnd
    noOffer := r.noOffer
    model := r.model
    bed := r.bed
    cls := r.adm.cls
    graft := r.graft
    profile := r.adm.profile
    depth := r.depth
    spoolBuf := r.spoolBuf
    committed := r.committed
    promptEnd := r.promptEnd
    newLeft := r.newLeft
    spool := r.adm.spool
    flow := r.flow
    deadline := r.adm.deadline
    affinity := r.affinity
    carried := match r.chunk with | some c => !c.bound | none => false
    chunkEnd := match r.chunk with | some c => c.first + c.len - 1 | none => 0
    stepIn := r.stepIn
    joinStep := r.joinStep
    draw := r.draw
    tokens := r.tokens
    stopMatch := r.stopMatch }

/-- The Trellis as the composition leaves it (R113), and the row counters as of this seal (11 R292). -/
def writeTrellis (s : State) : State :=
  { s with
    reqs := s.reqs.map (fun e => (e.1, { e.2 with rowSeal := e.2.rowCtr }))
    sow := { s.sow with trellis := s.reqs.filterMap (fun e => e.2.row.map (fun row => (row.toNat, e.2.rowNow))) } }

/-- What follows every composition: deficits of absent tenants, budgets of rows, tenants to be tried again, the Trellis. -/
def composeAfter (s : State) : State :=
  let s := zeroDeficits s
  let s := each ((s.reqs.filter (fun e => e.2.row.isSome)).map (fun e => e.2.handle)) budgetRow s
  writeTrellis (gleanGrafts (retryPassed s))

/-- No step is sealed: every running row is idle (R116). -/
def allIdle (s : State) : State :=
  { s with reqs := s.reqs.map (fun e => (e.1, { e.2 with idle := e.2.row.isSome && e.2.state.running })) }

/-- A seal without a step (R448): the records of the step that ended are released at once. -/
def sealNoStep (s : State) : State :=
  let ls := s.sow.laid
  let back := s.sow.back ++ ls.flatMap (fun l => l.back)
  let l : Laid := { members := [], fallen := ls.flatMap (fun l => l.fallen), switches := ls.flatMap (fun l => l.switches) }
  let s := composeCommon l { s with sow := { s.sow with laid := [], back := [] } }
  let s := each back returnRow s
  let s := if s.restful then enterPool s else s
  composeAfter (releaseAllRecs (allIdle s))

/-- Send the step token of a sealed step: strikes and reductions of the rows laid out (05 R136, 13 R342). `rows` are the rows as they
stood before the seal, which may have taken some out of the Trellis. -/
def sendStepToken (num : U64) (laid members : List Member) (rows : List (U32 × BitVec 13)) (s : State) : State :=
  if s.grouped && s.leader then
    let es := laid.filterMap (fun m => match s.reqH m.handle with
      | none => none
      | some r => match m.row <|> (rows.find? (fun e => e.1 = m.handle)).map (fun e => e.2) with
        | none => none
        | some row => match members.find? (fun q => q.handle = m.handle) with
          | none => some (⟨row, true, 0, if r.state = .ended then r.endStatus else 0, m.handle⟩ : TokenE)
          | some q => if q.depth < m.depth then some ⟨row, false, BitVec.ofNat 3 q.depth, 0, m.handle⟩ else none)
    sendFrame 0x03 num 0 (.stepToken (s.ownMeta num 0 true false false) es) s
  else s

/-- The rows laid out that are members of the step when it is sealed (R124). -/
def sealMembers (num : U64) (l : Laid) (s : State) : State × List Member :=
  l.members.foldl (fun (a : State × List Member) m =>
    let (s, ok) := takeOrKeep l.switches num m a.1
    (s, if ok then a.2 ++ [m] else a.2)) (s, [])

/-- The model slots that the members' requests name. -/
def slotsOf (ms : List Member) (s : State) : List Nat :=
  (List.range 32).filter (fun m => ms.any (fun x => match s.reqH x.handle with
    | some r => r.model.toNat = m
    | none => false))

/-- The row of the argument block of a member (R139): its first position and its token ids. -/
def State.argRow (s : State) (m : Member) : Option ArgRow :=
  match s.reqH m.handle with
  | some r => r.row.map (fun row => ⟨row, BitVec.ofNat 24 (match m.chunk with | some c => c.first | none => r.committed.getD 0), r.tokens⟩)
  | none => (s.mirror m.handle).bind (fun q => q.row.map (fun row =>
      ⟨row, BitVec.ofNat 24 (match m.chunk with | some c => c.first | none => q.committed.getD 0), q.tokens⟩))

/-- Write the argument block of a step: 24 B a row, through the egress port (R139). -/
def putArgs (num : U64) (rows : List ArgRow) (s : State) : State :=
  egress egressArgs (24 * rows.length) { s with out := { s.out with args := s.out.args ++ [(Config.argBlock num.toNat, rows)] } }

/-- The step that the members make begins (R124, R126). The cyclic table moves on for a step laid out under it (11 R302). -/
def beginStep (num : U64) (l : Laid) (ms : List Member) (lowered : Nat) (rows : List (U32 × BitVec 13)) (s : State) : State :=
  let s := { s with reqs := s.reqs.map (fun (e : Nat × Req) => (e.1, markRow num ms s e.2)) }
  let small := (slotsOf ms s).filter (fun m => decide (genOf s ms m ≤ s.crossover m))
  let x : Step := { num := num, members := ms, small := small }
  let s := openManifest (ms.filterMap (manifestRow s)) s
  let cyc := s.sow.cyc
  let s := { s with sow := { s.sow with
      step := num
      exec := some x
      cyc := if cyc.len = 0 || l.cycGen ≠ cyc.gen then cyc else { cyc with next := (cyc.next + 1) % cyc.len.toNat } } }
  let s := each (slotsOf ms s) (fun m s => s.onSlot m (fun y => { y with lastUse := s.ctl.lcc })) s
  let s := holdCarried (some num.toNat) s
  let s := (trace 9 1 0 none 0 (l.members.length - ms.length) lowered (s.choice (2 ^ 32)) s).spend
  let s := putArgs num (ms.filterMap s.argRow) s
  composeAfter (monitor x (sendStepToken num l.members ms rows s))

/-- The seal has removed every member: no step is composed (R127). In a group the manifest has named the step, so its token strikes
every row and its number is used up (DESIGN CHOICE, log entry 62). -/
def emptyStep (num : U64) (l : Laid) (rows : List (U32 × BitVec 13)) (s : State) : State :=
  let s := allIdle (if s.restful then enterPool s else s)
  let s := if s.grouped && s.leader then
      let s := sendStepToken num l.members [] rows s
      { s with sow := { s.sow with step := num } }
    else { s with sow := { s.sow with freeFrom := s.sow.freeFrom.filter (fun e => e.2 ≠ num.toNat + 2) } }
  composeAfter (releaseAllRecs s)

/-- The rows freed at the seal of step `num` are first allocated by the layout of the step after the next (R110). -/
def rowsFreed (num : Nat) (s : State) : State :=
  { s with sow := { s.sow with freeFrom := s.sow.freeFrom.map (fun e => if e.2 = num then (e.1, num + 2) else e) } }

/-- The seal of the next step (R124). -/
def sealStep (s : State) : State :=
  match s.sow.laid with
  | [] => s
  | l :: rest =>
    let rows := s.reqs.filterMap (fun e => e.2.row.map (fun x => (e.2.handle, x)))
    let back := s.sow.back ++ l.back
    let s := composeCommon l { s with sow := { s.sow with laid := rest, back := [] } }
    let num := s.sow.step + 1
    let a := sealMembers num l (rowsFreed num.toNat s)
    let s := each back returnRow a.1
    let ms := a.2.map (fun m => match s.reqH m.handle with
      | some r => if m.chunk.isNone then { m with depth := sealDepth s r m.depth } else m
      | none => m)
    let lowered := (ms.filter (fun m => l.members.any (fun q => q.handle = m.handle && decide (m.depth < q.depth)))).length
    let missing := (ms.filter (fun m => s.prn.lost.contains m.handle
      && l.members.any (fun q => q.handle = m.handle && decide (0 < q.depth)))).length
    let s := onPrn (fun p => { p with
      guessMissing := satAdd p.guessMissing missing
      lost := p.lost.filter (fun h => !ms.any (fun m => m.handle = h) && (match s.reqH h with | some r => r.row.isSome | none => false)) }) s
    if ms = [] then emptyStep num l rows s else beginStep num l ms lowered rows s

/-! ### Layout as a command -/

/-- The manifest entries that carry a layout to a group (05 R135, 13 R341). A row that samples in the step has a DEPTH entry, or
a JOIN without a CHUNK. -/
def manifestOf (num : U64) (s : State) (l : Laid) : List ManEntry :=
  (l.switches.filterMap (fun e => match (s.reqH e.1).bind (fun r => r.row) with
    | some row => some (ManEntry.switch row e.2.2)
    | none => none)) ++
  l.members.flatMap (fun m => match s.laidReq m.handle with
    | none => []
    | some r0 =>
      let r := match l.switches.find? (fun e => e.1 = m.handle) with | some e => { r0 with graft := some e.2 } | none => r0
      let row := match m.row with | some x => x | none => r.row.getD 0
      let d := BitVec.ofNat 3 m.depth
      let issued (c : Chunk) : Bool := c.step = num
      let samples : Bool := match m.chunk with | some c => c.finishing && !r.replay | none => true
      let j : List ManEntry := if m.joins then [.join (joinOf r row d)] else []
      let c : List ManEntry := match m.chunk with
        | some c => if issued c then [.chunk row (BitVec.ofNat 24 c.first) (BitVec.ofNat 32 c.len) c.bound (m.flow.getD 0)] else []
        | none => []
      let k : List ManEntry := if samples && !(m.joins && m.chunk.isNone) then [.depth row d] else []
      j ++ [coverOf r row] ++ c ++ k)

/-- Profiles that the manifest uses and the ring has not carried as they stand (13 R340). -/
def sendProfiles (num : U64) (l : Laid) (s : State) : State :=
  each l.members (fun m s => match s.reqH m.handle with
    | none => s
    | some r => match s.profOf r with
      | none => s
      | some p =>
        let key := (hTenant r.handle, r.adm.profile.toNat)
        if s.teth.profiles.any (fun e => e.1 = key && e.2 = p) then s else
          let bias := p.bias.map (fun e => (⟨BitVec.ofNat 22 e.1, 0, e.2⟩ : Bias))
          let part := (s.teth.own.filter (fun o => o.kind = 0x07 && o.step = num)).length
          let s := sendFrame 0x07 num part (.profile (s.ownMeta num part true false false) key.1 p.f bias) s
          onTeth (fun t => { t with profiles := t.profiles.filter (fun e => e.1 ≠ key) ++ [(key, p)] }) s) s

/-- Entries in parts of at most 4,095: a frame carries at most 16,384 data words, two of them common and four an entry (13 R336,
R340). -/
def partsOf (es : List ManEntry) : List (List ManEntry) :=
  (List.range (max 1 (cdiv es.length 4095))).map (fun k => (es.drop (4095 * k)).take 4095)

/-- Send a layout's manifest on the ring. -/
def sendManifest (num : U64) (l : Laid) (s : State) : State :=
  if s.grouped && s.leader then
    let s := sendProfiles num l s
    let es := partsOf (s.teth.leaves ++ manifestOf num s l)
    let n := (l.members.map (fun m => match s.reqH m.handle with
      | some r => r.table.length - r.named
      | none => 0)).sum
    let s := onTeth (fun t => { t with leaves := [], coming := 0, mans := t.mans ++ [(num, n + t.coming)] }) s
    let s := each l.members (fun m s => s.onReqH m.handle (fun r => { r with named := r.table.length })) s
    each ((List.range es.length).zip es) (fun e s =>
      sendFrame 0x02 num e.1 (.manifest (s.ownMeta num e.1 (decide (e.1 + 1 = es.length)) false false) e.2) s) s
  else s

/-- Layouts may run: READY, not held by the host or a freeze, the executing step dispatched, and a place for the layout;
only a group's leader lays out two steps ahead (05 R118, R135, 16 R398). -/
def State.mayLayOut (s : State) : Bool :=
  s.composing && s.ctl.phase = .ready && (!s.grouped || (s.leader && s.teth.formed))
    && (match s.sow.exec with | some x => x.dispatched | none => true)
    && decide (s.sow.laid.length < (if s.grouped then 2 else 1))

/-- A group's leader has entries for the members, or waits for their reports of a restore: its manifests go on although no row is laid
out (13 R341, R344; DESIGN CHOICE, log entry 62). -/
def State.mustTell (s : State) : Bool :=
  s.grouped && s.leader && (s.teth.leaves ≠ [] || s.reqs.any (fun e => e.2.model = s.teth.model
    && (match e.2.restore with | some x => x.running && !x.done | none => false)))

/-- The next layout has a member, or is a group's whose manifest has named its step (05 R127, 13 R341). -/
def State.stepLaid (s : State) : Bool :=
  match s.sow.laid with
  | l :: _ => l.members ≠ [] || (s.grouped && s.leader)
  | [] => false

/-- LAYOUT (05 R118): lay out the next step. A layout without a member is not kept; the Sower then runs a seal without
a step (R448). -/
def layoutOp (s : State) : State :=
  if !s.mayLayOut then s else
    let num := s.sow.step + 1 + BitVec.ofNat 64 s.sow.laid.length
    let (s, l) := layOut s
    if l.members = [] && l.fallen = [] && !s.mustTell then restores { s with sow := { s.sow with back := l.back } } else
      restores (sendManifest num l { s with sow := { s.sow with laid := s.sow.laid ++ [l] } })

/-- SEAL (05 R124): at the seal point of the step that a layout waits for. -/
def sealOp (s : State) : State :=
  let ended := match s.sow.exec with | some x => x.ended | none => true
  if ended && s.composing && s.ctl.phase = .ready && !s.teth.held && s.stepLaid
  then sealStep s else s

/-- SEAL_WITHOUT_STEP (05 R448): in the gap after a step that has ended, or while no step executes, where no layout has
yielded a member; also while a group is held (13 R350) and, once, on entry to dormant, where the carried chunks are dropped
(16 R409). -/
def sealNoStepOp (s : State) : State :=
  let ended := match s.sow.exec with | some x => x.ended || (s.teth.held && x.coll = 0) | none => true
  let entry : Bool := s.ctl.phase = .sleeping
  if ended && s.awake && !s.freezing && !s.ctl.resumeHold && !(entry && s.ctl.entrySealed) && (!s.stepLaid || s.teth.held || entry)
  then
    let rows := (s.reqs.filter (fun e => e.2.chunk.isSome)).map (fun e => e.2.handle)
    let s := if entry then onCtl (fun c => { c with entrySealed := true }) (each rows dropChunk s) else s
    restores (sealNoStep s)
  else s

/-! ### Dispatch of a sealed step (05 R126, R139, 06 R147) -/

/-- The flow and number of an item of a carried or bound chunk: its row's flow (06 R159). -/
def flowOf (s : State) (i : ItemIn) : Option (BitVec 12) :=
  if i.cls = .prefill then match i.rows with
    | [row] => s.rowFlow row
    | _ => none
  else none

/-- The addresses that an item's argument block holds (15 R389). -/
def State.argBlk (s : State) (m : Option (BitVec 5)) (rows : List (BitVec 13)) : ArgBlk :=
  { model := m
    tables := rows.filterMap (fun row => match s.rowReq row with
      | some r => some r.tableRoot
      | none => (s.rowMirror row).map (fun q => Config.tableAddr (mirrorSlot q.handle) (blockBytes q.table.length)))
    grafts := rows.filterMap (fun row => match s.rowReq row with
      | some r => r.graft
      | none => (s.rowMirror row).bind (fun q => if q.join.graftValid then some (q.join.graftSlot, q.ver) else none)) }

/-- The model of a row, and its bed where the row is the Trellis' own. -/
def State.rowPlace (s : State) (row : BitVec 13) : Option (BitVec 5 × Option Nat) :=
  match s.rowReq row with
  | some r => some (r.model, some r.bed.toNat)
  | none => (s.rowMirror row).map (fun q => (s.teth.model, some q.bed.toNat))

/-- The role of a row in a step. -/
def State.roleOf (s : State) (x : Step) (row : BitVec 13) : Option Member :=
  (s.rowHandle row).bind (fun h => x.members.find? (fun m => m.handle = h))

/-- A model has a row with a cyclic reservation in the step (06 R146). -/
def State.cyclicModel (s : State) (x : Step) (m : BitVec 5) : Bool :=
  x.members.any (fun y => y.cyclic && (match s.reqH y.handle with | some r => r.model = m | none => false))

/-- An item belongs on the core stream of the step (R126, 06 R144, R146): its rows are of its bed and its context's model, a chunk's
items serve its row alone, and generation items are those of a model on the large path. -/
def itemPlaced (s : State) (x : Step) (i : ItemIn) : Bool :=
  match (s.ctx i.bed.val i.ctx.val).model with
  | none => false
  | some m =>
    let here (row : BitVec 13) : Bool := match s.rowPlace row with
      | some (k, b) => k = m && (b.isNone || b = some i.bed.val)
      | none => false
    let large : Bool := !x.small.contains m.toNat
    let gen (row : BitVec 13) : Bool := match s.roleOf x row with | some y => y.chunk.isNone | none => false
    i.rows.all here && (match i.cls with
      | .cyclic => large && s.cyclicModel x m && i.rows.all gen
      | .decode => large && !s.cyclicModel x m && i.rows.all gen
      | .select => i.rows.all (fun row => match s.roleOf x row with
        | some y => (match y.chunk with | none => large | some c => c.finishing)
        | none => false)
      | .prefill => (match i.rows with
        | [row] => (match (s.roleOf x row).bind (fun y => y.chunk) with | some c => c.step = x.num && !c.projDue | none => false)
        | _ => false)
      | .swap => false)

/-- An item belongs on the stack stream of the step: it serves generation rows, and projects only those of a model on the small
path (R126). -/
def stackPlaced (s : State) (x : Step) (y : StackIn) : Bool :=
  y.rows.all (fun row => match s.roleOf x row, s.rowPlace row with
    | some m, some (k, _) => m.chunk.isNone && (!y.proj || x.small.contains k.toNat)
    | _, _ => false)

/-- Write one item into the work-item table (06 R147). -/
def submit (num : U64) (i : ItemIn) (s : State) : State :=
  let f := flowOf s i
  let carried : Bool := i.cls = .prefill && (match i.rows with
    | [row] => (match s.rowChunk row with | some c => !c.bound && !c.projDue | none => false)
    | _ => false)
  let hist := (s.sow.hist.find? (fun e => e.1 = (i.kernel.toNat, i.part, i.bed.val * 4 + i.ctx.val))).map (fun e => BitVec.ofNat 10 e.2)
  let aff := if i.cls = .prefill then (match i.rows with
    | [row] => (s.rowReq row).bind (fun r => r.affinity)
    | _ => hist) else hist
  let seq := match f with | some f => (match mget f.toNat s.disp.flows with | some x => x.sub | none => 0) | none => 0
  let it : Item := ⟨s.disp.nextIdx, i.kernel, i.cls, i.bed.val, i.ctx.val, !carried, (s.bed i.bed.val).epoch, f, seq, aff,
    i.deps, i.waitGate.toNat, i.sigGate.map (fun g => g.toNat), i.args, s.argBlk (s.ctx i.bed.val i.ctx.val).model i.rows, num,
    i.part, i.rows, .waiting⟩
  let s := match f with
    | some f => onDisp (fun d => { d with flows := mupd f.toNat (fun x => { x with sub := x.sub + 1, count := x.count + 1 }) d.flows }) s
    | none => s
  onDisp (fun d =>
    { d with
      items := d.items ++ [it]
      nextIdx := d.nextIdx + 1
      gates := match i.sigGate with | some g => mput g.toNat ((mget g.toNat d.gates).getD 0) d.gates | none => d.gates }) s

/-- The gates that new work signals or waits on. -/
def gatesOf (is : List ItemIn) : List Nat :=
  is.filterMap (fun i => i.sigGate.map (fun g => g.toNat)) ++ (is.filter (fun i => i.deps ≠ 0)).map (fun i => i.waitGate.toNat)

/-- A gate may be used again: every item that waits on it has been dispatched (06 R148). -/
def State.gateFree (s : State) (g : Nat) : Bool :=
  !s.disp.items.any (fun i => i.waitGate = g && i.deps ≠ 0 && (i.state = .waiting || i.state = .ready))

/-- The Sower allocates the gates that the new work uses and sets each to 0 (06 R148). -/
def freshGates (is : List ItemIn) (s : State) : State :=
  each (gatesOf is) (fun g s => onDisp (fun d => { d with gates := mput g 0 d.gates }) s) s

/-- ARGUMENT_BLOCK_ACK (05 R139): the argument block is written; the step starts, its first work item leaves, and frames
released before enter the pool (R130). The Sower places all of its work as R126, 06 R144 and R146 give, on gates that are free (06
R148); an acknowledgement with other work has no effect (DESIGN CHOICE, log entry 66). -/
def dispatchStep (w : StepWork) (s : State) : State :=
  match s.sow.exec with
  | none => s
  | some x =>
    if x.dispatched || !w.items.all (itemPlaced s x) || !w.stack.all (stackPlaced s x) || !(gatesOf w.items).all s.gateFree then s else
    let st := w.stack.length
    let x : Step := { x with
      dispatched := true
      start := s.ctl.lcc
      stack := (List.range st).filterMap (fun i => (w.stack[i]?).map (fun y => { idx := i, stack := y.stack.val, rows := y.rows, proj := y.proj }))
      coll := w.collectives }
    let s := { s with sow := { s.sow with exec := some x }, led := { s.led with inInt := true } }
    let s := restores (enterPool s)
    let s := { s with reqs := s.reqs.map (fun e => (e.1, { e.2 with chunk := e.2.chunk.map (fun c =>
      if c.step = x.num then { c with began := s.ctl.lcc } else c) })) }
    let s := each w.items (submit x.num) (freshGates w.items s)
    checkEnd (schedule (issueStack s))

end Sys2Proof.Machine
end

