-- ==== Sys2Proof/Machine/Greenhouse.lean ====
section
/-! DEFINITION. The Greenhouse (08 R210 to R232): loads, eviction, fallback links, graft versions, taints and reloads. -/

namespace Sys2Proof.Machine

/-! ### Storage (08 R174, R212) -/

/-- Bytes of a model slot's storage. -/
def slotBytes (d : ModelDesc) : Nat :=
  d.weightBytes.toNat + d.plotCount.toNat * (128 * d.kvBytes.toNat + 4096) + (16 * 2 ^ 20 + 16 * d.plotCount.toNat)
    + 800 * 384 * 1024 + 64 * d.kernelCount.toNat

/-- Stack memory of the SA9 less the block's fixed part (01). -/
def stackRoom : Nat := 767 * 2 ^ 30

def State.stackUsed (s : State) : Nat :=
  (s.gh.slots.map (fun x => match x.desc with | some d => slotBytes d | none => 0)).sum
    + (s.gh.grafts.map (fun g => g.desc.graftBytes.toNat)).sum

/-- The lowest base of a run of `n` plot numbers that no pool holds (07 R174). -/
def State.poolFit (s : State) (n : Nat) : Option Nat :=
  let runs := (List.range 32).filterMap (fun m => (s.desc m).map (fun d => ((s.slot m).poolBase, d.plotCount.toNat)))
  let bases := 0 :: runs.map (fun r => r.1 + r.2)
  (sortBy (fun a b => decide (a < b)) bases).find? (fun b =>
    decide (b + n ≤ 1048576) && runs.all (fun r => decide (b + n ≤ r.1) || decide (r.1 + r.2 ≤ b)))

/-! ### Descriptor checks (08 R211, R214, R220); a descriptor's reserved bits are checked with its message (00 R9) -/

def descOk (d : ModelDesc) : Bool :=
  d.descVer = 3 && 1 ≤ d.vocab.toNat && d.vocab.toNat ≤ 4194304 && 1 ≤ d.contextLen.toNat
    && d.contextLen.toNat ≤ 16777216 && d.kvBytes.toNat % 64 = 0 && 12 ≤ d.plotCount.toNat
    && d.plotCount.toNat % 12 = 0 && d.crossover.toNat ≤ 32768 && d.fillLimit.toNat ≤ 32768 && 1 ≤ d.layerCount.toNat
    && d.draftHeads.toNat ≤ 4 && d.weightFormat.toNat ≤ 2 && 1 ≤ d.scratch.toNat && d.scratch.toNat ≤ 12
    && 1 ≤ d.staging.toNat && d.staging.toNat ≤ 98304 && 1 ≤ d.regionCount.toNat && d.regionCount.toNat ≤ 4096
    && d.regionTableOff.toNat % 16 = 0 && d.kernelTableOff.toNat % 64 = 0

def regionOk (r : Region) : Bool :=
  !r.rsv && r.srcOff.toNat % 4096 = 0 && 4096 ≤ r.length.toNat && r.length.toNat ≤ 4294963200 && r.length.toNat % 4096 = 0
    && r.kind.toNat ≤ 4

/-! ### Striping (08 R213; 01 R18) -/

/-- The part size of a region of `l` bytes. -/
def partSize (l : Nat) : Nat := cdiv l 49152 * 4096

/-- Where part `q` of a region of `l` bytes begins, and its bytes; it lies on stack `q`. -/
def partOf (l q : Nat) : Nat × Nat := (min (q * partSize l) l, min ((q + 1) * partSize l) l - min (q * partSize l) l)

/-- The parts of a region that hold bytes. -/
def partsHeld (l : Nat) : List Nat := (List.range 12).filter (fun q => (partOf l q).2 ≠ 0)

/-- The failure cause of a load whose tables were read; 0 for none (08 R214). -/
def loadCause (d : ModelDesc) (rs : List Region) (tiles : List Nat) : Nat :=
  if !descOk d || rs.length ≠ d.regionCount.toNat || !rs.all regionOk
    || (rs.map (fun r => r.length.toNat)).sum ≠ d.weightBytes.toNat then 1
  else if tiles.any (fun t => decide (100000 < t)) then 4 else 0

/-- Elements of a region in its model's format (08 R220, R213). -/
def regionElems (d : ModelDesc) (r : Region) : Nat := if d.weightFormat = 2 then 2 * r.length.toNat else r.length.toNat

/-- Bytes of a 32-element block in a model's format (08 R213). -/
def blockLen (d : ModelDesc) : Nat := if d.weightFormat = 2 then 16 else 32

/-- The part, and so the stack, that a block of a region falls in (08 R213, R221). -/
def blockPart (d : ModelDesc) (r : Region) (b : Nat) : Nat := b * blockLen d / partSize r.length.toNat

/-- The delta blocks of one entry that part `q` stores, with their place in the entry (08 R221). -/
def deltaOn (d : ModelDesc) (r : Region) (x : Delta) (q : Nat) : List (Nat × U32) :=
  ((List.range x.blocks.length).zip x.blocks).filter (fun e => blockPart d r e.2.toNat = q)

/-- What a version stores: for each delta entry and each stack with blocks of it, the index of their numbers in order
(08 R221). -/
def deltaParts (d : ModelDesc) (rs : List Region) (ds : List Delta) : List DeltaPart :=
  ds.flatMap (fun x => match rs[x.region.toNat]? with
    | some r => (List.range 12).filterMap (fun q =>
        let bs := (deltaOn d r x q).map (fun e => e.2)
        if bs = [] then none else some ⟨x.region.toNat, q, bs⟩)
    | none => [])

/-- What an engine reads for a block of a base region (08 R221): the stack it lies on and, for a row whose graft version has the
block's number in that stack's index, the place of the delta block it adds. -/
def State.blockRead (s : State) (m : Nat) (graft : Option (BitVec 12 × U16)) (region block : Nat) : Option (Nat × Option Nat) :=
  match s.desc m, (s.slot m).regions[region]? with
  | some d, some r =>
    let q := blockPart d r block
    let add := graft.bind (fun g => (s.gh.grafts.find? (fun x => x.slot = g.1 && x.ver = g.2)).bind (fun x =>
      (x.parts.find? (fun p => p.region = region && p.part = q)).bind (fun p => p.blocks.findIdx? (fun b => b.toNat = block))))
    some (q, add)
  | _, _ => none

def ascending : List U32 → Bool
  | [] => true
  | [_] => true
  | a :: b :: r => decide (a.toNat < b.toNat) && ascending (b :: r)

/-- The failure cause of a graft load (08 R214, R220). -/
def graftCause (g : GraftDesc) (base : ModelDesc) (rs : List Region) (ds : List Delta) : Nat :=
  if g.descVer ≠ 3 || g.deltaCount.toNat = 0 || 4096 < g.deltaCount.toNat || g.deltaTableOff.toNat % 32 ≠ 0
    || ds.length ≠ g.deltaCount.toNat || ds.any (fun x => x.rsv || x.blocks = []) then 1
  else if g.baseModelId ≠ base.modelId then 6
  else if ds.any (fun x => !ascending x.blocks || (match rs[x.region.toNat]? with
      | some r => x.blocks.any (fun b => decide (regionElems base r ≤ 32 * b.toNat))
      | none => true))
    || (List.range ds.length).any (fun i => (List.range i).any (fun j =>
      (ds.map (fun x => x.region))[i]? = (ds.map (fun x => x.region))[j]?)) then 7
  else 0

/-! ### Links (08 R218) -/

/-- Report each link whose named slot stands RESIDENT with another tokenizer, once (kind 12). -/
def linkCheck (s : State) : State :=
  each (List.range 32) (fun m s =>
    let x := s.slot m
    let f := s.slot x.fallback.toNat
    match x.desc, f.desc with
    | some a, some b =>
      if x.fbValid && !x.fbTold && f.state = .resident && a.tokenizer ≠ b.tokenizer then
        ghEvent 12 0 m 0 0 0 (s.onSlot m (fun y => { y with fbTold := true }))
      else s
    | _, _ => s) s

/-- Tenants passed over are tried again when a slot or version becomes resident and no step executes (11 R297). -/
def retryTenants (s : State) : State :=
  if s.sow.exec.isNone then { s with tens := s.tens.map (fun x => { x with passed := false }) } else s

/-! ### Ends of requests by slot or version -/

/-- End every request not ENDED that `pick` names: `rowSt` for one that holds a row, `st` for any other. -/
def endAll (pick : Req → Bool) (rowSt st : U8) (s : State) : State :=
  each ((s.reqs.filter (fun e => e.2.state ≠ .ended && pick e.2)).map (fun e => e.2.handle)) (fun h s =>
    match s.reqH h with
    | some r => endCause h (if r.row.isSome then rowSt else st) s
    | none => s) s

/-- A failed load or reload in the error log (15 R377 LOAD_FAIL). -/
def loadFailLog (cause : Nat) (addr : Nat) (s : State) : State := logErr { code := 0x15, detail := cause, island := 14, addr } s

/-! ### Copies of a load or a reload (08 R214, R223, R228) -/

/-- Where a backing copy lies (04 R107). -/
def backing (sp : BitVec 2) : Space := if sp = 0 then .host none else if sp = 1 then .pooled else .stack

/-- Copy the named parts of a region from the backing copy, up to the refused read at `stop` (01 R447). -/
def copyParts (m i : Nat) (qs : List Nat) (stop : Option Nat) (s : State) : State :=
  let x := s.slot m
  match x.regions[i]? with
  | none => s
  | some r => each qs (fun q s =>
      let a := x.srcAddr.toNat + r.srcOff.toNat + (partOf r.length.toNat q).1
      let n := readLen a (partOf r.length.toNat q).2 stop
      if n = 0 then s else putCopy egressLoad (.part m i q q (backing x.srcSpace) a n) s) s

/-- Every part of a region. -/
def copyRegion (m i : Nat) (stop : Option Nat) (s : State) : State :=
  copyParts m i (match (s.slot m).regions[i]? with | some r => partsHeld r.length.toNat | none => []) stop s

/-- The reads of a model's region and kernel tables. -/
def tableReads (x : Slot) (d : ModelDesc) : List HostRd :=
  readsOf (.host none) (x.descAddr.toNat + d.regionTableOff.toNat) (16 * d.regionCount.toNat)
    ++ readsOf (.host none) (x.descAddr.toNat + d.kernelTableOff.toNat) (64 * d.kernelCount.toNat)

/-- Read the tables of a model, copy its regions up to region `n`, the last of them up to a refused read at `stop`, and, where the copy of
all succeeds, its kernel table. After each restart of G0 the region in hand, which the spec leaves open, was copied again (16 R406;
DESIGN CHOICE, log entry 2). -/
def copyModel (m n : Nat) (ok : Bool) (stop : Option Nat) (s : State) : State :=
  let x := s.slot m
  match x.desc with
  | none => s
  | some d =>
    let at_ := x.descAddr.toNat + d.kernelTableOff.toNat
    let s := putReads (tableReads x d) s
    let s := each (List.range (min n x.regions.length)) (fun i s => copyRegion m i (if i + 1 = n then stop else none) s) s
    let s := each (List.range x.redo) (fun _ s => (copyRegion m (s.choice (min n x.regions.length)) none s).spend) s
    if ok then putCopy egressLoad (.kernels m (.host none) at_ (64 * d.kernelCount.toNat)) s else s

/-- How many regions a copy has begun of `n`. -/
def copyEnd : CopySeen → Nat → Nat
  | .ok, n => n
  | .refused r, _ => r + 1
  | .poisoned r, _ => r + 1
  | .badPart r, _ => r + 1

/-! ### Model slots -/

/-- A slot without a model; a fallback link stays until the slot is loaded again (08 R218). -/
def emptySlot (x : Slot) : Slot := { state := .empty, fallback := x.fallback, fbValid := x.fbValid, lastUse := x.lastUse }

/-- Give the pool's plots back to the plot numbers (08 R217). -/
def dropPool (m : Nat) (s : State) : State :=
  let b := (s.slot m).poolBase
  let n := s.plotCount m
  let out (p : Nat) : Bool := !(decide (b ≤ p) && decide (p < b + n))
  { s with
    plots := { s.plots with refs := s.plots.refs.filter (fun e => out e.1), released := s.plots.released.filter out,
                            oldBlocks := s.plots.oldBlocks.filter (fun e => e.1 ≠ m) }
    wdog := { s.wdog with retiredFrames := s.wdog.retiredFrames.filter out, keptFrames := s.wdog.keptFrames.filter out }
    seed := { s.seed with cands := s.seed.cands.filter (fun e => e.2.1 ≠ m) } }

/-- A failed load: the storage is freed, the slot is EMPTY, and its requests end FAULT (08 R214). -/
def loadFail (m cause region : Nat) (s : State) : State :=
  let s := loadFailLog cause (s.slot m).descAddr.toNat s
  let s := (dropPool m s).onSlot m emptySlot
  let s := ghEvent 2 cause m 0 region 0 s
  endAll (fun r => r.model.toNat = m) 0x30 0x30 s

/-- The failure cause that a copy brings, and its region (08 R214); none for a copy that succeeds. -/
def copyCause : CopySeen → Option (Nat × Nat)
  | .ok => none
  | .refused r => some (2, r)
  | .poisoned r => some (3, r)
  | .badPart r => some (5, r)

/-- Copies that were neither refused nor poisoned have completed: step progress (15 R378). -/
def copiesBack (cause : Nat) (s : State) : State := if cause = 2 || cause = 3 then s else progressNow s

/-- MODEL_LOAD_DONE (08 R214): the checks of step 1 come first, then what the copies met. Without tables their own read failed. A refused
read was at `stop`. -/
def modelLoaded (m : Nat) (seen : LoadSeen) (stop : Option Nat) (s : State) : State :=
  if (s.slot m).state ≠ .loading then s else
  match s.desc m, seen.tables with
  | some d, some t =>
    let c := loadCause d t.regions t.tiles
    if c ≠ 0 then loadFail m c 0 s else
      let s := s.onSlot m (fun x => { x with regions := t.regions })
      let s := copyModel m (copyEnd seen.copy t.regions.length) (copyCause seen.copy).isNone stop s
      let s := copiesBack (((copyCause seen.copy).map (fun e => e.1)).getD 0) s
      match copyCause seen.copy with
      | some (c, r) => loadFail m c r s
      | none =>
        let s := s.onSlot m (fun x => { x with state := .resident, taint := [], taintSteps := [], redo := 0 })
        let s := linkCheck (ghEvent 1 0 m 0 0 0 s)
        let s := each (List.range 32) (fun b s => bringIn (fun c => (s.ctx b c).model = some (BitVec.ofNat 5 m)) b s) s
        retryTenants (schedule s)
  | some d, none =>
    if descOk d then
      loadFail m (((copyCause seen.copy).map (fun e => e.1)).getD 1) 0 (putReads (match stop with
        | some a => readsTo a (tableReads (s.slot m) d)
        | none => tableReads (s.slot m) d) s)
    else loadFail m 1 0 s
  | none, _ => loadFail m 1 0 s

/-- Accept a MODEL_LOAD: storage and pool are taken in full (08 R210, R212, R218). -/
def acceptLoad (f : ModelLoadF) (d : ModelDesc) (base : Nat) (s : State) : State :=
  linkCheck (s.onSlot f.slot.toNat (fun x =>
    { state := .loading, desc := some d, srcSpace := f.srcSpace, descAddr := f.descAddr, srcAddr := f.srcAddr,
      fallback := f.fallback, fbValid := f.fbValid, poolBase := base, lastUse := x.lastUse, copyAt := s.ctl.lcc }))

/-- Accept a MODEL_EVICT: the slot is EVICTING, links that name it are cleared, and its nodes' removal starts (08 R217). -/
def acceptEvict (m : Nat) (s : State) : State :=
  let s := s.onSlot m (fun x => { x with state := .evicting, reloading := false })
  let s := { s with gh := { s.gh with slots := s.gh.slots.map (fun x =>
    if x.fbValid && x.fallback.toNat = m then { x with fbValid := false, fallback := 0, fbTold := false } else x) } }
  onSeed (fun d => { d with walks := d.walks ++ [.model (BitVec.ofNat 5 m)] }) s

/-- The removal walk of an evicted model has ended (07 R199, 08 R217). -/
def evicted (m : Nat) (s : State) : State :=
  if !s.seed.walks.contains (.model (BitVec.ofNat 5 m)) then s else
  let s := onSeed (fun d => { d with walks := d.walks.erase (.model (BitVec.ofNat 5 m)) }) s
  let s := removeNodes (fun n => n.key.model.toNat = m) s
  let s := (dropPool m s).onSlot m emptySlot
  finishAll (fun _ x => match x.wait with
    | .evict k => if k.toNat = m then some (stOk, []) else none
    | _ => none) s

/-- The slot is LOST: rows end WEIGHTS_LOST, other requests FAULT (08 R230). -/
def slotLost (m cause region : Nat) (s : State) : State :=
  let s := s.onSlot m (fun x => { x with state := .lost, reloading := false })
  let s := ghEvent 5 cause m 0 region 0 (loadFailLog cause (s.slot m).srcAddr.toNat s)
  endAll (fun r => r.model.toNat = m) 0x32 0x30 s

/-! ### Taints and reloads (08 R227 to R231) -/

/-- A bed serves a model: one of its contexts names it. -/
def State.bedServes (s : State) (b : Nat) (m : BitVec 5) : Bool := (s.bed b).ctxs.any (fun c => c.model = some m)

/-- Handles of the executing step's members whose row is on a bed; the mirrored rows of a follower are on every bed with a context of
the group's model (13 R334). -/
def State.bedMembers (s : State) (b : Nat) : List U32 :=
  match s.sow.exec with
  | some x => (x.members.filter (fun m => match s.reqH m.handle with
    | some r => r.bed.toNat = b
    | none => (s.mirror m.handle).isSome && s.bedServes b s.teth.model)).map (fun m => m.handle)
  | none => []

/-- A hold for rows, the mirrored ones of a follower among them, and their carried chunks dropped (08 R227, R231). A row
that a waiting layout takes to the slot as its fallback is held as it enters (R219). -/
def holdRows (k : Fin 5) (pick : Req → Bool) (mirrored : Mirror → Bool) (s : State) : State :=
  let s := each ((s.reqs.filter (fun e => e.2.row.isSome && pick e.2)).map (fun e => e.2.handle)) (fun h s =>
    let s := match (s.reqH h).bind (fun r => r.chunk) with
      | some c => if c.bound then s else dropChunk h s
      | none => s
    handOver h (.hold k) s) s
  each ((s.teth.mirrors.filter mirrored).map (fun m => m.handle)) (fun h s =>
    let s := match (s.mirror h).bind (fun m => m.chunk) with
      | some c => if c.bound then s else dropChunk h s
      | none => s
    onMirror h (fun m => { m with holds := m.holds.put k true }) s) s

/-- Lift a hold of mirrored rows. -/
def liftMirrors (k : Fin 5) (mirrored : Mirror → Bool) (s : State) : State :=
  { s with teth := { s.teth with mirrors := s.teth.mirrors.map (fun m => if mirrored m then { m with holds := m.holds.put k false } else m) } }

/-- Lift a hold of requests, one handed to the Sower and not yet applied included (08 R229, R231, R232). -/
def liftHold (k : Fin 5) (pick : Req → Bool) (s : State) : State :=
  { s with
    seq := s.seq + 1
    reqs := s.reqs.map (fun e => (e.1, if pick e.2 then e.2.lift k s.seq else e.2))
    sow := { s.sow with events := s.sow.events.filter (fun e => !(e.ev = .hold k
      && (match s.reqH e.handle with | some r => pick r | none => false))) } }

/-- A poison report against the executing step discards it for some rows; one in a carried chunk discards that chunk alone (05
R134). -/
def poisonStep (p : Poison) (hs : List U32) (s : State) : State :=
  match p.chunk.bind s.rowHandle with
  | some h => dropChunk h s
  | none =>
    let now := match s.sow.exec with | some x => x.num = p.step && !x.ended | none => false
    if now then schedule (discardRows hs s) else s

/-- The step in which a report arrives (08 R228). -/
def State.stepNow (s : State) : U64 := match s.sow.exec with | some x => x.num | none => s.sow.step

/-- The request's model slot is `m`. -/
def ofModel (m : Nat) (r : Req) : Bool := r.model.toNat = m

/-- Poison in a base weight region (08 R227, R229). -/
def poisonWeights (m region : Nat) (p : Poison) (s : State) : State :=
  let s := poisonStep p (s.bedMembers p.bed.val) s
  let x := s.slot m
  if (x.state = .resident || x.state = .tainted) && !x.taint.contains region then
    let s := s.onSlot m (fun x => { x with state := .tainted, taint := x.taint ++ [region], taintSteps := x.taintSteps ++ [s.stepNow] })
    schedule (holdRows 1 (ofModel m) (fun _ => s.teth.model.toNat = m) (ghEvent 3 0 m 0 region 0 s))
  else s

def onGVer (g : Nat) (v : U16) (f : GVer → GVer) (s : State) : State :=
  { s with gh := { s.gh with grafts := s.gh.grafts.map (fun x => if x.slot.toNat = g && x.ver = v then f x else x) } }

def State.gver (s : State) (g : Nat) (v : U16) : Option GVer := s.gh.grafts.find? (fun x => x.slot.toNat = g && x.ver = v)

def usesVer (g : Nat) (v : U16) (r : Req) : Bool := match r.graft with | some (k, w) => k.toNat = g && w = v | none => false

/-- Poison in a graft version's delta storage (08 R231). -/
def poisonGraft (g : Nat) (v : U16) (region : Nat) (p : Poison) (s : State) : State :=
  let hs := match s.sow.exec with
    | some x => (x.members.filter (fun m => match s.reqH m.handle with
      | some r => usesVer g v r
      | none => (s.mirror m.handle).any (mirrorUses g v))).map (fun m => m.handle)
    | none => []
  let s := poisonStep p hs s
  match s.gver g v with
  | some x =>
    let serves : Bool := x.state = .resident || x.state = .superseded || x.state = .retired
    if serves || (x.state = .tainted && !x.taint.contains region) then
      let s := onGVer g v (fun x => { x with
        state := .tainted
        back := if serves then x.state else x.back
        taint := x.taint ++ [region]
        taintSteps := x.taintSteps ++ [s.stepNow] }) s
      schedule (holdRows 2 (usesVer g v) (mirrorUses g v) (ghEvent 8 0 x.base.toNat g region v.toNat s))
    else s
  | none => s

/-- The step in which the report arrived has ended, and the items dropped have left their cores (08 R228). -/
def State.mayReload (s : State) (step : U64) : Bool :=
  (match s.sow.exec with | some x => x.num ≠ step || x.ended | none => true)
    && s.disp.cores.all (fun e => match e.2.running with | some i => (s.item i).isSome | none => true)

/-- Copy a version's delta blocks of a region onto the named stacks: their elements and scales (08 R221, R223), up to the stack whose
elements begin behind the refused read at `stop` (01 R447). -/
def copyDelta (g : Nat) (v : U16) (region : Nat) (qs : List Nat) (stop : Option Nat) (s : State) : State :=
  match s.gver g v with
  | none => s
  | some x => match s.desc x.base.toNat, (s.slot x.base.toNat).regions[region]?, x.deltas.find? (fun y => y.region.toNat = region) with
    | some d, some r, some y =>
      each (qs.filter (fun q => deltaOn d r y q ≠ [])) (fun q s =>
        let es := deltaOn d r y q
        let at_ := match es with | e :: _ => e.1 | [] => 0
        if readLen (x.srcAddr.toNat + y.dataOff.toNat + 32 * at_) 1 stop = 0 then s else putCopy egressLoad (.delta g v region q q (backing x.srcSpace) (es.map (fun e => e.2))
          (x.srcAddr.toNat + y.dataOff.toNat + 32 * at_) (x.srcAddr.toNat + y.scaleOff.toNat + at_)) s) s
    | _, _, _ => s

/-- RELOAD_START (08 R228): the first tainted region is written again from the backing copy. -/
def reloadStarts (t : ReloadOf) (s : State) : State :=
  if s.gdnDown 0 then s else
  match t with
  | .model m =>
    let x := s.slot m.val
    if x.state = .tainted && !x.reloading && s.mayReload x.taintStep then
      s.onSlot m.val (fun x => { x with reloading := true, copyAt := s.ctl.lcc })
    else s
  | .graft g v => match s.gver g v with
    | some x => if x.state = .tainted && !x.reloading && s.mayReload x.taintStep
        then onGVer g v (fun x => { x with reloading := true, copyAt := s.ctl.lcc }) s else s
    | none => s

/-- The stacks of a set. -/
def stackSet (b : BitVec 12) : List Nat := (List.range 12).filter (fun i => b.getLsbD i)

/-- The cause that fails a reload (08 R228, R230); 0 for none. -/
def reloadCause : ReloadSeen → Nat
  | .refused => 2
  | .poisoned => 3
  | .readBack first second => if first &&& second = 0 then 0 else 5

/-- The parts whose first read-back returned poison: each is written again, at a fresh location on its stack (08 R228). -/
def freshParts : ReloadSeen → List Nat
  | .readBack first _ => stackSet first
  | _ => []

/-- New fresh locations among those known. -/
def addFresh (region : Nat) (qs : List Nat) (l : List (Nat × Nat)) : List (Nat × Nat) :=
  l ++ (qs.map (fun q => (region, q))).filter (fun e => !l.contains e)

/-- A version's region is reloaded; with the last, it returns to the state it left and its rows' graft hold is lifted
(08 R231). -/
def graftBack (g : Nat) (v : U16) (s : State) : State :=
  match s.gver g v with
  | none => s
  | some x =>
    let s := ghEvent 9 0 x.base.toNat g (x.taint.headD 0) v.toNat s
    let rest := x.taint.drop 1
    let s := onGVer g v (fun x => { x with state := if rest = [] then x.back else .tainted, taint := rest, taintSteps := x.taintSteps.drop 1, reloading := false }) s
    if rest ≠ [] then s else
    gleanGrafts (liftMirrors 2 (mirrorUses g v) (liftHold 2 (usesVer g v) s))

/-- RELOAD_DONE (08 R228 to R232): every part of the region was copied, again from its start for each restart of G0 (16 R406), and once more
the parts whose read-back was poison. A refused read was at `stop`. Cold-frame moves that waited for the reload's copies start (R228). A graft's failed reload does not
touch the rows that move to a newer version at the next seal (R232). -/
def reloaded (t : ReloadOf) (seen : ReloadSeen) (stop : Option Nat) (s : State) : State :=
  let cause := reloadCause seen
  match t with
  | .model m =>
    let x := s.slot m.val
    if x.state ≠ .tainted || !x.reloading then s else
    let s := each (List.range x.redo) (fun _ => copyRegion m.val (x.taint.headD 0) none) s
    let s := copyParts m.val (x.taint.headD 0) (freshParts seen) none (copyRegion m.val (x.taint.headD 0) stop s)
    let s := (copiesBack cause s).onSlot m.val (fun x => { x with redo := 0, fresh := addFresh (x.taint.headD 0) (freshParts seen) x.fresh })
    if cause ≠ 0 then pumpMoves (slotLost m.val cause (x.taint.headD 0) s)
    else
      let s := ghEvent 4 0 m.val 0 (x.taint.headD 0) 0 s
      let rest := x.taint.drop 1
      let s := s.onSlot m.val (fun x => { x with
        taint := rest, taintSteps := x.taintSteps.drop 1, reloading := false, state := if rest = [] then .resident else .tainted })
      pumpMoves <| if rest ≠ [] then s else
        retryTenants (linkCheck (liftMirrors 1 (fun _ => s.teth.model.toNat = m.val) (liftHold 1 (ofModel m.val) s)))
  | .graft g v =>
    match s.gver g v with
    | none => s
    | some x =>
      if x.state ≠ .tainted || !x.reloading then s else
      let s := each (List.range x.redo) (fun _ => copyDelta g v (x.taint.headD 0) (List.range 12) none) s
      let s := copyDelta g v (x.taint.headD 0) (freshParts seen) none (copyDelta g v (x.taint.headD 0) (List.range 12) stop s)
      let s := onGVer g v (fun x => { x with redo := 0, fresh := addFresh (x.taint.headD 0) (freshParts seen) x.fresh }) (copiesBack cause s)
      if cause ≠ 0 then
        let s := onGVer g v (fun x => { x with state := .lost, reloading := false }) s
        let s := ghEvent 10 cause x.base.toNat g (x.taint.headD 0) v.toNat (loadFailLog cause x.srcAddr.toNat s)
        pumpMoves (endAll (fun r => usesVer g v r && !(r.row.isSome && (s.followVer r).isSome)) 0x33 0x30 s)
      else pumpMoves (graftBack g v s)

/-! ### Graft versions (08 R222 to R226) -/

/-- A version becomes LOADING; the nodes that name it are removed first (08 R223, 07 R199). -/
def acceptGraft (f : GraftF) (v : U16) (d : GraftDesc) (s : State) : State :=
  let x : GVer := { slot := f.graftSlot, ver := v, base := f.base, state := .loading, back := .resident, desc := d,
                    srcSpace := f.srcSpace, descAddr := f.descAddr, srcAddr := f.srcAddr }
  let s := { s with gh := { s.gh with grafts := s.gh.grafts ++ [x], newest := mput f.graftSlot.toNat v s.gh.newest } }
  onSeed (fun d => { d with walks := d.walks ++ [.graft f.graftSlot v] }) s

/-- The removal walk of a graft version has ended (07 R199). -/
def graftWalked (g : Nat) (v : U16) (s : State) : State :=
  if !s.seed.walks.contains (.graft (BitVec.ofNat 12 g) v) then s else
  let s := onSeed (fun d => { d with walks := d.walks.erase (.graft (BitVec.ofNat 12 g) v) }) s
  let s := removeNodes (fun n => n.key.graft = some (BitVec.ofNat 12 g, v)) s
  onGVer g v (fun x => { x with walked := true, copyAt := s.ctl.lcc }) s

/-- Place of a version in its slot's order of loading. -/
def State.age (s : State) (g : Nat) (v : U16) : Nat := (s.gh.grafts.filter (fun x => x.slot.toNat = g)).findIdx (fun x => x.ver = v)

/-- A failed graft load frees the version; its requests end FAULT (08 R223). -/
def graftFail (g : Nat) (v : U16) (cause region : Nat) (s : State) : State :=
  match s.gver g v with
  | none => s
  | some x =>
    let s := ghEvent 7 cause x.base.toNat g region v.toNat (loadFailLog cause x.srcAddr.toNat s)
    let s := { s with gh := { s.gh with grafts := s.gh.grafts.filter (fun y => !(y.slot.toNat = g && y.ver = v)) } }
    let top := (s.gh.grafts.filter (fun y => y.slot.toNat = g)).getLast?
    let s := { s with gh := { s.gh with newest := match top with | some y => mput g y.ver s.gh.newest | none => mdel g s.gh.newest } }
    endAll (usesVer g v) 0x30 0x30 s

/-- Read the tables of a graft, and copy its delta blocks of the first `n` entries (08 R221, R223). -/
def copyGraft (g : Nat) (v : U16) (n : Nat) (stop : Option Nat) (s : State) : State :=
  match s.gver g v with
  | none => s
  | some x =>
    let s := putReads (readsOf (.host none) (x.descAddr.toNat + x.desc.deltaTableOff.toNat) (32 * x.deltas.length)
      ++ x.deltas.flatMap (fun y => readsOf (backing x.srcSpace) (x.srcAddr.toNat + y.indexOff.toNat) (4 * y.blocks.length))) s
    let s := each ((List.range n).zip x.deltas) (fun e => copyDelta g v e.2.region.toNat (List.range 12) (if e.1 + 1 = n then stop else none)) s
    each (List.range x.redo) (fun _ s =>
      (copyDelta g v (((x.deltas.map (fun y => y.region.toNat)).getD (s.choice (min n x.deltas.length)) 0)) (List.range 12) none s).spend) s

/-- A version that is being loaded; GRAFT_RETIRE may have retired it meanwhile (08 R226). -/
def GVer.inLoad (x : GVer) : Bool := x.state = .loading || (x.state = .retired && !x.loaded)

/-- GRAFT_LOAD_DONE (08 R214, R223): the checks of step 1 come first, then what the copies met. While the base slot is still LOADING
its region table is not there to check against: the load goes on (DESIGN CHOICE, log entry 67). Rows of an older version that
follow move, and leave a graft hold, at the next seal (R225, R232). -/
def graftLoaded (g : Nat) (v : U16) (seen : GraftSeen) (stop : Option Nat) (s : State) : State :=
  match s.gver g v with
  | none => s
  | some x =>
    if !x.inLoad || !x.walked || (s.slot x.base.toNat).state = .loading then s else
    match s.desc x.base.toNat, seen.deltas with
    | some base, some ds =>
      let c := graftCause x.desc base (s.slot x.base.toNat).regions ds
      if c ≠ 0 then graftFail g v c 0 s else
        let s := onGVer g v (fun x => { x with deltas := ds }) s
        let s := copyGraft g v (match copyCause seen.copy with
          | some (_, r) => ds.findIdx (fun y => y.region.toNat = r) + 1
          | none => ds.length) stop s
        let s := copiesBack (((copyCause seen.copy).map (fun e => e.1)).getD 0) s
        match copyCause seen.copy with
        | some (c, r) => graftFail g v c r s
        | none =>
        let i := s.age g v
        let newer := (s.gh.grafts.filter (fun y => y.slot.toNat = g)).drop (i + 1) |>.any (fun y =>
          y.state = .resident || (y.state = .tainted && y.back = .resident))
        let st : GState := if x.state = .retired then .retired else if newer then .superseded else .resident
        let s := onGVer g v (fun x => { x with
          state := st, loaded := true, redo := 0, parts := deltaParts base (s.slot x.base.toNat).regions ds }) s
        let older := ((s.gh.grafts.filter (fun y => y.slot.toNat = g)).take i).map (fun y => y.ver)
        let s := if st ≠ .resident then s else each older (fun w s => onGVer g w (fun y =>
          if y.state = .resident then { y with state := .superseded }
          else if y.state = .tainted && y.back = .resident then { y with back := .superseded } else y) s) s
        retryTenants (gleanGrafts (ghEvent 6 0 x.base.toNat g 0 v.toNat s))
    | some _, none =>
      let l := readsOf (.host none) (x.descAddr.toNat + x.desc.deltaTableOff.toNat) (32 * x.desc.deltaCount.toNat)
      graftFail g v (((copyCause seen.copy).map (fun e => e.1)).getD 1) 0 (putReads (match stop with
        | some a => readsTo a l
        | none => l) s)
    | none, _ => graftFail g v 6 0 s

/-- GRAFT_RETIRE (08 R226): every version that is not LOST becomes RETIRED, a TAINTED one when its reload succeeds. -/
def graftRetire (g : Nat) (s : State) : State :=
  let s := { s with gh := { s.gh with
    grafts := s.gh.grafts.map (fun x =>
      if x.slot.toNat ≠ g || x.state = .lost then x
      else if x.state = .tainted then { x with back := .retired }
      else { x with state := .retired })
    newest := mdel g s.gh.newest } }
  gleanGrafts s

/-- The slot holds a graft. -/
def State.hasGraft (s : State) (g : Nat) : Bool := s.gh.grafts.any (fun x => x.slot.toNat = g)

/-- The version that an ADMIT may name: the slot's newest, loading or loaded, not retired nor lost (02 R39, 04 R87). -/
def State.graftFor (s : State) (f : AdmitF) : Option (BitVec 12 × U16) :=
  let g := f.graftSlot.toNat
  match mget g s.gh.newest with
  | none => none
  | some top =>
    let v := if f.graftCurrent then top else f.graftVer
    match s.gver g v with
    | some x =>
      let ok : Bool := x.base = f.model && (x.state = .loading || x.state = .resident || (x.state = .tainted && x.back = .resident))
      if ok then some (f.graftSlot, v) else none
    | none => none

/-- The version serves its users (02 R43, 08 R222): its delta blocks are in place. -/
def State.graftUp (s : State) (r : Req) : Bool :=
  match r.graft with
  | none => true
  | some (g, v) => match s.gver g.toNat v with
    | some x => x.loaded && (x.state = .resident || x.state = .superseded || x.state = .tainted || x.state = .retired)
    | none => false

end Sys2Proof.Machine
end

