-- ==== Sys2Proof/Machine/Mail.lean ====
section
/-! DEFINITION. The messages (04): their checks, effects and completions, and the firmware work that they start: copies,
admission, tenant resets, SELECT jobs and COLD_FLUSH. -/

namespace Sys2Proof.Machine

/-! ### Host faults (01 R25, R447; 15 R377) -/

/-- TENANT_HOST: a refused access of a tenant. On the management page's behalf it is MGMT_HOST. -/
def hostFault (p detail addr handle : Nat) (s : State) : State :=
  if p < 16 then logErr { code := 0x03, scope := 3, detail, island := 14, origin := 3, tenant := some p, addr, handle } s
  else logErr { code := 0x04, scope := 6, island := 14, origin := 3, addr, handle } s

/-! ### Checks (R83) -/

def viaOnRing : Via → Bool
  | .ring _ => true
  | .urgent .. => false

/-- The opcode is accepted on the path that carried it (R71, R82). -/
def pathOk (via : Via) (i : Instr) : Bool :=
  let o := msgOpcode i
  opListed o && (if viaOnRing via then o ≠ 0x10 else o = 0x02 || o = 0x10)

/-- Checks 1 to 6 of R83, in order: the status of the first that fails. -/
def preCheck (p : Nat) (via : Via) (i : Instr) (s : State) : Option Nat :=
  let h := viaHdr via
  let o := msgOpcode i
  if h.gen ≠ (s.page p).gen then some stNotCurrent
  else if h.length = 0 || 4 < h.length.toNat then some stBadField
  else if !pathOk via i then some stBadOpcode
  else if (p = mgmt && opTenantOnly o) || (p ≠ mgmt && opMgmtOnly o) then some stDenied
  else if h.length.toNat ≠ opUnits o then some stBadField
  else if o ≠ 0x01 && (h.rsv || !fieldsOk p i) then some stBadField
  else none

/-! ### ADMIT (02 R39 to R41; 04 R87, R88) -/

/-- The lowest key from `n` on that a table with rising keys does not hold. -/
def lowestFree {α : Type} : Nat → List (Nat × α) → Nat
  | n, [] => n
  | n, (k, _) :: r => if k < n then lowestFree n r else if k = n then lowestFree (n + 1) r else n

/-- The lowest descriptor slot neither allocated nor retired (02 R33, 15 R387). -/
def State.freeSlot (s : State) : Nat :=
  lowestFree 0 (s.wdog.retiredSlots.foldl (fun m k => mput k () m) (s.reqs.map (fun e => (e.1, ()))))

/-- A tenant budget is spent (11 R300). -/
def Ten.spent (x : Ten) : Bool :=
  (x.budTime ≠ 0 && decide (x.budTime.toNat ≤ x.useNs / 1000)) || (x.budBytes ≠ 0 && decide (x.budBytes.toNat ≤ x.useBytes))
    || (x.budEnergy ≠ 0 && decide (x.budEnergy.toNat ≤ x.useNj / 1000))

/-- Loaded or loading (02 R39 check 3). -/
def State.slotNamed (s : State) (m : Nat) : Bool :=
  (s.slot m).state = .loading || (s.slot m).state = .resident || (s.slot m).state = .tainted

/-- Checks 2 to 9 of 02 R39, with 11 R293, R294 and 13 R334: the status of the first that fails. -/
def admitCheck (t : Nat) (h : Hdr) (f : AdmitF) (s : State) : Option Nat :=
  let x := s.ten t
  let m := f.model.toNat
  if s.grouped && !s.leader then some stDenied
  else if h.rsv || f.rsv || f.promptAddr.toNat % 4 ≠ 0 || f.maxNew = 0 || x.maxClass.toNat < f.cls.toNat
    || !mhas f.profile.toNat x.profiles then some stBadField
  else if !s.slotNamed m || (f.graftValid && (s.graftFor f).isNone) then some stNotResident
  else match s.spool t f.spool.toNat with
    | none => some stBadField
    | some sp =>
      if sp.broken then some stBadField
      else if sp.owner.isSome then some stBusy
      else if f.promptLen = 0 || s.contextLen m ≤ f.promptLen.toNat then some stBadField
      else if f.deadline ≠ 0 && f.deadline.toNat ≤ s.ctl.lcc.toNat then some stExpired
      else if x.weight = 0 || x.quota.toNat ≤ s.liveOf t || x.spent then some stQuota
      else if 1048576 ≤ s.freeSlot then some stNoRoom
      else none

/-- Allocate the descriptor, bind the spool and start the copy of the prompt (02 R33, R39, R40). -/
def admitAccept (t : Nat) (h : Hdr) (f : AdmitF) (s : State) : State :=
  let slot := s.freeSlot
  let gen := ((mget slot s.gens).getD 0) + 1
  let hd := mkHandle t slot gen.toNat
  let r : Req :=
    { handle := hd
      adm := f
      order := s.seq
      born := s.ctl.lcc
      since := s.ctl.lcc
      model := f.model
      graft := if f.graftValid then s.graftFor f else none
      noOffer := f.noOffer
      newLeft := f.maxNew.toNat
      budTime := left f.budgetTime 0
      budBytes := left f.budgetBytes 0
      budEnergy := left f.budgetEnergy 0 }
  let s := { s with reqs := mput slot r s.reqs, gens := mput slot gen s.gens, seq := s.seq + 1 }
  let s := onSpool t f.spool.toNat (fun sp => { sp with owner := some hd }) s
  quotaCheck t (startWait t h 0x01 (.prompt hd f.promptAddr) (gdnWrite t 512 s))

def hAdmit (t : Nat) (h : Hdr) (f : AdmitF) (s : State) : State :=
  match admitCheck t h f s with
  | some st => reply t h 0x01 st [] (trace 25 3 (s.page t).gardener.toNat (some t) 0 st 0 0 s)
  | none => admitAccept t h f s

/-- The reads of a prompt (02 R40). -/
def State.promptReads (s : State) (r : Req) : List HostRd :=
  readsOf (.host (s.pasidOf (hTenant r.handle))) r.adm.promptAddr.toNat (4 * r.adm.promptLen.toNat)

/-- PROMPT_COPIED: the prompt stands in the token log, and the ADMIT completes (02 R40, 04 R88). An end that waited for the copy
follows (DESIGN CHOICE, log entry 63). -/
def promptCopied (hd : U32) (toks : List U32) (s : State) : State :=
  match s.reqH hd with
  | none => s
  | some r =>
    if r.copied || toks.length ≠ r.adm.promptLen.toNat then s else
      let n := toks.length
      let t := hTenant hd
      let s := gdnWrite t (4 * n) <| putReads (s.promptReads r) (s.onReqH hd (fun r => { r with log := toks, copied := true, promptEnd := n - 1, tokensIn := n }))
      let s := s.onTen t (fun x => { x with tokensIn := x.tokensIn + BitVec.ofNat 64 n })
      let s := chargeReq hd { hostBytes := BitVec.ofNat 64 (4 * n) } s
      let v := match r.graft with | some (_, v) => v.toNat | none => 0
      let s := finish t (fun x => match x.wait with
        | .prompt h _ => if h = hd then some (stOk, [(16, hd.toNat), (20, v)]) else none
        | _ => none) s
      match r.doomed with
      | some st => endNow hd st s
      | none => s

/-! ### Messages that name a request (R84, 07 R207) -/

/-- The request a message names, once an expired one has ended (R33, R84, 07 R207). One whose prompt is still being copied
is no request yet (02 R40). -/
def State.named (s : State) (p : Nat) (h : U32) : State × Option Req :=
  let s := match s.reqOf p h with | some _ => expireReq h s | none => s
  (s, (s.reqOf p h).bind (fun r => if r.copied then some r else none))

/-- CANCEL (R89 to R91). -/
def hCancel (p : Nat) (via : Via) (f : HandleF) (s : State) : State :=
  let (s, who) := s.named p f.handle
  match who with
  | none => replyVia p via 0x02 stBadHandle [] 0 0 s
  | some r =>
    if r.state = .ended then replyVia p via 0x02 stAlreadyEnded [(16, r.endStatus.toNat)] r.endStatus.toNat 0 s
    else if r.row.isNone && !r.cancelPending then replyVia p via 0x02 stOk [(16, 0x10)] 0x10 0 (endNow f.handle 0x10 s)
    else
      let first := !r.cancelPending
      let s := if first then (handOver f.handle .cancel s).onReqH f.handle (fun r => { r with cancelPending := true }) else s
      match via with
      | .ring h => startWait p h 0x02 (.cancel f.handle s.dueComp first) s
      | .urgent .. => replyVia p via 0x02 stOk [] 0x100 0 s

/-- PAUSE (R92, 02 R37, R38, R47). -/
def hPause (p : Nat) (h : Hdr) (f : HandleF) (s : State) : State :=
  let (s, who) := s.named p f.handle
  match who with
  | none => reply p h 0x03 stBadHandle [] s
  | some r =>
    if r.state = .ended then reply p h 0x03 stAlreadyEnded [(16, r.endStatus.toNat)] s
    else if r.state = .queued || r.state = .admitted then reply p h 0x03 stBusy [] s
    else if r.row.isSome then
      let d := s.dueComp
      let s := (handOver f.handle (.pause f.ttl) s).onReqH f.handle (fun r => { r with pausePending := true })
      startWait p h 0x03 (.pause f.handle d f.ttl) s
    else reply p h 0x03 stOk [] (pauseNow f.handle f.ttl s)

/-- A RESUME of the request waits. -/
def State.resuming (s : State) (h : U32) : Bool :=
  s.pages.any (fun g => g.started.any (fun x => match x.wait with | .resume k => k = h | _ => false))

/-- An EXTEND of the request copies its tokens. -/
def State.extending (s : State) (h : U32) : Bool :=
  s.pages.any (fun g => g.started.any (fun x => match x.wait with | .extend k _ => k = h | _ => false))

/-- Bring a PAUSED or COLD request back: offered to the layout at once where its plots are in stack memory, else through a
restore, which waits for the spills of the request (R93, R95, 07 R205). -/
def bringBack (h : U32) (s : State) : State :=
  let slot := hSlot h
  match s.reqH h with
  | none => s
  | some r =>
    if r.state = .paused && r.table.all (fun e => e.loc = 0) && (movesOf slot s).isEmpty then
      offerBack h s
    else
      restores (({ s with seq := s.seq + 1 }).onReqH h (fun r => { r with restore := some ⟨false, [], none, false⟩, heldSeq := s.seq }))

/-- RESUME (R93). -/
def hResume (p : Nat) (h : Hdr) (f : HandleF) (s : State) : State :=
  let (s, who) := s.named p f.handle
  match who with
  | none => reply p h 0x04 stBadHandle [] s
  | some r =>
    if r.state = .ended then reply p h 0x04 stAlreadyEnded [(16, r.endStatus.toNat)] s
    else if !(r.state = .paused || r.state = .cold) || r.extendPending || s.extending f.handle then reply p h 0x04 stBusy [] s
    else if r.turnEnd then reply p h 0x04 stBadField [] s
    else if s.resuming f.handle then startWait p h 0x04 (.resume f.handle) s
    else bringBack f.handle (startWait p h 0x04 (.resume f.handle) s)

/-- EXTEND (R95). -/
def hExtend (p : Nat) (h : Hdr) (f : ExtendF) (s : State) : State :=
  let (s, who) := s.named p f.handle
  match who with
  | none => reply p h 0x05 stBadHandle [] s
  | some r =>
    if r.state = .ended then reply p h 0x05 stAlreadyEnded [(16, r.endStatus.toNat)] s
    else if !(r.state = .paused || r.state = .cold) || r.extendPending || s.extending f.handle || s.resuming f.handle then
      reply p h 0x05 stBusy [] s
    else if s.contextLen r.model.toNat ≤ r.logEnd + f.count.toNat + 1 then reply p h 0x05 stBadField [] s
    else startWait p h 0x05 (.extend f.handle f) s

/-- The tokens of the EXTEND that waits for a request. -/
def State.extendOf (s : State) (h : U32) : Option ExtendF :=
  (s.page (hTenant h)).started.findSome? (fun x => match x.wait with | .extend k f => if k = h then some f else none | _ => none)

/-- The reads of an EXTEND's tokens (02 R49). -/
def State.extendReads (s : State) (hd : U32) (f : ExtendF) : List HostRd :=
  readsOf (.host (s.pasidOf (hTenant hd))) f.tokensAddr.toNat (4 * f.count.toNat)

/-- EXTEND_TOKENS_COPIED: the tokens stand in the log, the message completes and the request rejoins later (02 R49,
04 R95). -/
def extendCopied (hd : U32) (toks : List U32) (s : State) : State :=
  match s.reqH hd, s.extendOf hd with
  | some r, some f =>
    if toks.length ≠ f.count.toNat || !(r.state = .paused || r.state = .cold) then s else
      let n := toks.length
      let t := hTenant hd
      let s := (gdnWrite t (4 * n) (putReads (s.extendReads hd f) s)).onReqH hd (fun r =>
        { r with
          log := r.log ++ toks
          promptEnd := r.logEnd + n
          newLeft := f.maxNew.toNat
          extendPending := true
          stopMatch := 0
          replay := false
          next := if r.left = some .decode && !r.replay then r.committed.getD 0 else r.next
          tokensIn := r.tokensIn + n })
      let s := s.onTen t (fun x => { x with tokensIn := x.tokensIn + BitVec.ofNat 64 n })
      let s := chargeReq hd { hostBytes := BitVec.ofNat 64 (4 * n) } s
      let s := bringBack hd s
      finish t (fun x => match x.wait with
        | .extend k _ => if k = hd then some (stOk, []) else none
        | _ => none) s
  | _, _ => s

/-- The image of a request's Trellis row as of the last composition (05 R111, R113). -/
def State.rowImage (s : State) (r : Req) : Option Row := r.row.bind (fun i => mget i.toNat s.sow.trellis)

/-- A request with the fields of its row as of the last composition (R94). CANCEL_PENDING stays live: R94 says that a cancellation
waits (DEDUCED, log entry 68). -/
def Req.atSeal (r : Req) : Option Row → Req
  | none => r
  | some x =>
    { r with
      state := x.state
      left := x.left
      holds := x.holds
      committed := x.committed
      model := x.model
      graft := x.graft
      fellBack := x.fellBack
      switched := x.switched }

/-- RESULT of QUERY_REQ (R94). -/
def queryResult (r : Req) (lcc : U64) : List (Nat × Nat) :=
  let (g, v) := match r.graft with | some (g, v) => (g.toNat, v.toNat) | none => (0, 0)
  let ttl := match r.expiry with
    | some x => if r.state = .paused || r.state = .cold then cdiv (x.toNat - lcc.toNat) 1000000000 else 0
    | none => 0
  [(16, r.state.code), (17, match r.left with | some x => x.code | none => 0xFF), (18, r.holds.bits), (19, r.endStatus.toNat),
   (20, r.committed.getD 0 % 2 ^ 24 + (if r.committed.isSome then 2 ^ 24 else 0)), (24, r.tokensOut % 2 ^ 32),
   (28, r.draftsOk % 2 ^ 32), (32, r.model.toNat),
   (33, b2n r.turnEnd + 2 * b2n r.fellBack + 4 * b2n r.extendPending + 8 * b2n r.switched + 16 * b2n r.cancelPending),
   (34, g), (36, v), (38, match r.row with | some x => x.toNat + 2 ^ 15 | none => 0), (40, ttl), (48, r.since.toNat)]

/-- QUERY_REQ (R94). -/
def hQueryReq (p : Nat) (h : Hdr) (f : HandleF) (s : State) : State :=
  let (s, who) := s.named p f.handle
  match who with
  | none => reply p h 0x08 stBadHandle [] s
  | some r => reply p h 0x08 stOk (queryResult (r.atSeal (s.rowImage r)) s.ctl.lcc) s

/-! ### Profiles and spools (R96 to R98) -/

/-- Sum the bias entries by index in list order; none where a value or a sum is not finite, or a reserved bit is set
(R96). -/
def sumBias : List Bias → List (Nat × U32) → Option (List (Nat × U32))
  | [], acc => if acc.all (fun e => f32Finite e.2) then some acc else none
  | b :: r, acc =>
    if b.rsv ≠ 0 || !f32Finite b.value then none else
      let v := match mget b.index.toNat acc with | some x => add32 x b.value | none => b.value
      sumBias r (mput b.index.toNat v acc)

def setProfile (t : Nat) (f : ProfileF) (bias : List (Nat × U32)) (s : State) : State :=
  gdnWrite t (192 + 8 * f.biasCount.toNat) (s.onTen t (fun x => { x with profiles := mput f.profile.toNat ⟨f, bias⟩ x.profiles }))

/-- SET_PROFILE: at once without a bias list, else once it is copied (R96, R97). -/
def hSetProfile (t : Nat) (h : Hdr) (f : ProfileF) (s : State) : State :=
  if f.biasCount = 0 then reply t h 0x06 stOk [] (setProfile t f [] s) else startWait t h 0x06 (.bias f) s

/-- The SET_PROFILE that waits under a tag. -/
def State.biasOf (s : State) (p : Nat) (tag : U16) : Option ProfileF :=
  (s.page p).started.findSome? (fun x => match x.wait with | .bias f => if x.hdr.tag = tag then some f else none | _ => none)

/-- Complete the first message of a page that waits under a tag and for which `pick` answers. -/
def finishTag (p : Nat) (tag : U16) (pick : Wait → Bool) (st : Nat) (res : List (Nat × Nat)) (s : State) : State :=
  match (s.page p).started.find? (fun x => x.hdr.tag = tag && pick x.wait) with
  | some x =>
    let s := s.onPage p (fun g => { g with started := g.started.erase x })
    if x.mute then s else complete p ⟨x.opcode, x.hdr, BitVec.ofNat 16 st, resultOf res⟩ s
  | none => s

def Wait.isBias : Wait → Bool
  | .bias _ => true
  | _ => false

/-- The reads of a bias list (R96). -/
def State.biasReads (s : State) (p : Nat) (f : ProfileF) : List HostRd :=
  readsOf (.host (s.pasidOf p)) f.biasAddr.toNat (8 * f.biasCount.toNat)

/-- BIAS_LIST_COPIED (R96). -/
def biasCopied (p : Nat) (tag : U16) (es : List Bias) (s : State) : State :=
  match s.biasOf p tag with
  | none => s
  | some f =>
    if es.length ≠ f.biasCount.toNat then s else
      let s := putReads (s.biasReads p f) s
      match sumBias es [] with
      | some l => finishTag p tag Wait.isBias stOk [] (setProfile p f l s)
      | none => finishTag p tag Wait.isBias stBadField [] s

/-- OPEN_SPOOL (R98, 10 R276). `refused`: the host refuses the header write. -/
def hOpenSpool (t : Nat) (h : Hdr) (f : SpoolF) (refused : Bool) (s : State) : State :=
  let k := f.spool.toNat
  match s.spool t k with
  | some ⟨_, _, _, _, _, some _, _⟩ => reply t h 0x07 stBusy [] s
  | _ =>
    let s := tailGone t k (s.onTen t (fun x => { x with spools := mdel k x.spools }))
    if f.log2 = 0 then reply t h 0x07 stOk [] s
    else if refused then reply t h 0x07 stBadField [] (hostFault t 3 f.hdrAddr.toNat 0 s)
    else
      let sp : Spool := { log2 := f.log2, hdrAddr := f.hdrAddr, ringAddr := f.ringAddr }
      let s := s.onTen t (fun x => { x with spools := mput k sp x.spools })
      reply t h 0x07 stOk [] (hostWrite (egressGardener (s.page t).gardener.toNat) t 64 (.spoolInit t f.hdrAddr s.ctl.lcc) s)

/-! ### TIME_XCHG and SELECT (R80, R99, R100; 09 R254 to R259) -/

def hTimeXchg (p : Nat) (via : Via) (f : TimeF) (s : State) : State :=
  replyVia p via 0x10 stOk [] f.host.toNat s.ctl.lcc.toNat s

def selectOk (f : SelectF) : Bool :=
  let e := elemBytes f.format
  e ≠ 0 && f.k ≠ 0 && f.src.toNat % e = 0 && f.stride.toNat % e = 0 && decide (f.rowLen.toNat * e ≤ f.stride.toNat)
    && !(f.threshEn && f32Nan f.thresh)

def hSelect (p : Nat) (h : Hdr) (f : SelectF) (s : State) : State :=
  if p ≠ mgmt && f.space then reply p h 0x11 stDenied [] s
  else if 16 ≤ ((s.page p).started.filter (fun x => x.wait.isSelect)).length then reply p h 0x11 stBusy [] s
  else if !selectOk f then reply p h 0x11 stBadField [] s
  else startWait p h 0x11 (.select f) s

/-- Negate a binary32 for the ranking of SMALLEST. -/
def flip32 (x : U32) : U32 := x ^^^ 0x80000000

/-- One piece of a row, from element `off` on, selected into a list (09 R255): as SMALLEST ranks them, the values are negated. -/
def pieceList (f : SelectF) (off : Nat) (xs : List U32) (free : Nat) : Merge :=
  let es := (List.range xs.length).zip (xs.map (elemTo32 f.format))
  let es := es.filter (fun e => f32Nan e.2 || !(f.threshEn && (if f.smallest then f32Lt f.thresh e.2 else f32Lt e.2 f.thresh)))
  es.foldl (fun m e => Merge.entry f.k.toNat (if f.smallest && !f32Nan e.2 then flip32 e.2 else e.2, BitVec.ofNat 22 (off + e.1), true) m)
    ⟨[], 0, free⟩

/-- A lane takes a piece: its list into the first job buffer, merged with the lists of the row's earlier pieces in the second (09 R236,
R256). -/
def selectPiece (f : SelectF) (k : Nat) (a : State × Nat) (piece : Nat × List U32) : State × Nat :=
  let s := a.1
  let m := pieceList f piece.1 piece.2 s.free
  let r : Merge := if piece.1 = 0 then m else
    m.list.foldl (fun m e => Merge.entry f.k.toNat (e.1, e.2, true) m) ⟨(s.prn.lanes.getD k {}).jobs.getD 1 [], 0, m.free⟩
  (onLane k (fun x => { x with jobs := [m.list, r.list] }) { s with free := r.free }, a.2 + m.nans)

/-- A row's pieces of 4,096 elements, each with its first element (09 R256). -/
def piecesOf (row : List U32) : List (Nat × List U32) :=
  (List.range (cdiv row.length 4096)).map (fun i => (4096 * i, (row.drop (4096 * i)).take 4096))

/-- The lane that takes a row's pieces: the first whose input queue holds no partial list (09 R256, R258; DESIGN CHOICE, log entry 64). -/
def State.jobLane (s : State) : Nat := s.prn.lanes.findIdx (fun x => x.queue = [])

/-- One row of a job: its merged list in descending rank with the original values (09 R255, R256), and the NaNs dropped. The lane's job
buffers are free again. -/
def selectRow (f : SelectF) (row : List U32) (s : State) : List (U32 × BitVec 22) × State × Nat :=
  let k := s.jobLane
  let r := (piecesOf row).foldl (selectPiece f k) (s, 0)
  let l := if row = [] then [] else (r.1.prn.lanes.getD k {}).jobs.getD 1 []
  (if f.smallest then l.map (fun e => (flip32 e.1, e.2)) else l, onLane k (fun x => { x with jobs := [[], []] }) r.1, r.2)

/-- Write the rows of a job, with padding after the candidates and zero bytes up to the 64 B boundary (09 R250, R257). -/
def selectRows (p : Nat) (f : SelectF) : List (List U32) → Nat → Nat → State → State × Nat
  | [], _, nans, s => (s, nans)
  | row :: rows, i, nans, s =>
    let (l, s, n') := selectRow f row s
    let addr := f.dst.toNat + i * (cdiv (8 * f.k.toNat) 64 * 64)
    let es := l.map (fun e => (e.1, e.2, true)) ++ List.replicate (f.k.toNat - l.length) (negInf32, 0x3FFFFF, false)
    let n := cdiv (8 * f.k.toNat) 64 * 64
    let s := hostWrite egressSelect p n (.select p f.space (BitVec.ofNat 64 addr) es (n - 8 * f.k.toNat)) s
    selectRows p f rows (i + 1) (nans + n') s

/-- The job of a partition that is served: jobs are served in their start order (09 R258). -/
def State.selectOf (s : State) (p : Nat) (tag : U16) : Option SelectF :=
  match (s.page p).started.find? (fun x => x.wait.isSelect) with
  | some x => match x.wait with | .select f => if x.hdr.tag = tag then some f else none | _ => none
  | none => none

/-- No lane works on jobs from a step's seal point until the first work item of the next step is dispatched (09 R258). -/
def State.lanesFree (s : State) : Bool :=
  match s.sow.exec with
  | some x => x.dispatched && x.sealAt.isNone
  | none => true

/-- The reads of row `i` of a job (09 R254, R256). -/
def State.selectReads (s : State) (p : Nat) (f : SelectF) (i : Nat) : List HostRd :=
  readsOf (if f.space then .stack else .host (s.pasidOf p)) (f.src.toNat + i * f.stride.toNat) (f.rowLen.toNat * elemBytes f.format)

/-- The reads of a job that failed at `addr` after `n` rows: no row is read after the one that failed, and of this one nothing beyond a
refused read (09 R259, 01 R447). -/
def State.readsFailed (s : State) (p : Nat) (f : SelectF) (n addr : Nat) : List HostRd :=
  let l := s.selectReads p f n
  let inRow := decide (f.src.toNat + n * f.stride.toNat ≤ addr) && decide (addr < f.src.toNat + n * f.stride.toNat + f.rowLen.toNat * elemBytes f.format)
  if f.rows.toNat ≤ n then [] else if inRow then readsTo addr l else l

/-- End a job with the rows whose outputs are written, and the reads of a row that failed: the bytes are charged to the tenant (11
R287). -/
def selectEnd (p : Nat) (tag : U16) (f : SelectF) (rows : List (List U32)) (failed : List HostRd) (st : Nat) (s : State) : State :=
  let n := rows.length
  let reads := (List.range n).flatMap (s.selectReads p f) ++ failed
  let (s, nans) := selectRows p f rows 0 0 (putReads reads s)
  let io := (reads.map (fun r => r.bytes)).sum + n * (cdiv (8 * f.k.toNat) 64 * 64)
  let s := if f.space then s else chargeTen p io s
  finishTag p tag Wait.isSelect st [(16, n), (20, nans % 2 ^ 32)] s

/-- The rows are rows of the job's tensor. -/
def rowsFit (f : SelectF) (rows : List (List U32)) : Bool :=
  decide (rows.length ≤ f.rows.toNat) && rows.all (fun r => r.length = f.rowLen.toNat)

/-- SELECT_DONE: every row is read, selected and written (R100, 09 R255 to R258). -/
def selectDone (p : Nat) (tag : U16) (rows : List (List U32)) (s : State) : State :=
  match s.selectOf p tag with
  | none => s
  | some f => if rows.length ≠ f.rows.toNat || !rowsFit f rows || !s.lanesFree then s else selectEnd p tag f rows [] stOk s

/-- A job that cannot go on: refused or poisoned at `addr` (09 R259). Exactly the counted rows are written; the spec leaves open whether
later ones were (DESIGN CHOICE, log entry 62). -/
def selectFail (p : Nat) (tag : U16) (rows : List (List U32)) (addr : Nat) (s : State) : State :=
  match s.selectOf p tag with
  | none => s
  | some f => if !rowsFit f rows then s else selectEnd p tag f rows (s.readsFailed p f rows.length addr) stBadField s

/-! ### Tenants (R101 to R103) -/

/-- The gardener core for a partition: of cores 1 to 7 not out, the one that serves the fewest partitions. -/
def State.gardenerFor (s : State) : Nat :=
  let load (c : Nat) : Nat := (s.pages.filter (fun g => g.isOpen && g.gardener.toNat = c)).length
  let cs := ((List.range 7).map (fun i => i + 1)).filter (fun c => !s.wdog.gdnOut.getLsbD c)
  (cs.foldl (fun b c => match b with
    | none => some c
    | some x => if load c < load x then some c else some x) none).getD 0

/-- TENANT_OPEN (R101, R61, 07 R186). -/
def hTenantOpen (h : Hdr) (f : TenantOpenF) (s : State) : State :=
  let t := f.tenant.toNat
  if (s.page t).isOpen then reply mgmt h 0x20 stBusy [] s
  else if (s.pages.take 16).any (fun g => g.isOpen && g.pasid = f.pasid) then reply mgmt h 0x20 stBadField [] s
  else
    let c := s.gardenerFor
    let s := s.onPage t (fun g =>
      { g with
        isOpen := true
        gen := g.gen + 1
        pasid := f.pasid
        follow := f.follow
        gardener := BitVec.ofNat 4 c })
    let s := s.onTen t (fun x =>
      { x with
        epoch := x.epoch + 1
        openedAt := s.ctl.lcc
        ctr := {}
        tokensIn := 0
        tokensOut := 0
        profiles := [] })
    reply mgmt h 0x20 stOk [(16, (s.page t).gen.toNat), (17, c)] s

/-- Rows of a tenant. -/
def State.tenRows (s : State) (t : Nat) : List U32 :=
  (s.reqs.filter (fun e => e.2.row.isSome && hTenant e.2.handle = t)).map (fun e => e.2.handle)

/-- Start a tenant reset (R102 steps 1 to 4). -/
def startReset (t : Nat) (close : Bool) (s : State) : State :=
  let due := if s.tenRows t = [] then s.sow.comp else s.dueComp
  let s := s.onPage t (fun g =>
    { g with
      stopping := some ⟨close, due, false⟩
      started := []
      waiting := []
      journal := []
      ring := []
      begun := 0
      urgQueue := []
      slots := g.slots.map (fun u => { u with busy := false }) })
  let mine := (s.reqs.filter (fun e => hTenant e.2.handle = t)).map (fun e => e.2.handle)
  each mine (fun h s => match s.reqH h with
    | none => s
    | some r =>
      if !r.copied then freeReq h s
      else if r.state = .ended then s.onReqH h (fun r =>
        { r with bufRecs := r.bufRecs.filter (fun x => x.isEnd), newRecs := r.newRecs.filter (fun x => x.isEnd) })
      else endCause h 0x31 s) s

/-- TENANT_RESET (R102). -/
def hTenantReset (p : Nat) (h : Hdr) (f : TenantResetF) (s : State) : State :=
  let t := f.tenant.toNat
  if p ≠ mgmt && f.close then reply p h 0x21 stDenied [] s
  else if !(s.page t).isOpen then reply p h 0x21 stOk [] s
  else
    let s := if p = mgmt then startWait p h 0x21 (.reset f.tenant.toFin) s else s
    match (s.page t).stopping with
    | some _ => s.onPage t (fun g => { g with stopping := g.stopping.map (fun (x : Stopping) => { x with close := x.close || f.close }) })
    | none => startReset t f.close s

/-- Write the END records of the requests of a tenant that have room, and free the descriptors (02 R58). A write that the host refuses
is recorded with its address (01 R25) and is dropped without further fault (02 R58). -/
def flushEnds (t : Nat) (refused : List (U16 × U64)) (s : State) : State :=
  each ((s.reqs.filter (fun e => hTenant e.2.handle = t)).map (fun e => e.2.handle)) (fun h s =>
    match s.reqH h with
    | none => s
    | some r =>
      let k := r.adm.spool
      let s := s.onReqH h (fun r =>
        { r with bufRecs := ((r.bufRecs ++ r.newRecs).filter (fun x => x.isEnd)).getLast?.toList, newRecs := [] })
      let s := match refused.find? (fun e => e.1 = k) with
        | some e => hostFault t 3 e.2.toNat h.toNat s
        | none => releaseReq h s
      freeReq h s) s

/-- TENANT_RESET_DONE: steps 5 and 6 of R102, once the tenant's rows have ended. -/
def resetDone (t : Nat) (refused : List (U16 × U64)) (s : State) : State :=
  match (s.page t).stopping with
  | none => s
  | some x =>
    if s.sow.comp < x.due || s.tenRows t ≠ [] then s else
      let s := flushEnds t refused s
      let s := each ((s.ten t).pins) (fun p s => pinNodes false p.nodes s) s
      let s := s.onTen t (fun y =>
        { y with
          profiles := []
          spools := []
          pins := []
          epoch := y.epoch + 1 })
      let s := s.onPage t (fun g =>
        { g with
          gen := g.gen + 1
          isOpen := g.isOpen && !x.close
          gardener := if x.close then 0 else g.gardener
          sqEn := false
          cqEn := false
          faultStop := false
          sqTail := 0
          sqHead := 0
          cqHead := 0
          cqTail := 0
          phase := false
          ring := []
          begun := 0
          stopping := none })
      let s := vecEvent t 4 s
      finish mgmt (fun y => match y.wait with
        | .reset k => if k.val = t then some (stOk, []) else none
        | _ => none) s

/-- The ledger record of a request: its totals and its row's counters as of the last seal (11 R292). -/
def reqRecord (r : Req) : LedgerRec :=
  { perReq := true
    ended := r.state = .ended
    tenant := BitVec.ofNat 4 (hTenant r.handle)
    live := 0
    handle := r.handle
    since := r.born
    ctr := r.ctr.add r.rowSeal
    tokensIn := BitVec.ofNat 64 r.tokensIn
    tokensOut := BitVec.ofNat 64 r.tokensOut
    time := r.budTime
    bytes := r.budBytes
    energy := r.budEnergy
    last := match r.late with | some x => BitVec.ofInt 64 x | none => 0x8000000000000000 }

/-- The ledger record of a tenant (11 R292). -/
def tenRecord (t : Nat) (s : State) : LedgerRec :=
  let x := s.ten t
  let rows := (s.reqs.filter (fun e => hTenant e.2.handle = t)).map (fun e => e.2.rowSeal)
  { perReq := false
    ended := false
    tenant := BitVec.ofNat 4 t
    live := BitVec.ofNat 21 (s.liveOf t)
    handle := x.lastWarn
    since := x.openedAt
    ctr := rows.foldl Ledg.add x.ctr
    tokensIn := x.tokensIn
    tokensOut := x.tokensOut
    time := BitVec.ofNat 64 (x.useNs / 1000)
    bytes := BitVec.ofNat 64 x.useBytes
    energy := BitVec.ofNat 64 (x.useNj / 1000)
    last := BitVec.ofInt 64 x.deficit }

/-- QUERY_LEDGER (R103). `refused`: the host refuses the record's write. -/
def hQueryLedger (p : Nat) (h : Hdr) (f : LedgerF) (refused : Bool) (s : State) : State :=
  let put (rec : LedgerRec) (s : State) : State :=
    if refused then reply p h 0x22 stBadField [] (hostFault p 6 f.outAddr.toNat 0 s)
    else
      let s := hostWrite (egressGardener (s.page p).gardener.toNat) p 128 (.ledger p f.outAddr rec) s
      reply p h 0x22 stOk [(16, s.ctl.lcc.toNat)] (chargeTen p 128 s)
  if f.perReq then
    let (s, who) := s.named p f.handle
    match who with
    | none => reply p h 0x22 stBadHandle [] s
    | some r => put (reqRecord r) s
  else put (tenRecord f.tenant.toNat s) s

/-! ### Seedbed pins and the cold frame (R104 to R106) -/

/-- A pin id that no pin holds, from `n` on. -/
def freePin (used : List U16) : Nat → U16 → U16
  | 0, n => n
  | k + 1, n => if used.contains n then freePin used k (n + 1) else n

/-- The next pin id: from the counter on, one that no pin holds. -/
def State.newPin (s : State) : U16 := freePin (s.tens.flatMap (fun x => x.pins.map (fun q => q.id))) 65536 s.seed.nextPin

/-- The first `n` plots of a request are written and offered (R104 check 3). -/
def Req.offeredTo (r : Req) (n : Nat) : Bool := decide (n ≤ r.offeredUpTo)

/-- SEEDBED_PIN (R104, 07 R196). Of a chain that has lost nodes, or whose publication finds no place for one, the nodes before are pinned
(DESIGN CHOICE, log entry 62). -/
def hSeedbedPin (p : Nat) (h : Hdr) (f : PinF) (s : State) : State :=
  let (s, who) := s.named p f.handle
  match who with
  | none => reply p h 0x23 stBadHandle [] s
  | some r =>
    let n := f.plots.toNat
    let slot := hSlot f.handle
    if p ≠ mgmt && f.scope ≠ 0 then reply p h 0x23 stDenied [] s
    else if r.adm.promptLen.toNat / 128 < n then reply p h 0x23 stBadField [] s
    else if !r.offeredTo n then reply p h 0x23 stBusy [] s
    else if 256 ≤ (s.ten p).pins.length then reply p h 0x23 stNoRoom [] s
    else
      let (s, nodes) := if f.scope = 0 then (s, (chainIn s r 0 n).1) else publish slot (s.keyOf r f.scope.toNat) (List.range n) none s
      let id := s.newPin
      let s := onSeed (fun d => { d with nextPin := id + 1 }) (pinNodes true nodes s)
      let s := s.onTen p (fun x => { x with pins := x.pins ++ [⟨id, f.scope, nodes⟩] })
      reply p h 0x23 stOk [(16, id.toNat)] s

/-- The pages whose pins a sender may name: its own, and from the management page those of any (R82, R105; log entry 40). -/
def pinPages (p : Nat) : List Nat := if p = mgmt then List.range 17 else [p]

/-- The pin of that id that the sender may name, with the page that holds it. -/
def State.pinNamed (s : State) (p : Nat) (pin : U16) : Option (Nat × Pin) :=
  (pinPages p).findSome? (fun k => ((s.ten k).pins.find? (fun x => x.id = pin)).map (fun x => (k, x)))

/-- SEEDBED_UNPIN (R82, R105): of a pin of the sender, or from the management page of any page. -/
def hSeedbedUnpin (p : Nat) (h : Hdr) (f : UnpinF) (s : State) : State :=
  match s.pinNamed p f.pin with
  | none => reply p h 0x24 stBadField [] s
  | some (k, x) =>
    let s := pinNodes false x.nodes s
    reply p h 0x24 stOk [] (s.onTen k (fun y => { y with pins := y.pins.erase x }))

/-- A PAUSED request that is offered to the layout, or that is being restored, waits for a restore again, in its place of the restore
order: its plots leave first (R106, 07 R205). -/
def unoffer (h : U32) (s : State) : State :=
  match s.reqH h with
  | none => s
  | some r =>
    if r.restore.isNone && !s.sow.returning.contains h then s else
      let s := stopRestore (hSlot h) s
      let s := { s with sow := { s.sow with returning := s.sow.returning.filter (fun x => x ≠ h) } }
      s.onReqH h (fun r => { r with restore := some ⟨false, [], none, false⟩, heldSeq := if r.restore.isSome then r.heldSeq else r.handSeq })

/-- Start the moves of a COLD_FLUSH for one request. -/
def flushOne (h : U32) (s : State) : State := spillEnd (hSlot h) (queueSpill (hSlot h) .flush (unoffer h s))

/-- COLD_FLUSH (R106). -/
def hColdFlush (p : Nat) (h : Hdr) (f : FlushF) (s : State) : State :=
  if f.all then
    let hs := ((s.reqs.map (fun e => e.2)).filter (fun r => r.state = .paused && (p = mgmt || hTenant r.handle = p))).map (fun r => r.handle)
    flushDone (pumpMoves (each hs flushOne (startWait p h 0x25 (.flush hs true 0 false) s)))
  else
    let (s, who) := s.named p f.handle
    match who with
    | none => reply p h 0x25 stBadHandle [] s
    | some r =>
      if r.state = .ended then reply p h 0x25 stAlreadyEnded [(16, r.endStatus.toNat)] s
      else if r.state = .cold then reply p h 0x25 stOk [] s
      else if r.state ≠ .paused then reply p h 0x25 stBusy [] s
      else flushDone (pumpMoves (flushOne f.handle (startWait p h 0x25 (.flush [f.handle] false 0 false) s)))

/-! ### Management messages (R107 to R109) -/

/-- The place in the plot pools of a model whose parts the stack memory can hold (08 R213). -/
def loadRoom (d : ModelDesc) (s : State) : Option Nat :=
  if stackRoom < s.stackUsed + slotBytes d then none else s.poolFit d.plotCount.toNat

/-- A MODEL_LOAD whose descriptor is valid: accepted where there is room. -/
def takeLoad (h : Hdr) (f : ModelLoadF) (d : ModelDesc) (room : Option Nat) (s : State) : State :=
  match room with
  | none => reply mgmt h 0x40 stNoRoom [] s
  | some base => reply mgmt h 0x40 stOk [] (acceptLoad f d base s)

/-- MODEL_LOAD (R107, 08 R211, R212). The descriptor is part of the message, so its reserved bits are too (00 R9). -/
def hModelLoad (h : Hdr) (f : ModelLoadF) (desc : Option ModelDesc) (s : State) : State :=
  if (s.slot f.slot.toNat).state ≠ .empty then reply mgmt h 0x40 stBusy [] s
  else if f.fbValid && f.fallback = f.slot then reply mgmt h 0x40 stBadField [] s
  else
    let s := putReads (readsOf (.host none) f.descAddr.toNat 256) s
    match desc with
    | none => reply mgmt h 0x40 stBadField [] (hostFault mgmt 0 f.descAddr.toNat 0 s)
    | some d => if d.rsv then reply mgmt h 0x40 stBadField [] s else takeLoad h f d (loadRoom d s) s

/-- A BED_CONFIG accepted and not yet applied, per bed the last. -/
def State.pendingBed (s : State) (b : Nat) : Option BedF :=
  ((s.pages.flatMap (fun g => g.started)).filterMap (fun x => match x.wait with
    | .setting _ (.bed f) => if f.bed.toNat = b then some f else none
    | _ => none)).getLast?

/-- A bed's cores as last configured: first and count. -/
def State.bedRange (s : State) (b : Nat) : Nat × Nat :=
  match s.pendingBed b with
  | some f => (f.firstCore.toNat, f.cores.toNat)
  | none => ((s.bed b).first.toNat, (s.bed b).cores.toNat)

/-- The model slots that a BED_CONFIG names. -/
def bedModels (f : BedF) : List (BitVec 5) :=
  ((List.range 4).filter (fun c => f.ctxValid.getLsbD c)).map (fun c => f.ctxModel.getD c 0)

/-- A bed context names the slot, applied or pending. -/
def State.bedNames (s : State) (m : BitVec 5) : Bool :=
  s.disp.beds.any (fun b => b.ctxs.any (fun c => c.model = some m))
    || (s.pages.any (fun g => g.started.any (fun x => match x.wait with
      | .setting _ (.bed f) => (bedModels f).contains m
      | _ => false)))

/-- MODEL_EVICT (R107, 08 R217). -/
def hModelEvict (h : Hdr) (f : EvictF) (s : State) : State :=
  let m := f.slot.toNat
  let st := (s.slot m).state
  if st = .empty then reply mgmt h 0x41 stNotResident [] s
  else if st = .loading || st = .evicting then reply mgmt h 0x41 stBusy [] s
  else if s.modelUsers m ≠ 0 || s.gh.grafts.any (fun g => g.base = f.slot)
    || s.reqs.any (fun e => match e.2.fbTable with | some (k, _) => k = f.slot | none => false) then reply mgmt h 0x41 stBusy [] s
  else if s.bedNames f.slot then reply mgmt h 0x41 stBusy [] s
  else acceptEvict m (startWait mgmt h 0x41 (.evict f.slot) s)

/-- Storage for a graft version is short (08 R220). -/
def State.graftShort (s : State) (d : GraftDesc) : Bool := decide (stackRoom < s.stackUsed + d.graftBytes.toNat)

/-- GRAFT_LOAD (R107, 08 R223). -/
def hGraftLoad (h : Hdr) (f : GraftF) (desc : Option GraftDesc) (s : State) : State :=
  if !s.slotNamed f.base.toNat then reply mgmt h 0x42 stNotResident [] s
  else if s.hasGraft f.graftSlot.toNat then reply mgmt h 0x42 stBusy [] s
  else
    let s := putReads (readsOf (.host none) f.descAddr.toNat 64) s
    match desc with
    | none => reply mgmt h 0x42 stBadField [] (hostFault mgmt 0 f.descAddr.toNat 0 s)
    | some d => if d.rsv then reply mgmt h 0x42 stBadField [] s else if s.graftShort d then reply mgmt h 0x42 stNoRoom [] s
      else reply mgmt h 0x42 stOk [] (acceptGraft f f.version d s)

/-- The newest version of a graft slot, loading or resident. -/
def State.newestVer (s : State) (g : Nat) : U16 :=
  match mget g s.gh.newest with
  | some v => v
  | none => match (s.gh.grafts.filter (fun x => x.slot.toNat = g)).getLast? with | some x => x.ver | none => 0

/-- GRAFT_REPLACE (R107, 08 R223). -/
def hGraftReplace (h : Hdr) (f : GraftF) (desc : Option GraftDesc) (s : State) : State :=
  let g := f.graftSlot.toNat
  let v := s.newestVer g + 1
  if !s.hasGraft g then reply mgmt h 0x43 stNotResident [] s
  else if (s.gver g v).isSome then reply mgmt h 0x43 stBusy [] s
  else
    let s := putReads (readsOf (.host none) f.descAddr.toNat 64) s
    match desc with
    | none => reply mgmt h 0x43 stBadField [] (hostFault mgmt 0 f.descAddr.toNat 0 s)
    | some d => if d.rsv then reply mgmt h 0x43 stBadField [] s else if s.graftShort d then reply mgmt h 0x43 stNoRoom [] s
      else reply mgmt h 0x43 stOk [(16, v.toNat)] (acceptGraft f v d s)

def hGraftRetire (h : Hdr) (f : RetireF) (s : State) : State :=
  if !s.hasGraft f.graftSlot.toNat then reply mgmt h 0x44 stNotResident [] s
  else reply mgmt h 0x44 stOk [] (graftRetire f.graftSlot.toNat s)

/-- The checks of BED_CONFIG (R107, 06 R143). -/
def bedCheck (f : BedF) (s : State) : Option Nat :=
  let b := f.bed.toNat
  let first := f.firstCore.toNat
  let n := f.cores.toNat
  let clash (k : Nat) : Bool := let (x, m) := s.bedRange k; k ≠ b && m ≠ 0 && n ≠ 0 && decide (first < x + m) && decide (x < first + n)
  let ms := (bedModels f)
  let bad (m : BitVec 5) : Bool := !s.slotNamed m.toNat
  let drops (c : Nat) : Bool := match (s.ctx b c).model with
    | some m => (n = 0 || !f.ctxValid.getLsbD c || f.ctxModel.getD c 0 ≠ m)
        && s.reqs.any (fun e => e.2.row.isSome && e.2.bed.toNat = b && e.2.model = m)
    | none => false
  if (n ≠ 0 && decide (800 < first + n)) || (List.range 32).any clash then some stBadField
  else if ms.any bad then some stNotResident
  else if ms.eraseDups.length ≠ ms.length then some stBadField
  else if ms.any (fun m => decide (384 < s.allocKiB m.toNat) || decide (98304 < s.stagingKiB m.toNat)) then some stBadField
  else if (List.range 4).any drops then some stBusy
  else none

/-- A setting that applies from the next composition. -/
def hSetting (h : Hdr) (op : U8) (x : Setting) (s : State) : State := startWait mgmt h op (.setting s.dueComp x) s

def hBedConfig (h : Hdr) (f : BedF) (s : State) : State :=
  match bedCheck f s with
  | some st => reply mgmt h 0x45 st [] s
  | none => hSetting h 0x45 (.bed f) s

/-- SET_BUDGET (R107, 11 R300, R301). -/
def hSetBudget (h : Hdr) (f : BudgetF) (s : State) : State :=
  let t := f.tenant.toNat
  let s := s.onTen t (fun x =>
    { x with
      budTime := f.time
      budBytes := f.bytes
      budEnergy := f.energy
      warnQ := x.warnQ && x.quota = f.quota && x.warnPct = f.warnPct
      quota := f.quota
      period := f.period
      warnPct := f.warnPct
      periodAt := s.ctl.lcc
      useNs := 0
      useBytes := 0
      useNj := 0
      warnT := false
      warnB := false
      warnE := false })
  reply mgmt h 0x47 stOk [] (quotaCheck t s)

def hSetCyclic (h : Hdr) (f : CyclicF) (s : State) : State :=
  if f.tenantA = f.tenantB && f.length ≠ 0 then reply mgmt h 0x48 stBadField [] s else hSetting h 0x48 (.cyclic f) s

/-- TRACE_CONFIG (R107, 18 R437): records still buffered go to the old ring first. -/
def hTraceConfig (h : Hdr) (f : TraceF) (s : State) : State :=
  if f.en && (f.log2.toNat < 8 || 20 < f.log2.toNat) then reply mgmt h 0x4A stBadField [] s
  else
    let s := traceFlush s
    let t : Trc :=
      { en := f.en
        log2 := f.log2
        events := f.events
        tenants := f.tenants
        ring := BitVec.ofNat 52 (f.ringAddr.toNat / 4096)
        dropped := s.trc.dropped
        served := s.trc.served }
    reply mgmt h 0x4A stOk [] { s with trc := t }

/-- SENSOR_FLAGS (14 R370). -/
def State.sensorFlags (s : State) : Nat :=
  ((List.range 24).map (fun i => b2n ((s.pwr.nodes.getD i {}).sensorBad) * 2 ^ i)).sum + b2n s.pwr.modFlag * 2 ^ 24
    + b2n (s.pwr.nodes.any (fun n => n.flagged)) * 2 ^ 25 + b2n s.pwr.silent * 2 ^ 26 + b2n s.pwr.coolFlag * 2 ^ 27

/-- BALLAST.MAX: the highest step of all ladders (14 R370). -/
def State.maxStep (s : State) : Nat := (s.pwr.ladders.map (fun l => l.b.toNat)).foldl max 0

/-- Request a sensor (14 R360); a read that is already under way is shared. -/
def askSensor (i : Nat) (s : State) : State :=
  let fresh : Bool := !(s.pwr.nodes.getD i {}).asked
  { s with
    out := { s.out with sensors := if fresh then s.out.sensors ++ [i] else s.out.sensors }
    pwr := { s.pwr with nodes := lupd i (fun n =>
    if n.asked then n else { n with asked := true, lastAsk := some s.ctl.lcc }) s.pwr.nodes } }

/-- The node with the highest estimate, the lowest index of equals (04 R108; DESIGN CHOICE, log entry 62). -/
def State.hottest (s : State) : Nat :=
  (List.range 24).foldl (fun b i => if (s.pwr.nodes.getD b {}).est < (s.pwr.nodes.getD i {}).est then i else b) 0

/-- RESULT of THERMAL_QUERY (R108). -/
def thermResult (vals : List (Nat × U8)) (s : State) : List (Nat × Nat) :=
  let i := s.hottest
  [(16, s.maxStep), (17, i), (18, (BitVec.ofInt 16 (s.pwr.nodes.getD i {}).est).toNat), (20, s.sensorFlags),
   (24, s.pwr.lcc.toNat)] ++ vals.map (fun e => (32 + e.1, e.2.toNat))

def hThermalQuery (h : Hdr) (f : ThermF) (s : State) : State :=
  if f.stackSet = 0 then reply mgmt h 0x4B stOk (thermResult [] s) s
  else startWait mgmt h 0x4B (.thermal f.stackSet []) (each (stacksOf f.stackSet) (fun k s => askSensor (12 + k) s) s)

/-- FW_INFO (R109). -/
def hFwInfo (h : Hdr) (s : State) : State :=
  let g := ((List.range 16).map (fun t => (if (s.page t).isOpen then (s.page t).gardener.toNat else 0) * 16 ^ t)).sum
  reply mgmt h 0x4C stOk [(16, s.ctl.fwLine.toNat), (17, s.ctl.fwMinor.toNat), (18, s.ctl.fwBuild.toNat), (20, 0), (24, g),
    (32, s.ctl.fwDigest.toNat % 2 ^ 128)] s

/-! ### Fetching and handling (03 R66 to R72) -/

/-- The page's partition is served: the page is open, its gardener core runs, and neither a freeze, a stall nor a reset of
the partition stops it (03 R60, R69; 15 R374, R383; 16 R398). An urgent message whose GO is written during the reset waits for its end, and is
handled against the new generation (DESIGN CHOICE, log entry 62). -/
def State.serves (s : State) (p : Nat) : Bool :=
  let g := s.page p
  let c := g.gardener.toNat
  g.isOpen && s.awake && !s.freezing && !(s.ctl.resumeHold && p ≠ mgmt) && g.stopping.isNone
    && !s.gdnDown c

/-- Handle one message (R83): its checks, then its own meaning. `addr` is where a stale generation is reported. -/
def handle (p : Nat) (via : Via) (i : Instr) (addr : Nat) (s : State) : State :=
  match preCheck p via i s with
  | some st =>
    let s := if st = stNotCurrent then pageError p 0x01 addr s else s
    replyVia p via (msgOpcode i) st [] 0 0 s
  | none => match i with
    | .admitReq _ h f => hAdmit p h f s
    | .cancel _ v f => hCancel p v f s
    | .pause _ h f => hPause p h f s
    | .resume _ h f => hResume p h f s
    | .extend _ h f => hExtend p h f s
    | .setProfile _ h f => hSetProfile p h f s
    | .openSpool _ h f refused => hOpenSpool p h f refused s
    | .queryReq _ h f => hQueryReq p h f s
    | .timeXchg _ v f => hTimeXchg p v f s
    | .select _ h f => hSelect p h f s
    | .tenantOpen _ h f => hTenantOpen h f s
    | .tenantReset _ h f => hTenantReset p h f s
    | .queryLedger _ h f refused => hQueryLedger p h f refused s
    | .seedbedPin _ h f => hSeedbedPin p h f s
    | .seedbedUnpin _ h f => hSeedbedUnpin p h f s
    | .coldFlush _ h f => hColdFlush p h f s
    | .modelLoad _ h f d => hModelLoad h f d s
    | .modelEvict _ h f => hModelEvict h f s
    | .graftLoad _ h f d => hGraftLoad h f d s
    | .graftReplace _ h f d => hGraftReplace h f d s
    | .graftRetire _ h f => hGraftRetire h f s
    | .bedConfig _ h f => hBedConfig h f s
    | .setShares _ h f => hSetting h 0x46 (.shares f) s
    | .setBudget _ h f => hSetBudget h f s
    | .setCyclic _ h f => hSetCyclic h f s
    | .setDeadlinePolicy _ h f => hSetting h 0x49 (.policy f) s
    | .traceConfig _ h f => hTraceConfig h f s
    | .thermalQuery _ h f => hThermalQuery h f s
    | .fwInfo _ h _ => hFwInfo h s
    | .badOpcode _ v o => replyVia p v o stBadOpcode [] 0 0 s
    | _ => s

/-- Units between SQ_HEAD and SQ_TAIL. -/
def Page.units (g : Page) : Nat := (g.sqTail.toNat + 2 ^ g.sqLog2.toNat - g.sqHead.toNat) % 2 ^ g.sqLog2.toNat

/-- The ring's next message may be fetched and started (R62, R66, R67, R70). One that may not start yet is not fetched: SQ_HEAD is not past it,
and a ring fault drops it (DESIGN CHOICE, log entry 62). -/
def Page.mayFetch (g : Page) (i : Instr) : Bool :=
  g.sqEn && g.cqEn && !g.cqFull && g.waiting.isEmpty && decide (g.started.length < 256) && decide (msgUnits i ≤ g.units)
    && g.started.all (fun x => !x.hdr.fence) && (!(msgHdr i).fence || g.started.isEmpty)

/-- The element of a list with the least key, the first of equals. -/
def leastBy (key : Nat → Option Nat) : List Nat → Option Nat
  | [] => none
  | p :: r => match key p, leastBy key r with
    | none, x => x
    | some _, none => some p
    | some k, some q => if (key q).getD 0 < k then some q else some p

/-- The place in the order of GO writes of a served page's oldest urgent message (R72). -/
def State.urgKey (s : State) (p : Nat) : Option Nat :=
  match (s.page p).urgQueue with
  | (_, n, _) :: _ => if s.serves p then some n else none
  | [] => none

/-- Handle the urgent messages that wait, of every page, in the order of their GO writes (R72). -/
def pumpUrgent : Nat → State → State
  | 0, s => s
  | n + 1, s =>
    match leastBy s.urgKey (List.range 17) with
    | none => s
    | some p => match (s.page p).urgQueue with
      | [] => s
      | (u, _, i) :: rest =>
        let s := s.onPage p (fun g => { g with urgQueue := rest })
        let via := match msgHead i with | some (_, v) => v | none => .ring (msgHdr i)
        pumpUrgent n (handle p via i (0x100 + u * 0x80) s)

/-- Host address of the unit at SQ_HEAD (R66). -/
def Page.headAddr (g : Page) : Nat := g.sqBase.toNat * 4096 + g.sqHead.toNat * 64

/-- The reads of `n` units from SQ_HEAD on, around the end of the ring (R63), less those that are fetched already. -/
def State.unitReads (s : State) (p n : Nat) : List HostRd :=
  let g := s.page p
  let size := 2 ^ g.sqLog2.toNat
  ((List.range n).drop g.begun).map (fun k =>
    ⟨.host (s.pasidOf p), BitVec.ofNat 64 (g.sqBase.toNat * 4096 + (g.sqHead.toNat + k) % size * 64), 64⟩)

/-- Take the ring's first message: its units are read, SQ_HEAD moves past them (R66), and the journal of 256 entries records it as started
(16 R407). -/
def fetchMsg (p : Nat) (i : Instr) (s : State) : State :=
  let s := onCtl (fun c => { c with lastGdn := (s.page p).gardener.toNat }) (putReads (s.unitReads p (msgUnits i)) s)
  s.onPage p (fun g =>
    { g with
      ring := g.ring.tail
      journal := g.journal.drop (g.journal.length - 255) ++ [{ index := g.sqHead, tag := (msgHdr i).tag }]
      sqHead := BitVec.ofNat 16 ((g.sqHead.toNat + msgUnits i) % 2 ^ g.sqLog2.toNat)
      begun := 0 })

/-- The turn of the gardener core whose page has a message to fetch: the cores share the read port round-robin, starting after the
core last served (01 R31). -/
def State.ringKey (s : State) (p : Nat) : Option Nat :=
  let g := s.page p
  match g.ring with
  | i :: _ => if s.serves p && s.ctl.phase = .ready && g.mayFetch i then some ((g.gardener.toNat + 7 - s.ctl.lastGdn % 8) % 8) else none
  | [] => none

/-- Fetch and handle ring messages while they may be (R66, R67). Of the partitions of one core the lowest goes first (DESIGN CHOICE, log
entry 62). -/
def pumpRing : Nat → State → State
  | 0, s => s
  | n + 1, s =>
    match leastBy s.ringKey (List.range 17) with
    | none => s
    | some p => match (s.page p).ring with
      | [] => s
      | i :: _ => pumpRing n (handle p (.ring (msgHdr i)) i (s.page p).headAddr (fetchMsg p i s))

/-- The block may read the ring's next header (R62, R67, R70). -/
def Page.mayRead (g : Page) : Bool :=
  g.sqEn && g.cqEn && !g.cqFull && g.waiting.isEmpty && decide (g.started.length < 256) && g.started.all (fun x => !x.hdr.fence)

/-- Of a message that reaches past SQ_TAIL the block has begun to fetch one unit, the header's (R66; DESIGN CHOICE, log entry 62). -/
def beginFetch (p : Nat) (s : State) : State :=
  let g := s.page p
  match g.ring with
  | i :: _ =>
    if s.serves p && s.ctl.phase = .ready && g.mayRead && decide (0 < g.units) && decide (g.units < msgUnits i) && decide (g.begun = 0) then
      (putReads (s.unitReads p 1) s).onPage p (fun g => { g with begun := 1 })
    else s
  | [] => s

/-- While the block runs, frames that came free let the restores start that wait for them (07 R205). -/
def freed (s : State) : State := if s.awake && !s.freezing then restores s else s

/-- Handle the messages that wait: the urgent ones first (R72), then those of the rings. -/
def settle (s : State) : State :=
  let s := pumpUrgent ((s.pages.map (fun g => g.urgQueue.length)).sum) s
  let s := pumpRing ((s.pages.map (fun g => g.ring.length)).sum) s
  each (List.range 17) beginFetch (freed s)

/-- A command after which messages may be fetched. -/
def liveSettle (is : List Nat) (s : State) (op : State → State) : Host.Outcome State Fault Refusal :=
  live is s (fun s => settle (op s))

/-- `own`, after which messages may be fetched. -/
def ownSettle (is : List Nat) (s : State) (op : State → State) : Host.Outcome State Fault Refusal :=
  own is s (fun s => settle (op s))

/-- Messages of a slot without a GO yet. -/
def sameSlot (u : Fin 8) (i : Instr) : Bool :=
  match msgHead i with
  | some (_, .urgent v _ _) => v = u
  | _ => false

/-- The write of GO: the LCC is captured, BUSY set and DONE cleared, and the message queued (R71). -/
def urgStart (p u : Nat) (i : Instr) (s : State) : State :=
  onCtl (fun c => { c with goSeq := c.goSeq + 1 }) (s.onPage p (fun g =>
    { g with
      slots := lupd u (fun x => { x with busy := true, done := false, lcc := s.ctl.lcc }) g.slots
      urgQueue := g.urgQueue ++ [(u, s.ctl.goSeq, i)] }))

/-- A write of a function discards the low half of a paired register that it held (17 R425). -/
def discardLow (fn : Nat) (s : State) : State := { s with port := { s.port with held := mdel fn s.port.held } }

/-- A message command: the host writes the message's units into the next free units of the submission ring, or its unit
into an urgent slot with GO (03 R65, R71, R72). A message to a slot that is busy, or to a closed page, is a refused write. -/
def deliver (i : Instr) (s : State) : State :=
  match msgHead i with
  | none => s
  | some (p, .ring _) => settle (s.onPage p (fun g => { g with ring := g.ring ++ [i] }))
  | some (p, .urgent u _ _) =>
    let g := s.page p
    let off := 0x100 + u.val * 0x80
    let x := g.slots.getD u.val {}
    let writes := (List.range 9).map (fun k => off + 8 * k)
    let s := discardLow p s
    if s.freezing then { s with ctl := { s.ctl with droppedWrites := satAdd s.ctl.droppedWrites 9 } }
    else if !g.isOpen then each writes (fun o s => pageError p 0x08 o s) s
    else if x.busy then each writes (fun o s => pageError p 0x06 o s) s
    else settle (urgStart p u.val i (s.onPage p (fun g => { g with slots := lupd u.val (fun x => { x with msg := urgBits i }) g.slots })))

/-! ### The firmware's own work (02 R42, 11 R297, R310; 07 R207) -/

/-- Queued requests of a tenant, oldest first: those too whose prompt is still being copied (02 R40, R42). -/
def State.queuedOf (s : State) (t : Nat) : List Req :=
  sortBy (fun (a b : Req) => decide (a.order < b.order))
    ((s.reqs.map (fun e => e.2)).filter (fun r => hTenant r.handle = t && r.state = .queued))

/-- The tenant's oldest QUEUED request may be tried: its prompt has been copied (02 R40), and the partition's gardener core serves it (15
R384). Until then its later ones wait, and the other tenants are served (DESIGN CHOICE, log entry 62). -/
def State.mayTry (s : State) (t : Nat) : Bool :=
  (match s.queuedOf t with | r :: _ => r.copied | [] => false) && !s.gdnDown (s.page t).gardener.toNat

/-- The tenant that R297 serves next. -/
def State.nextTenant (s : State) : Option Nat :=
  let ts := (List.range 16).filter (fun t => !(s.ten t).passed && s.mayTry t)
  let pos := ts.filter (fun t => (s.ten t).weight ≠ 0)
  let ahead (a b : Nat) : Bool := decide ((s.ten b).deficit * ((s.ten a).weight.toNat : Int) < (s.ten a).deficit * ((s.ten b).weight.toNat : Int))
  match pos.foldl (fun b t => match b with
    | none => some t
    | some x => if ahead t x then some t else some x) none with
  | some t => some t
  | none => ts.head?

/-- The match and the reservation of R42 for the request in a slot: both, or nothing. After a failure the raises are dropped and
the frames taken are released as 05 R130 gives; such a return is no reason to try tenants passed over again. -/
def matchReserve (slot : Nat) (s : State) : Option State × State :=
  match s.req slot with
  | none => (none, s)
  | some r =>
    let (s1, m) := seedMatch slot s
    let n := plotsFor (r.adm.promptLen.toNat + 4)
    let failed := { dropTable slot (coverSome slot n s1) with tens := s.tens }
    match coverTo slot n s1 with
    | none => (none, failed)
    | some s2 =>
      let n := 128 * m
      let s3 := { (s2.onReq slot (fun r => { r with next := n, admitSeq := s2.seq })) with seq := s2.seq + 1 }
      let got := match s3.req slot with | some r => r.table.length - m | none => 0
      let s4 := moveReq r.handle .admitted s3
      (some (trace 25 3 (s4.page (hTenant r.handle)).gardener.toNat (some (hTenant r.handle)) r.handle.toNat 0 m got s4), failed)

/-- ADMISSION_ATTEMPT: firmware tries the oldest QUEUED request of the tenant that is next (02 R42, R43; 11 R297). It
waits while the partition's gardener core restarts (15 R384). -/
def admissionAttempt (t : Nat) (s : State) : State :=
  if s.sow.short ≠ 0 || s.nextTenant ≠ some t then s else
    match s.queuedOf t with
    | [] => s
    | r :: _ =>
      let s := expireReq r.handle s
      match s.reqH r.handle with
      | none => s
      | some r =>
        if r.state ≠ .queued then s else
          let pass (s : State) : State := s.onTen t (fun x => { x with passed := true })
          if !(s.slotUp r.model.toNat && s.graftUp r) then pass s else
            match matchReserve (hSlot r.handle) s with
            | (some s, _) => s
            | (none, s) => pass s

/-- EXPIRY_SCAN (07 R207, 11 R297, R310): the requests of the partitions whose gardener core runs (15 R384). -/
def expiryScan (s : State) : State :=
  let up (r : Req) : Bool := !s.gdnDown (s.page (hTenant r.handle)).gardener.toNat
  retryTenants (each ((s.reqs.filter (fun e => up e.2)).map (fun e => e.2.handle)) expireReq s)

/-- LEDGER_ROLLUP: the rows of a tenant (11 R291), unless its gardener core restarts (15 R384). -/
def rollUpTen (t : Nat) (s : State) : State :=
  if s.gdnDown (s.page t).gardener.toNat then s else each (s.tenRows t) rollUp s

/-- BUDGET_PERIOD: a new period starts (11 R300). -/
def budgetPeriod (t : Nat) (s : State) : State :=
  let x := s.ten t
  let len := x.period.toNat * 1000000000
  if len = 0 || s.ctl.lcc.toNat < x.periodAt.toNat + len then s else
    s.onTen t (fun x =>
      { x with
        periodAt := x.periodAt + BitVec.ofNat 64 len
        useNs := 0
        useBytes := 0
        useNj := 0
        warnT := false
        warnB := false
        warnE := false })

/-! ### The spool unit (10 R279) -/

/-- SPOOL_TAIL_POLL: TAIL is read for each spool with buffered records that is not broken. -/
def tailPoll (s : State) : State :=
  each (s.reqs.filter (fun e => e.2.bufRecs ≠ [])) (fun e s =>
    let t := hTenant e.2.handle
    let k := e.2.adm.spool.toNat
    match s.spool t k with
    | some sp => if sp.broken then s else askTail t k s
    | none => s) s

/-- SPOOL_TAIL_READ: a TAIL that the header read returned (10 R279): kept where it is valid, and the buffered records that
now find room are written. -/
def tailRead (t k : Nat) (tail : U32) (s : State) : State :=
  let s := tailGone t k s
  match s.spool t k with
  | none => s
  | some sp =>
    if sp.broken then s
    else if 2 ^ sp.log2.toNat < (sp.head - tail).toNat then
      logErr { code := 0x0D, island := 14, origin := 3, tenant := some t, addr := sp.hdrAddr.toNat }
        (onPrn (fun q => { q with tailBad := satInc q.tailBad }) s)
    else
      let s := onSpool t k (fun sp => { sp with tail := tail }) s
      match sp.owner with
      | some h =>
        match s.reqH h with
        | some r => if r.bufRecs ≠ [] && (r.newRecs = [] || s.mayRelease) then releaseReq h s else s
        | none => s
      | none => s

end Sys2Proof.Machine
end

