-- ==== Sys2Proof/Machine/Work.lean ====
section
/-! DEFINITION. The work of a step: delivery and completion of work items, stack-stream items and collectives, parks, context
switches, teardowns and joining cores (05 R127, 06 R152 to R171). -/

namespace Sys2Proof.Machine

/-! ### Delivery (06 R152, R161, R162) -/

/-- WORK_ITEM_DELIVER: the oldest placement is written to its core's inbox, with the dispatch interrupt; the core accepts the item or
rejects it as STALE. An item of a context that a switch drains is pre-empted as it starts (R166), and one of a higher class that
still waits may now pre-empt it (R154). -/
def deliverItem (s : State) : State :=
  match s.disp.await with
  | [] => s
  | (c, i) :: rest =>
    let s := onDisp (fun d => { d with await := rest }) s
    match s.item i with
    | none => s
    | some x =>
      let s := { s with out := { s.out with inbox := s.out.inbox ++ [⟨c, .work i⟩] } }
      if s.accepts c x then
        let hit := b2n (decide (x.affinity = some (BitVec.ofNat 10 c)))
        let s := trace 0 0 0 none 0 i (c + hit * 65536) (x.bed + x.ctx * 32) s
        let s := onItem i (fun y => { y with state := .running c }) (onCore c (fun k => { k with running := some i, since := s.ctl.lcc }) s)
        let s := match (s.bed x.bed).sw with
          | some w => if w.out.contains x.ctx then flagCore c none s else s
          | none => s
        schedule s
      else schedule (reissue i s)

/-! ### Completion (06 R153, R158; 05 R123) -/

/-- Carried chunks whose items have all been released have their layers complete (05 R123). -/
def layersDone (row : BitVec 13) (s : State) : State :=
  if s.disp.items.any (fun i => !i.bound && i.rows = [row]) then s else
  let up (c : Option Chunk) : Option Chunk := c.map (fun c => if c.bound then c else { c with layers := true })
  match s.rowReq row with
  | some r => s.onReqH r.handle (fun r => { r with chunk := up r.chunk })
  | none => match s.rowMirror row with
    | some m => onMirror m.handle (fun m => { m with chunk := up m.chunk }) s
    | none => s

/-- After a core has given up its item: it leaves its bed, or takes its next item; drains, ready items and the end of the
step are brought up to date. -/
def coreDone (c : Nat) (s : State) : State :=
  match s.core c with
  | none => s
  | some k =>
    let s := if k.leaving then coreLeft c s else coreFree c s
    schedule s

/-- WORK_ITEM_COMPLETE: the completion notice of the item that a core runs. A notice for an item that a teardown removed
releases nothing. -/
def itemComplete (c busy : Nat) (s : State) : State :=
  match (s.core c).bind (fun k => k.running) with
  | none => s
  | some i =>
    let s := onCore c (fun k => { k with running := none }) s
    match s.item i with
    | none => coreDone c (orphanGone c s)
    | some x =>
      let s := onItem i (fun y => { y with state := .complete c busy }) s
      let s := releaseAll s.disp.items.length s
      let s := if x.bound then s else each x.rows layersDone s
      checkEnd (coreDone c s)

/-- STACK_ITEM_COMPLETE: a stack-stream item ends, with its engine-busy time and bytes (05 R127, 11 R287). A projection item that the
Sower holds has not been issued (09 R242). -/
def stackComplete (idx ns stackBytes nocBytes : Nat) (s : State) : State :=
  match s.sow.exec with
  | none => s
  | some x =>
    match x.stack.find? (fun i => i.idx = idx) with
    | none => s
    | some i =>
      if s.stackHeld i then s else
      let s := chargeStep false i.rows ns (fun n => { stackNs := BitVec.ofNat 64 n }) s
      let s := chargeStep false i.rows stackBytes (fun n => { stackBytes := BitVec.ofNat 64 n }) s
      let s := chargeStep false i.rows nocBytes (fun n => { nocBytes := BitVec.ofNat 64 n }) s
      let s := { s with sow := { s.sow with exec := s.sow.exec.map (fun (y : Step) =>
        { y with stack := y.stack.filter (fun z => z.idx ≠ idx) }) } }
      checkEnd (progressNow s)

/-! ### Tile boundaries (06 R154, R163, R166, R170, R171) -/

/-- TILE_BOUNDARY_PARK: a flagged core reaches a tile boundary. The item of a leaving core returns to the Sower, a removed
item is discarded, and any other item parks. -/
def tilePark (c : Nat) (s : State) : State :=
  match s.core c with
  | none => s
  | some k =>
    match k.running with
    | none => s
    | some i =>
      if !k.flagged then s
      else if k.leaving then schedule (coreLeft c s)
      else
        let s := onItem i (fun y => { y with state := .parked c }) s
        coreDone c (orphanGone c (onCore c (fun k => { k with running := none, flagged := false }) s))

/-! ### Switches, teardowns and joins (06 R163, R166, R171) -/

/-- SWAP_SAVE_DONE: the saves have ended and the restores begin. -/
def saveDone (b : Nat) (s : State) : State :=
  match (s.bed b).sw with
  | some w => if w.phase = .save then startRestoring b s else s
  | none => s

/-- Add to LEDGER_OVERHEAD_NS. -/
def overhead (ns : Nat) (s : State) : State := { s with led := { s.led with overhead := s.led.overhead + BitVec.ofNat 64 ns } }

/-- Busy time of SWAP items: to the rows of the incoming context that are members of the step, by their positions, else overhead (11
R287, R290). -/
def chargeSwap (b c ns : Nat) (s : State) : State :=
  let hs := s.ctxRows b c
  let rowOf (h : U32) : Option (BitVec 13) := match s.reqH h with | some r => r.row | none => (s.mirror h).bind (fun m => m.row)
  let rows : List (BitVec 13 × Nat) := match s.sow.exec with
    | some x => x.members.filterMap (fun m => if hs.contains m.handle then
        (rowOf m.handle).map (fun row => (row, s.rowPositions m.chunk.isSome row)) else none)
    | none => []
  if rows = [] then overhead ns s else chargeRows rows ns (fun n => { coreNs := BitVec.ofNat 64 n }) s

/-- CONTEXT_REARM (06 R166). -/
def rearmDone (b busy : Nat) (s : State) : State :=
  match (s.bed b).sw with
  | some w => if w.phase = .restore then rearm b (chargeSwap b w.inc (coreNs busy) s) else s
  | none => s

/-- TEARDOWN_END: the reload has ended and the context serves again where it fits, whatever switch its bed makes (06 R142, R171). -/
def teardownEnds (b c busy : Nat) (s : State) : State :=
  if !(s.ctx b c).tearing then s else
    let s := trace 5 0 0 none 0 (c + 65536 + 131072) 0 b (overhead (coreNs busy) s)
    let s := onCtx b c (fun x => { x with tearing := false }) s
    let back : Bool := match (s.ctx b c).model with | some m => s.slotUp m.toNat && s.fits b [] m.toNat | none => false
    schedule (if back then onCtx b c (fun x => { x with resident := true }) s else s)

/-- JOINING_CORE_RESTORE_DONE (06 R163). -/
def joinDone (c : Nat) (s : State) : State :=
  match s.core c with
  | some k => if k.joining then schedule (coreFree c (onCore c (fun k => { k with joining := false }) s)) else s
  | none => s

end Sys2Proof.Machine
end

