-- ==== Sys2Proof/Machine/Tether.lean ====
section
/-! DEFINITION. Frames on the Tether ring (13 R338 to R355): forwarding, manifests and step tokens on a follower, tokens and
status, holds, the roll call and the restoration of a group. -/

namespace Sys2Proof.Machine

/-! ### Arrival and forwarding (R338 to R340) -/

/-- The port runs: TETHER_EN is asserted (R354). -/
def State.ringUp (s : State) : Bool := s.grouped && s.out.tetherEn

def Teth.copyOf (t : Teth) (kind : U8) (m : FrameMeta) : Bool := t.seen.contains (m.origin, kind, m.step, m.part)

/-- The frame goes on with a fresh CRC: hops counted, STOMP set where it did not come whole, came stomped or a hold is forced
(R336 to R338, 15 R382). -/
def passOn (f : FrameOut) (forced : Bool) : FrameOut :=
  let f := f.withMeta (fun m => { m with hops := m.hops + 1, stomp := m.stomp || !f.good || forced, alien := 0, cut := false })
  f.withMeta (fun m => { m with crc := f.crc })

def putFrame (f : FrameOut) (s : State) : State := { s with out := { s.out with frames := s.out.frames ++ [f] } }

/-- The frame is good and of this group and epoch (R338, R340). -/
def State.takes (s : State) (f : FrameOut) : Bool :=
  f.good && !f.mt.stomp && f.mt.group = s.teth.id && (f.kind = 0x01 || f.mt.epoch = s.teth.epoch)

/-- Control blocks of unknown type, and a failed CRC, are counted (R336, R355); a frame that such a block cuts short counts with it alone
(log entry 65). -/
def crcCount (f : FrameOut) (s : State) : State :=
  let n := if f.mt.cut then max 1 f.mt.alien else f.mt.alien + (if f.crcGood then 0 else 1)
  onTeth (fun t => { t with crcErrors := satAdd t.crcErrors n }) s

/-! ### Own frames (R339, R349) -/

def State.ownFrame (s : State) (kind : U8) (step : U64) (part : BitVec 15) : Option OwnFrame :=
  s.teth.own.find? (fun o => o.kind = kind && o.step = step && o.part = part)

def dropOwn (o : OwnFrame) (s : State) : State := onTeth (fun t => { t with own := t.own.filter (fun x => x ≠ o) }) s

/-- OWN_FRAME_RETURNED (R339): a good copy is stripped; the first stomped copy is sent once more, stomped while the member
forces a hold (15 R382); the second is lost. -/
def ownReturned (kind : U8) (step : U64) (part : BitVec 15) (stomp : Bool) (s : State) : State :=
  match (if s.ringUp then s.ownFrame kind step part else none) with
  | none => s
  | some o =>
    if !stomp then dropOwn o s
    else if o.again then holdGroup 1 (dropOwn o s)
    else
      let s := onTeth (fun t =>
        { t with
          resends := satInc t.resends
          own := t.own.map (fun (x : OwnFrame) => if x = o then { x with again := true, sent := s.ctl.lcc } else x) }) s
      putFrame (o.frame.withMeta (fun m => { m with stomp := s.teth.forced })) s

/-- A frame arrives: an own one has come round; another is forwarded or stripped, and its first good copy is acted on
(R338). A stalled member only forwards (15 R374). -/
def frameIn (f : FrameOut) (act : State → State) (s : State) : State :=
  let m := f.mt
  if !s.ringUp then s
  else if m.origin = s.teth.index then ownReturned f.kind m.step m.part (m.stomp || !f.good) (crcCount f s)
  else
    let s := crcCount f s
    let s := if m.hops.toNat = s.teth.sizeM1.toNat then s else putFrame (passOn f s.teth.forced) s
    if s.wdog.stalled || !s.takes f || s.teth.copyOf f.kind m then s
    else act (onTeth (fun t => { t with seen := t.seen ++ [(m.origin, f.kind, m.step, m.part)] }) s)

/-- FRAME_LOSS (R339): a copy has not returned within LOSS_US. -/
def frameLost (kind : U8) (step : U64) (part : BitVec 15) (s : State) : State :=
  match (if s.ringUp then s.ownFrame kind step part else none) with
  | none => s
  | some o =>
    if s.ctl.lcc.toNat < o.sent.toNat + s.teth.lossUs.toNat * 1000 then s else holdGroup 1 (dropOwn o s)

/-! ### Lock and BREAK (R349, R354) -/

/-- LOCK_LOST. -/
def lockLost (s : State) : State :=
  if !s.teth.lock then s else holdGroup 3 (onTeth (fun t => { t with lock := false, brk := true }) s)

/-- LOCK_REGAINED: the receiver sends BREAK with the last step the member finished. -/
def lockRegained (s : State) : State :=
  if s.teth.lock || !s.out.tetherEn then s else
    let s := onTeth (fun t => { t with lock := true }) s
    let n := match s.sow.exec with | some x => if x.ended then x.num else x.num - 1 | none => s.sow.step
    if s.grouped then sendFrame 0x08 n 0 (.break_ (s.ownMeta n 0 true false false)) s else s

/-- BREAK arrives (R349). -/
def breakIn (s : State) : State := holdGroup 2 s

/-! ### Heat and STATUS (R344 to R348) -/

def onStat (member : Nat) (f : MemStat) (s : State) : State :=
  onTeth (fun t => { t with stats := t.stats.filter (fun x => x.member ≠ member) ++ [f] }) s

/-- STATUS on the leader (R344). -/
def statusIn (m : FrameMeta) (e : StatusE) (s : State) : State :=
  if !s.leader then s else
    let i := m.origin.toNat
    let s := onStat i ⟨i, m.step, e⟩ s
    let s := if e.slow then onTeth (fun t => { t with slowSteps := t.slowSteps ++ [m.step] }) s else s
    let s := onTeth (fun t => { t with backs := t.backs ++ e.restored.map (fun h => (h, i)) }) s
    let s := each e.restored (fun h s => match s.reqH h with | some _ => restoreEnd (hSlot h) s | none => s) s
    estReady s

/-- SLOW on the leader (R347, R348): its stacks are hot from now on, beside those of the latest STATUS, and its step is excluded. -/
def slowIn (m : FrameMeta) (hot : BitVec 12) (ballast : BitVec 4) (s : State) : State :=
  if !s.leader then s else
    let i := m.origin.toNat
    let s := onTeth (fun t => { t with slowSteps := t.slowSteps ++ [m.step] }) s
    match s.teth.stats.find? (fun x => x.member = i) with
    | some x => onStat i { x with e := { x.e with hot := x.e.hot ||| hot, ballast := ballast } } s
    | none => onStat i ⟨i, 0, ⟨1048576, hot, true, true, ballast, 0, [], []⟩⟩ s

/-- PROFILE on a member (R340). -/
def profileIn (tenant : Nat) (f : ProfileF) (bias : List Bias) (s : State) : State :=
  let l := (sumBias bias []).getD []
  let key := (tenant, f.profile.toNat)
  onTeth (fun t => { t with profiles := t.profiles.filter (fun e => e.1 ≠ key) ++ [(key, ⟨f, l⟩)] }) s

/-! ### Manifests on a follower (R341) -/

/-- Release the plots of a mirrored row: frames, cold copies, and moves that have not started; moves in flight finish
first. -/
def dropMirror (h : U32) (s : State) : State :=
  match s.mirror h with
  | none => s
  | some m =>
    let k := mirrorSlot h
    let flying := (movesOf k s).filter (fun x => x.flying)
    let busy (j : Nat) : Bool := flying.any (fun x => x.plot = j)
    let idle := (movesOf k s).filter (fun x => !x.flying && x.cls = .restore)
    let s := onMoves (fun ms => (ms.filter (fun x => x.slot ≠ k || x.dead || x.flying)).map (fun x =>
      if x.slot = k then { x with dead := true } else x)) s
    let s := each idle (fun x s => dropRef x.frame s) s
    let s := each ((List.range m.table.length).filter (fun j => !busy j)) (fun j s => match m.table[j]? with
      | some e => if e.loc = 0 then dropRef e.plot s else match coldRunAt s h s.teth.model.toNat e with
        | some run => freeRun run s
        | none => s
      | none => s) s
    let s := if m.table = [] then s else freeBlock s.teth.model.toNat (blockBytes m.table.length) s
    gleanGrafts (onTeth (fun t => { t with mirrors := t.mirrors.filter (fun x => x.handle ≠ h) }) s)

/-- The heap can supply the table's block with one entry more (07 R180). -/
def State.mirrorFits (s : State) (m : Mirror) : Bool :=
  let old := if m.table = [] then 0 else blockBytes m.table.length
  let new := blockBytes (m.table.length + 1)
  decide (old = new) || decide (s.heapUsed s.teth.model.toNat + new ≤ s.heapSize s.teth.model.toNat)

/-- Reserve the next plot of a mirrored row, by the rule of R176, where the heap has a block for its table; an old block that it
outgrows stays until no step holds it (07 R180). -/
def mirrorOne (h : U32) (s : State) : State :=
  match s.mirror h with
  | none => s
  | some m =>
    if !s.mirrorFits m then s else
    match s.pickFrame s.teth.model.toNat (hSlot h) m.table.length with
    | some (p, k) =>
      let old := blockBytes m.table.length
      let s := if m.table = [] || old = blockBytes (m.table.length + 1) then s else freeBlock s.teth.model.toNat old s
      onMirror h (fun m => { m with table := m.table ++ [⟨p, k, 0, false, 0⟩] }) (setRef p 1 s)
    | none => s

/-- COVER: plots up to a position. -/
def mirrorCover (h : U32) (pos : Nat) (s : State) : State :=
  match s.mirror h with
  | none => s
  | some m => each (List.range (plotsFor pos - m.table.length)) (fun _ s => mirrorOne h s) s

/-- The stop sequences of a mirrored row's profile (10 R274). -/
def State.mirrorStops (s : State) (m : Mirror) : Option (U16 × List (List U32)) :=
  (s.teth.profiles.find? (fun e => e.1 = (hTenant m.handle, m.join.profile.toNat))).map (fun e => (e.2.f.stopLen, e.2.f.stop))

/-- A row whose stop sequences have changed starts to match afresh (10 R274). -/
def freshStops (s : State) : State :=
  onTeth (fun t => { t with mirrors := t.mirrors.map (fun m =>
    let cur := s.mirrorStops m
    { m with stopMatch := if m.stops.isSome && m.stops ≠ cur then 0 else m.stopMatch, stops := cur }) }) s

/-- A graft version of a mirrored row is tainted here. -/
def State.verTainted (s : State) (j : JoinE) (v : U16) : Bool :=
  j.graftValid && s.gh.grafts.any (fun x => x.slot = j.graftSlot && x.ver = v && x.state = .tainted)

/-- JOIN: the row is mirrored, on a bed of this member (06 R144); a request whose copies are cold is restored first. A row of a slot or
version that is tainted here is held (08 R227, R231). -/
def mirrorJoin (e : JoinE) (s : State) : State :=
  let set (m : Mirror) : Mirror :=
    { m with
      row := some e.row
      join := e
      newLeft := e.newLeft.toNat
      committed := if e.committedValid then some e.committed.toNat else none
      draw := e.draw
      stopMatch := e.stopMatch
      depth := e.depth.toNat
      ver := e.graftVer
      holds := { m.holds with weights := (s.slot s.teth.model.toNat).state = .tainted, graft := s.verTainted e e.graftVer }
      bed := match s.bedFor s.teth.model with | some b => BitVec.ofNat 5 b | none => m.bed
      stops := none }
  match s.mirror e.handle with
  | none =>
    let m : Mirror := set
      { row := none, handle := e.handle, join := e, table := [], newLeft := 0, committed := none, draw := 0, stopMatch := 0, depth := 0,
        ver := 0, tokens := [0], chunk := none, flow := none, restore := none }
    onTeth (fun t => { t with mirrors := t.mirrors ++ [m] }) s
  | some m =>
    if m.outPlots ≠ [] && m.restore.isNone then restores (onMirror e.handle (fun m => { m with waits := true }) s)
    else onMirror e.handle set s

/-- LEAVE. -/
def mirrorLeave (row : BitVec 13) (keep spill : Bool) (s : State) : State :=
  match s.rowMirror row with
  | none => s
  | some m =>
    let s := onMirror m.handle (fun m => { m with row := none, chunk := none, flow := none }) s
    if keep then s
    else if spill then pumpMoves (queueSpill (mirrorSlot m.handle) .pressure s)
    else dropMirror m.handle s

/-- CHUNK: the chunk and its flow, numbered as on the leader. -/
def mirrorChunk (num : U64) (row : BitVec 13) (first : BitVec 24) (len : U32) (bound : Bool) (flow : BitVec 12) (s : State) : State :=
  match s.rowMirror row with
  | none => s
  | some m =>
    let c : Chunk := ⟨first.toNat, len.toNat, bound, false, num, s.ctl.lcc, false, false⟩
    onDisp (fun d => { d with flows := mput flow.toNat ⟨0, 0, 0⟩ d.flows })
      (onMirror m.handle (fun m => { m with chunk := some c, flow := some flow }) s)

/-- Apply one entry; the handle of the last JOIN is remembered, since a restored request's COVER follows its JOIN. -/
def applyEntry (num : U64) (a : State × Option (BitVec 13 × U32)) (e : ManEntry) : State × Option (BitVec 13 × U32) :=
  let s := a.1
  match e with
  | .join j => (mirrorJoin j s, some (j.row, j.handle))
  | .leave row _ keep spill => (mirrorLeave row keep spill s, none)
  | .depth row d => (match s.rowMirror row with | some m => onMirror m.handle (fun m => { m with depth := d.toNat }) s | none => s, none)
  | .chunk row first len bound flow => (mirrorChunk num row first len bound flow s, none)
  | .cover row pos =>
    let h := match a.2 with
      | some (r, h) => if r = row then some h else (s.rowMirror row).map (fun m => m.handle)
      | none => (s.rowMirror row).map (fun m => m.handle)
    (match h with | some h => mirrorCover h pos.toNat s | none => s, none)
  | .switch row v => (match s.rowMirror row with
    | some m => gleanGrafts (onMirror m.handle (fun m =>
        { m with ver := v, holds := { m.holds with graft := s.verTainted m.join v } }) s)
    | none => s, none)
  | .keep _ => (s, none)

def applyEntries (num : U64) (es : List ManEntry) (s : State) : State := (es.foldl (applyEntry num) (s, none)).1

/-- The handles that a FULL manifest joins or keeps. -/
def namedIn (es : List ManEntry) : List U32 :=
  es.filterMap (fun e => match e with | .join j => some j.handle | .keep h => some h | _ => none)

/-- The whole manifest of a step, once every part has arrived. -/
def State.manifestFor (s : State) (step : U64) (full : Bool) : Option (List ManEntry) :=
  let ps := s.teth.parts.filter (fun p => p.step = step && p.full = full)
  match ps.find? (fun p => p.last) with
  | none => none
  | some z =>
    let at_ (i : Nat) : Option ManPart := ps.find? (fun p => p.part = i)
    if (List.range (z.part + 1)).all (fun i => (at_ i).isSome) then
      some ((List.range (z.part + 1)).flatMap (fun i => match at_ i with | some p => p.entries | none => []))
    else none

/-- A FULL manifest restores a follower (R351): what it neither joins nor keeps is released, and the group runs again. -/
def applyFull (step : U64) (es : List ManEntry) (s : State) : State :=
  let keep := namedIn es
  let gone := (s.teth.mirrors.filter (fun m => !keep.contains m.handle)).map (fun m => m.handle)
  let s := { s with sow := { s.sow with exec := none, laid := [], step := step }, prn := { s.prn with rows := [] } }
  let s := each gone dropMirror s
  let s := onTeth (fun t => { t with mirrors := t.mirrors.map (fun m => { m with row := none }) }) s
  onTeth (fun t =>
    { t with
      held := false
      formed := true
      forced := false
      ours := false
      intact := true
      manStep := step
      tokStep := step
      parts := []
      strikes := [] }) (applyEntries step es s)

/-- Apply a FULL manifest whose parts have all arrived, once the collectives of the discarded steps have completed (R350, R351). -/
def takeFull (s : State) : State :=
  if s.colls ≠ 0 then s else
    match (s.teth.parts.find? (fun p => p.full)).bind (fun p => (s.manifestFor p.step true).map (fun es => (p.step, es))) with
    | some (n, es) => applyFull n es s
    | none => s

/-- MANIFEST on a follower (R341). -/
def manifestIn (m : FrameMeta) (es : List ManEntry) (s : State) : State :=
  if s.leader then s else
    let s := onTeth (fun t => { t with parts := t.parts ++ [⟨m.step, m.part.toNat, m.last, m.full, es⟩] }) s
    if m.full then takeFull s else s

/-- The collectives of a held member's steps have completed: their work is dropped, and a FULL manifest that waited is applied (R350,
R351). -/
def collsOver (s : State) : State :=
  if s.teth.dropDue && s.colls = 0 then takeFull (dropWork s) else s

/-- COLLECTIVE_COMPLETE (05 R127; 13 R350). -/
def collComplete (s : State) : State :=
  match s.sow.exec with
  | none => s
  | some x =>
    if x.coll = 0 then s else
      checkEnd (collsOver (progressNow { s with sow := { s.sow with exec := s.sow.exec.map (fun (y : Step) => { y with coll := y.coll - 1 }) } }))

/-! ### Step tokens and tokens (R342, R343; 05 R136) -/

/-- Strikes and depth reductions on the executing step: struck rows commit nothing, and their outputs are discarded. -/
def applyStrikes (es : List TokenE) (s : State) : State :=
  let struck := (es.filter (fun e => e.strike)).map (fun e => e.handle)
  let s := discardRows struck s
  let s := each (es.filter (fun e => e.strike)) (fun e s => closeRow e.row s) s
  schedule <| each (es.filter (fun e => !e.strike)) (fun e s =>
    let s := onMirror e.handle (fun m => { m with depth := min m.depth e.depth.toNat }) s
    onPRow e.row (fun p => { p with d := min p.d e.depth.toNat, pos := p.pos.take (1 + min p.d e.depth.toNat) }) s) s

/-- STEP_TOKEN on a follower. -/
def stepTokenIn (m : FrameMeta) (es : List TokenE) (s : State) : State :=
  if s.leader then s else
    let s := onTeth (fun t => { t with tokStep := if t.tokStep.toNat < m.step.toNat then m.step else t.tokStep }) s
    match s.sow.exec with
    | some x => if x.num = m.step then checkEnd (finaliseReady (applyStrikes es s))
      else onTeth (fun t => { t with strikes := t.strikes ++ [(m.step, es)] }) s
    | none => onTeth (fun t => { t with strikes := t.strikes ++ [(m.step, es)] }) s

/-- The outcome that a TOKENS entry carries, from the row's base position. -/
def outcomeOf (pos : Nat) (e : CommitE) : Outcome :=
  let rec_ (i : Nat) (t : U32) : Rec :=
    { token := t
      position := BitVec.ofNat 24 (pos + i + 1)
      draft := e.draftOk.getLsbD i
      trunc := e.trunc.getLsbD i
      accepted := BitVec.ofNat 4 e.accepted.toNat }
  ⟨(List.range e.tokens.length).map (fun i => rec_ i (e.tokens.getD i 0)), e.accepted.toNat, e.draw, e.stopMatch,
    if e.status = 0x30 then 0 else e.status, e.status = 0x30, none⟩

/-- A commit reaches the leader: it is the row's outcome, applied at the seal (R343). -/
def leaderCommit (step : U64) (e : CommitE) (s : State) : State :=
  match s.sow.exec, s.prn.rows.find? (fun p => p.row = e.row) with
  | some x, some p =>
    if x.num ≠ step || p.state ≠ .opened || x.discard.contains p.handle then s else
      let o := outcomeOf (s.rowBase p).pos e
      let s := onPRow e.row (fun p => { p with state := .final, out := some o }) s
      if o.fault then teardownReq p.handle s else s
  | _, _ => s

/-- A commit reaches a follower: its mirrored row advances (R343). -/
def mirrorCommit (e : CommitE) (s : State) : State :=
  match s.rowMirror e.row with
  | none => s
  | some m =>
    let base := match m.chunk with | some c => c.first + c.len - 1 | none => m.committed.getD 0
    let n := e.tokens.length
    if n = 0 then s else
      onMirror m.handle (fun m =>
        { m with
          committed := some (base + n)
          newLeft := m.newLeft - n
          draw := e.draw
          stopMatch := e.stopMatch
          chunk := none
          tokens := e.tokens.getLast?.toList }) s

/-- TOKENS (R343). -/
def tokensIn (m : FrameMeta) (es : List CommitE) (s : State) : State :=
  if s.leader then checkEnd (each es (leaderCommit m.step) s) else each es mirrorCommit s

/-! ### A follower's step (05 R136, R138; 13 R341, R345) -/

/-- Rows that sample in a manifest's step: those with a DEPTH entry, and a JOIN without a CHUNK. -/
def samples (es : List ManEntry) (row : BitVec 13) : Bool :=
  es.any (fun e => match e with | .depth r _ => r = row | _ => false)
    || (es.any (fun e => match e with | .join j => j.row = row | _ => false)
      && !es.any (fun e => match e with | .chunk r .. => r = row | _ => false))

def worksOn (es : List ManEntry) (row : BitVec 13) : Bool :=
  samples es row || es.any (fun e => match e with | .chunk r .. => r = row | _ => false)

/-- Close the chunks that ended: bound ones, and carried ones whose layers are complete; one whose projection is due in this
step stays for its position. -/
def closeMirrors (es : List ManEntry) (s : State) : State :=
  each s.teth.mirrors (fun m s => match m.chunk, m.row with
    | some c, some row =>
      if !(c.bound || c.layers) then s else
        let s := match m.flow with
          | some f => onDisp (fun d => { d with flows := mdel f.toNat d.flows }) s
          | none => s
        let last := c.first + c.len - 1
        onMirror m.handle (fun m =>
          { m with
            flow := none
            committed := if m.committed.getD 0 < last then some last else m.committed
            chunk := if samples es row && !es.any (fun e => match e with | .chunk r .. => r = row | _ => false) then m.chunk else none }) s
    | _, _ => s) s

/-- The Pruner's row for a mirrored row, on the sampler. -/
def mirrorRow (s : State) (m : Mirror) : Option PRow :=
  match m.row, s.desc s.teth.model.toNat, s.teth.profiles.find? (fun e => e.1 = (hTenant m.handle, m.join.profile.toNat)) with
  | some row, some d, some (_, p) =>
    some ⟨row, m.handle, p.f.topK.toNat, m.depth, shardCount d.vocab.toNat, 0, 0, p.f, m.tokens,
      List.replicate (1 + m.depth) {}, .opened, 0, none⟩
  | _, _, _ => none

/-- The executing step of a follower: every mirrored row with an entry of work in the manifest. -/
def followStep (num : U64) (works : List Mirror) (s : State) : Step :=
  let m := s.teth.model.toNat
  let gen := (works.map (fun x => if x.chunk.isNone then 1 + x.depth else 0)).sum
  { num := num
    members := works.map (fun x => { handle := x.handle, depth := x.depth, chunk := x.chunk, joins := false, cyclic := false, row := x.row, flow := x.flow })
    small := if gen ≤ s.crossover m then [m] else [] }

/-- On the sampler, the Pruner's manifest lists the rows that sample. -/
def followRows (es : List ManEntry) (works : List Mirror) (s : State) : State :=
  if s.teth.sampler = s.teth.index then
    let rows := works.filter (fun m => match m.row with | some r => samples es r | none => false)
    openManifest (rows.filterMap (mirrorRow s)) s
  else s

/-- The strikes that arrived for a step before it began. -/
def takeStrikes (num : U64) (s : State) : State :=
  let es := (s.teth.strikes.filter (fun x => x.1 = num)).flatMap (fun x => x.2)
  applyStrikes es (onTeth (fun t => { t with strikes := t.strikes.filter (fun x => x.1 ≠ num) }) s)

/-- Begin a step from its manifest. A row that this member holds takes no part in it (08 R227, R231). -/
def followBegin (num : U64) (es : List ManEntry) (s : State) : State :=
  let s := composeCommon { members := [], fallen := [] } { s with sow := { s.sow with laid := [] } }
  let s := freshStops (applyEntries num es (closeMirrors es s))
  let s := onTeth (fun t => { t with parts := t.parts.filter (fun p => p.step ≠ num), manStep := num }) s
  let works := s.teth.mirrors.filter (fun m => match m.row with | some r => worksOn es r && !m.holds.any | none => false)
  let x := followStep num works s
  let s := { s with sow := { s.sow with step := num, exec := some x } }
  let s := putArgs num (x.members.filterMap s.argRow) s
  let s := s.onSlot s.teth.model.toNat (fun y => { y with lastUse := s.ctl.lcc })
  composeAfter (takeStrikes num (followRows es works s))

/-- A follower begins the next step, once its manifest has arrived and its own work of the last step has ended. -/
def followSeal (s : State) : State :=
  match s.manifestFor (s.sow.step + 1) false with
  | none => s
  | some es => followBegin (s.sow.step + 1) es s

/-- SEAL (05 R124), on the member of a group that follows as R136 gives. -/
def sealMember (s : State) : State :=
  let ended := match s.sow.exec with | some x => x.ended | none => true
  if s.grouped && !s.leader then
    if ended && s.composing && s.ctl.phase = .ready && s.teth.formed then followSeal s else s
  else sealOp s

/-! ### The roll call (R351 to R353) -/

/-- ROLLCALL on a follower: it stops, takes a new epoch and releases the group's plots where it must, and answers with its
bits as it forwards the frame. -/
def rollcallFollow (m : FrameMeta) (modelId : U64) (present intact : List Nat) (s : State) : State :=
  let s := if s.teth.held then s else onTeth (fun t => { t with held := true, formed := false, heldAt := s.ctl.lcc }) (dropUnfinished s)
  let s := onTeth (fun t => { t with forced := false, seen := [], parts := [], strikes := [] }) s
  let s := if m.fresh || m.epoch ≠ s.teth.epoch then
      let s := each (s.teth.mirrors.map (fun x => x.handle)) dropMirror s
      onTeth (fun t => { t with epoch := m.epoch, intact := false }) s
    else s
  let me := s.teth.index.toNat
  let p := if s.presentNow modelId then present ++ [me] else present
  let i := if s.teth.intact then intact ++ [me] else intact
  if m.hops.toNat = s.teth.sizeM1.toNat then s else putFrame (passOn (FrameOut.rollcall m modelId p i).sealed false) s

/-- Every row rejoins through a replay from position 0 (R351, 07 R206): a row that prefills starts again, any other replays
up to its last committed token. -/
def replayRow (h : U32) (s : State) : State :=
  match s.reqH h with
  | none => s
  | some r =>
    let s := dropChunk h s
    if r.origin = some .decode then s.onReqH h (fun r => { r with replay := true, replayTo := .decode, next := 0 })
    else s.onReqH h (fun r => { r with next := 0, committed := none })

/-- The FULL manifest (R351): a JOIN for every row, a KEEP for every request without one that has plots. -/
def fullManifest (s : State) : List ManEntry :=
  ((s.reqs.map (fun e => e.2)).filter (fun r => r.model = s.teth.model && r.state ≠ .ended)).flatMap (fun r =>
    match r.row with
    | some row => [ManEntry.join (joinOf r row (BitVec.ofNat 3 r.depth)), coverOf r row]
    | none => if r.table = [] then [] else [ManEntry.keep r.handle])

/-- A complete roll call restores the group (R351). What each member last reported stands, its hot stacks too (R348); the FULL manifest
names the plots that no manifest had named (R344). -/
def formGroup (intact : List Nat) (s : State) : State :=
  let n := s.teth.sizeM1.toNat + 1
  let s := if s.sow.events.any (fun e => e.ev = .hold 0) then sealNoStep s else s
  let es := fullManifest s
  let es := partsOf es
  let s := each ((List.range es.length).zip es) (fun e s =>
    sendFrame 0x02 s.sow.step e.1 (.manifest (s.ownMeta s.sow.step e.1 (decide (e.1 + 1 = es.length)) true false) e.2) s) s
  let rows := ((s.reqs.map (fun e => e.2)).filter (fun r => r.row.isSome && r.model = s.teth.model)).map (fun r => r.handle)
  let whole := (List.range n).all (fun i => intact.contains i)
  let late := (rows.map (fun h => match s.reqH h with | some r => r.table.length - r.named | none => 0)).sum + s.teth.coming
  let s := each rows (fun h s =>
    let s := if whole then s else replayRow h s
    { s.onReqH h (fun r => { r with named := r.table.length }.lift 0 s.seq) with seq := s.seq + 1 }) s
  onTeth (fun t =>
    { t with
      held := false
      formed := true
      fresh := false
      abandoned := false
      ours := false
      intact := true
      mans := t.mans ++ [(s.sow.step, late)]
      leaves := []
      coming := 0
      backs := [] }) s

/-- ROLLCALL: answered by a follower, completed on its return to the leader once its own collectives have completed (R350). A stomped one is an own frame that returned stomped
(R339). -/
def rollcallIn (m : FrameMeta) (modelId : U64) (present intact : List Nat) (s : State) : State :=
  let f := FrameOut.rollcall m modelId present intact
  if !s.ringUp then s
  else if m.origin = s.teth.index then
    let s := crcCount f s
    if m.stomp || !f.good then ownReturned 0x01 m.step m.part true s else
    let good : Bool := m.group = s.teth.id && m.epoch = s.teth.epoch
    let s := onTeth (fun t => { t with own := t.own.filter (fun o => o.kind ≠ 0x01) }) s
    if s.leader && good && !s.teth.formed && !s.wdog.stalled
        && s.colls = 0 && (List.range (s.teth.sizeM1.toNat + 1)).all (fun i => present.contains i) then formGroup intact s else s
  else
    let s := crcCount f s
    if s.takes f && !s.wdog.stalled && !s.leader then rollcallFollow m modelId present intact s
    else if m.hops.toNat = s.teth.sizeM1.toNat then s
    else putFrame (passOn f s.teth.forced) s

/-- The leader still calls the roll: the group is held or has not formed. -/
def State.calling (s : State) : Bool := s.ringUp && s.leader && !s.teth.formed

/-- ROLLCALL_RESEND (R351). -/
def rollAgain (s : State) : State :=
  if s.calling && decide (s.teth.rollAt.toNat + s.teth.lossUs.toNat * 1000 ≤ s.ctl.lcc.toNat) then callRoll s else s

/-- GROUP_ABANDON (R352). -/
def abandonGroup (s : State) : State :=
  let lim := s.teth.holdLimit.toNat * 10000000
  if s.grouped && s.leader && s.teth.held && !s.teth.abandoned && lim ≠ 0 && decide (s.teth.heldAt.toNat + lim < s.ctl.lcc.toNat) then
    endAll (fun r => r.model = s.teth.model) 0x30 0x30
      (logErr { code := 0x19, island := 16 } (onTeth (fun t => { t with abandoned := true }) s))
  else s

end Sys2Proof.Machine
end

