-- ==== Sys2Proof/Machine/Power.lean ====
section
/-! DEFINITION. Power and heat (14 R356 to R370): samples, the thermal model, sensor reads and the ballast ladders. -/

namespace Sys2Proof.Machine

def onPwr (f : Pwr → Pwr) (s : State) : State := { s with pwr := f s.pwr }

def onNode (i : Nat) (f : PNode → PNode) (s : State) : State := onPwr (fun p => { p with nodes := lupd i f p.nodes }) s

def State.node (s : State) (i : Nat) : PNode := s.pwr.nodes.getD i {}

/-- A change of SENSOR_FLAGS raises PF vector 4 (R361). -/
def flagged (op : State → State) (s : State) : State :=
  let t := op s
  if t.sensorFlags ≠ s.sensorFlags then vecEvent mgmt 4 t else t

/-! ### Samples (R356, R357; 11 R289) -/

/-- Plausible maximum of a node channel in 0.125 W. -/
def nodeMax (i : Nat) : Nat := if i < 12 then 6400 else 1200

/-- A node channel takes a value: plausible, or flagged and taken at the largest value delivered since it was last
unflagged. -/
def PNode.sample (n : PNode) (i : Nat) (v : U16) : PNode :=
  let good : Bool := v ≠ 0xFFFF && decide (v.toNat ≤ nodeMax i)
  let top := if v = 0xFFFF then n.maxP else if good && n.flagged then v else if n.maxP.toNat < v.toNat then v else n.maxP
  let x := if good then v else top
  { n with
    flagged := !good
    maxP := top
    lastP := x
    sum := n.sum + x.toNat
    n := n.n + 1 }

/-- POWER_SAMPLE: gaps counted, channels checked, the energy integrated. -/
def powerSample (p : Sample) (s : State) : State :=
  flagged (fun s =>
    let w := s.pwr
    let gap := if w.gotAny then (p.seq - w.seq - 1).toNat else 0
    let modBad : Bool := p.module = 0xFFFF || 24000 < p.module.toNat
    let c := p.coolant.toInt
    let coolOk : Bool := -320 ≤ c && c ≤ 1280
    let nodes := (List.range 24).map (fun i => (w.nodes.getD i {}).sample i (p.nodes.getD i 0xFFFF))
    let units := if modBad then (nodes.map (fun n => n.lastP.toNat)).sum else p.module.toNat
    let s := onPwr (fun w =>
      { w with
        nodes := nodes
        modFlag := modBad
        coolFlag := !coolOk
        coolant := if coolOk then c else w.coolant
        seq := p.seq
        gotAny := true
        silent := false
        lastAt := s.ctl.lcc
        missed := satAdd w.missed gap }) s
    let nj := units * 1250
    if s.led.inInt then { s with led := { s.led with curNj := s.led.curNj + nj } }
    else { s with led := { s.led with unattr := s.led.unattr + BitVec.ofNat 64 nj } }) s

/-- SAMPLES_SILENT: after 1 ms without a sample every channel is flagged. -/
def samplesSilent (s : State) : State :=
  if s.pwr.silent || s.ctl.lcc.toNat < s.pwr.lastAt.toNat + 1000000 then s else
    flagged (onPwr (fun w =>
      { w with
        silent := true
        modFlag := true
        nodes := w.nodes.map (fun n => { n with flagged := true }) })) s

/-! ### The model (R358, R359) -/

/-- Limit of a node in 1/16 °C. -/
def State.limitOf (s : State) (i : Nat) : Int := if i < 12 then (s.pwr.die.toNat : Int) else (s.pwr.stackT.toNat : Int)

/-- The node that a ladder follows: the hottest die node, or the stack's (R364). -/
def State.ladderNode (s : State) (l : Nat) : Nat :=
  if l = 0 then (List.range 12).foldl (fun b i => if (s.node b).est < (s.node i).est then i else b) 0 else 11 + l

def State.over (s : State) (l : Nat) : Bool := decide (s.limitOf (s.ladderNode l) < (s.node (s.ladderNode l)).est)

/-- The node stands at least HYST below its limit. -/
def State.coolNow (s : State) (l : Nat) : Bool :=
  decide ((s.node (s.ladderNode l)).est ≤ s.limitOf (s.ladderNode l) - (s.pwr.hyst.toNat : Int))

/-- BALLAST.FLOOR (R364). -/
def State.floorOn (s : State) : Bool := (List.range 13).any (fun l => (s.pwr.ladders.getD l {}).b = 15 && s.over l)

/-- The budgets in 0.01 W (R363). -/
def State.budgetsNow (s : State) : List Nat :=
  (List.range 13).map (fun l => (if l = 0 then s.pwr.module.toNat else s.pwr.stack.toNat) * (100 - 4 * (s.pwr.ladders.getD l {}).b.toNat))

/-- Since when each ladder's node has stayed cool. -/
def coolMarks (s : State) : State :=
  onPwr (fun w => { w with ladders := (List.range 13).map (fun l =>
    let x := w.ladders.getD l {}
    { x with cool := if s.coolNow l then (match x.cool with | some c => some c | none => some s.ctl.lcc) else none }) }) s

/-- The mean power of a node's channel over an interval in W; without samples the model holds its last power (R357, R358). -/
def PNode.mean (n : PNode) (silent : Bool) : Rat := if silent || n.n = 0 then (n.power.toNat : Rat) / 8 else (n.sum : Rat) / (8 * n.n)

/-- The thermal model's next estimate of node i after 100 µs, from the estimates in 1/16 °C, the mean powers in W and the coolant
temperature (R358). -/
def thermalNext (i : Nat) (ests : List Int) (ps : List Rat) (coolant : Int) : Int :=
  let temp (j : Nat) : Rat := (ests.getD j 0 : Rat) / 16
  let out : Rat := Config.thermalCond i * (temp i - (coolant : Rat) / 16)
  let between : Rat := ((List.range 24).map (fun j => Config.thermalLink i j * (temp i - temp j))).sum
  Config.thermalRound (16 * (temp i + 1 / 10000 / Config.thermalCap i * (ps.getD i 0 - out - between)))

/-- THERMAL_UPDATE: every estimate from the mean powers of the interval, plausible readings in their place, and the
budgets handed over. It comes 100 µs after the last one, and waits while G0 restarts (15 R384). -/
def thermalUpdate (s : State) : State :=
  if s.gdnDown 0 || s.ctl.lcc.toNat < s.pwr.lcc.toNat + 100000 then s else
    let w := s.pwr
    let power (n : PNode) : Nat := if w.silent || n.n = 0 then n.power.toNat else n.sum / n.n
    let ests := w.nodes.map (fun n => n.est)
    let ps := w.nodes.map (fun n => n.mean w.silent)
    let nodes := (List.range 24).map (fun i =>
      let n := w.nodes.getD i {}
      { n with
        est := match n.taken with | some t => t | none => thermalNext i ests ps w.coolant
        power := BitVec.ofNat 16 (power n)
        taken := none
        sum := 0
        n := 0 })
    let s := onPwr (fun w => { w with nodes := nodes, lcc := s.ctl.lcc }) s
    coolMarks (onPwr (fun w => { w with budgets := s.budgetsNow }) s)

/-! ### Ladders (R364, R365) -/

/-- At least `ms` milliseconds since the ladder's last move. -/
def Ladder.rested (x : Ladder) (ms : Nat) (lcc : U64) : Bool :=
  match x.moved with | none => true | some m => decide (m.toNat + ms * 1000000 ≤ lcc.toNat)

/-- The budget at step `b` of the limit that a budget at step `a` was handed over for (R363). -/
def rebudget (x : Nat) (a b : BitVec 4) : Nat := x / (100 - 4 * a.toNat) * (100 - 4 * b.toNat)

/-- A ladder takes a step, and its budget, of the limit that the model update used, is handed over (R363, R364). -/
def setStep (l : Nat) (b : BitVec 4) (s : State) : State :=
  let a := (s.pwr.ladders.getD l {}).b
  let s := onPwr (fun w => { w with ladders := lupd l (fun x =>
    { b := b, moved := some s.ctl.lcc, cool := x.cool.map (fun _ => s.ctl.lcc) }) w.ladders }) s
  vecEvent mgmt 4 (onPwr (fun w => { w with budgets := lupd l (fun x => rebudget x a b) w.budgets }) s)

/-- A lowering makes the step in its interval a slowed one; a member of a group reports every lowering, at once and in its STATUS of the
step (R365, 13 R346). -/
def slowStep (l : Nat) (s : State) : State :=
  let s := if s.led.inInt || s.grouped then
      { s with sow := { s.sow with exec := s.sow.exec.map (fun (x : Step) => { x with slowed := true }) } }
    else s
  sendSlow (if l = 0 then 0 else s.hotOwn) (s.pwr.ladders.getD l {}).b s

/-- LADDER_MOVE: at a model update (R364). -/
def ladderMove (l : Nat) (s : State) : State :=
  if s.gdnDown 0 || s.pwr.lcc ≠ s.ctl.lcc then s else
    let x := s.pwr.ladders.getD l {}
    if (s.over l || s.pwr.silent) && x.rested 5 s.ctl.lcc && x.b ≠ 15 then slowStep l (setStep l (x.b + 1) s)
    else if s.coolNow l && !s.pwr.silent && x.b ≠ 0 && x.rested 50 s.ctl.lcc
      && (match x.cool with | some c => decide (c.toNat + 50000000 ≤ s.ctl.lcc.toNat) | none => false) then setStep l (x.b - 1) s
    else s

/-! ### Sensors (R360, R361; 04 R108) -/

/-- An estimate within 5 °C of its limit. -/
def State.near (s : State) (i : Nat) : Bool := decide (s.limitOf i - 80 ≤ (s.node i).est)

/-- SENSOR_READ: at the start of the model once, near the limit at most every 10 ms, and in node order every 100 ms. -/
def sensorRead (i : Nat) (s : State) : State :=
  let since (t ns : Nat) : Bool := decide (t + ns ≤ s.ctl.lcc.toNat)
  let first : Bool := (s.node i).lastAsk.isNone
  let hot : Bool := s.near i && (match (s.node i).lastAsk with | some t => since t.toNat 10000000 | none => true)
  let turn : Bool := s.pwr.turn = i && since s.pwr.turnAt.toNat 100000000
  if first || hot then askSensor i s
  else if turn then askSensor i (onPwr (fun w => { w with turn := (w.turn + 1) % 24, turnAt := s.ctl.lcc }) s)
  else s

/-- A stack's reading reaches the THERMAL_QUERY messages that wait for it; those with every stack answered complete. -/
def stackRead (k : Nat) (v : U8) (s : State) : State :=
  let s := s.onPage mgmt (fun g => { g with started := g.started.map (fun x => match x.wait with
    | .thermal left vals =>
      if left.getLsbD k then { x with wait := .thermal (left &&& ~~~(BitVec.ofNat 12 (2 ^ k))) (vals ++ [(k, v)]) } else x
    | _ => x) })
  let t := s
  finish mgmt (fun x => match x.wait with
    | .thermal 0 vals => some (stOk, thermResult vals t)
    | _ => none) s

/-- A read is plausible (R361). -/
def State.plausible (s : State) (i : Nat) (t : Int) : Bool :=
  decide (s.pwr.coolant - 80 ≤ t) && decide (t ≤ 2000) && decide ((s.node i).est - 320 ≤ t)

/-- What a read delivers: a die diode 1/16 °C, a stack whole °C, so that the lower bits do not count (R362). -/
def readout (i : Nat) (t : U16) : Int := if i < 12 then t.toInt else t.toInt / 16 * 16

/-- The read of a node is answered in time (R360). -/
def PNode.inTime (n : PNode) (lcc : U64) : Bool := match n.lastAsk with | some t => decide (lcc.toNat ≤ t.toNat + 1000000) | none => true

/-- SENSOR_ANSWER, `t` in signed 1/16 °C. One that comes later than 1 ms finds the read failed (R360). -/
def sensorAnswer (i : Nat) (u : U16) (s : State) : State :=
  if !(s.node i).asked then s else
    let t := readout i u
    let ok := s.plausible i t && (s.node i).inTime s.ctl.lcc
    let s := flagged (onNode i (fun n =>
      { n with
        asked := false
        sensorBad := !ok
        taken := if ok then some t else n.taken })) s
    if i < 12 then s else stackRead (i - 12) (if ok then BitVec.ofInt 8 (t / 16) else 0x80) s

/-- SENSOR_TIMEOUT: the read failed. -/
def sensorTimeout (i : Nat) (s : State) : State :=
  match (s.node i).asked, (s.node i).lastAsk with
  | true, some t =>
    if s.ctl.lcc.toNat < t.toNat + 1000000 then s else
      let s := flagged (onNode i (fun n => { n with asked := false, sensorBad := true })) s
      if i < 12 then s else stackRead (i - 12) 0x80 s
  | _, _ => s

/-- The model starts: every estimate at COOLANT, and every sensor to be read once (R358). -/
def modelStart (s : State) : State :=
  each (List.range 24) askSensor (onPwr (fun w =>
    { w with nodes := w.nodes.map (fun n => { n with est := w.coolant, taken := none, sum := 0, n := 0, asked := false }) }) s)

/-! ### Supply (R367, 01 R28, R29) -/

/-- DROOP: the island's clock stretches. -/
def droop (i : Nat) (s : State) : State := onPwr (fun w => { w with droop := w.droop ||| BitVec.ofNat 18 (2 ^ i) }) s

/-! ### Limits (R370) -/

/-- PWR_LIMIT: a field whose value is out of range keeps its old value, and the write is recorded. -/
def setPwr (v : U32) (s : State) : State :=
  let m := v.toNat % 4096
  let k := v.toNat / 65536 % 256
  let mOk : Bool := 300 ≤ m && m ≤ 2400
  let kOk : Bool := 10 ≤ k && k ≤ 150
  let s := onPwr (fun w =>
    { w with
      module := if mOk then BitVec.ofNat 12 m else w.module
      stack := if kOk then BitVec.ofNat 8 k else w.stack }) s
  if mOk && kOk then s else regRefused 0x5000 15 s

/-- THERM_LIMIT. -/
def setTherm (v : U64) (s : State) : State :=
  let d := v.toNat % 4096
  let k := v.toNat / 65536 % 4096
  let h := v.toNat / 2 ^ 32 % 256
  let ok (x : Nat) : Bool := 640 ≤ x && x ≤ 2000
  let s := onPwr (fun w =>
    { w with
      die := if ok d then BitVec.ofNat 12 d else w.die
      stackT := if ok k then BitVec.ofNat 12 k else w.stackT
      hyst := if h ≠ 0 then BitVec.ofNat 8 h else w.hyst }) s
  if ok d && ok k && h ≠ 0 then s else regRefused 0x5008 15 s

end Sys2Proof.Machine
end

