-- ==== Sys2Proof/Machine/Faults.lean ====
section
/-! DEFINITION. Faults and recovery (15 R371 to R395): refused host accesses, poison, core faults, the block watchdog, island
resets and gardener restarts. -/

namespace Sys2Proof.Machine

def onWdog (f : Wdog → Wdog) (s : State) : State := { s with wdog := f s.wdog }

/-! ### Refused host accesses (01 R25, R447) -/

/-- A refused ring access (03 R77): the rings stop, what was fetched is applied without a completion. -/
def ringFault (p addr : Nat) (s : State) : State :=
  let g := s.page p
  if !g.sqEn && !g.cqEn then s else
    let s := s.onPage p (fun g =>
      { g with
        faultStop := true
        sqEn := false
        cqEn := false
        waiting := []
        ring := []
        begun := 0
        started := g.started.map (fun x => { x with mute := true }) })
    hostFault p 1 addr 0 (pageError p 0x07 addr s)

/-- A refused prompt read: no request is created (02 R40). -/
def promptRefused (hd : U32) (addr : Nat) (s : State) : State :=
  match s.reqH hd with
  | none => s
  | some r =>
    if r.copied then s else
      let t := hTenant hd
      let s := freeReq hd (hostFault t 2 addr hd.toNat (putReads (readsTo addr (s.promptReads r)) s))
      finish t (fun x => match x.wait with
        | .prompt h _ => if h = hd then some (stBadField, []) else none
        | _ => none) s

/-- A refused token read of an EXTEND: the request is unchanged (04 R95), but for the charge of the reads issued (11 R287). -/
def extendRefused (hd : U32) (addr : Nat) (s : State) : State :=
  match s.extendOf hd with
  | none => s
  | some f =>
    let t := hTenant hd
    let l := readsTo addr (s.extendReads hd f)
    let s := chargeReq hd { hostBytes := BitVec.ofNat 64 ((l.map (fun x => x.bytes)).sum) } (putReads l s)
    finish t (fun x => match x.wait with
      | .extend k _ => if k = hd then some (stBadField, []) else none
      | _ => none) (hostFault t 2 addr hd.toNat s)

/-- A broken spool (10 R282): its request ends without an END record. -/
def spoolBroken (t k addr : Nat) (s : State) : State :=
  match s.spool t k with
  | none => s
  | some sp =>
    if sp.broken then s else
      let h := sp.owner.getD 0
      let s := onSpool t k (fun sp => { sp with broken := true }) (tailGone t k (hostFault t 3 addr h.toNat s))
      let s := match sp.owner with
        | none => s
        | some h => match s.reqH h with
          | none => s
          | some r =>
            if r.state = .ended then freeReq h s
            else
              let s := s.onReqH h (fun r => { r with bufRecs := [], newRecs := [] })
              endCause h 0x30 s
      pageError t 0x09 sp.hdrAddr.toNat s

/-- Record of a refused cold-frame access: POOLED, or TENANT_HOST. -/
def coldRefused (h : U32) (addr : Nat) (pooled : Bool) (s : State) : State :=
  let t := hTenant h
  if pooled then logErr { code := 0x05, scope := 3, island := 14, origin := 4, tenant := some t, addr, handle := h.toNat } s
  else hostFault t 4 addr h.toNat s

/-- The move in flight of a plot: of a request slot, or of the mirrored row of a follower. -/
def State.moveAt (s : State) (slot plot : Nat) (restore : Bool) : Option Move :=
  s.plots.moves.find? (fun m => (m.slot = slot || m.slot = 2 ^ 20 + slot) && m.plot = plot && m.flying
    && (decide (m.cls = .restore) == restore))

/-- A spill whose write is refused, or whose read is poisoned (07 R206, 15 R395). -/
def spillMoveFail (m : Move) (poisoned : Bool) (s : State) : State := restores (flushDone (pumpMoves (spillFail m poisoned s)))

/-- A Seedbed node is cleared; its children lose their parent's count. -/
def clearNode (n : Nat) (s : State) : State :=
  match mget n s.seed.nodes with
  | some x => lessChild x.parent (delNode n s)
  | none => s

/-- Retire a frame: out of its pool once its last reference drops (R386). -/
def retireFrame (p : Nat) (s : State) : State :=
  onWdog (fun w => { w with retiredFrames := if w.retiredFrames.contains p then w.retiredFrames else w.retiredFrames ++ [p] }) s

/-- A poisoned frame is retired, and no node names it any more (R386). -/
def retirePlot (p : Nat) (s : State) : State :=
  let nodes := (s.seed.nodes.filter (fun e => e.2.plot = p)).map (fun e => e.1)
  each nodes (fun n s => match mget n s.seed.nodes with
    | some x => clearNode n (dropRef x.plot s)
    | none => s) (retireFrame p s)

/-- SPILL_MOVE_DONE (07 R201). Poison on the read is a poison of the plot's frame that no row reads: recorded, the frame retired, the
plot written WHERE 3 (R386, R395; scope and address DESIGN CHOICE, log entry 62). -/
def spillMoveDone (slot plot : Nat) (poisoned : Bool) (s : State) : State :=
  match s.moveAt slot plot false with
  | none => s
  | some m =>
    if poisoned then
      let s := logErr { code := 0x12, scope := 0, island := 12, tenant := some (hTenant m.handle), handle := m.handle.toNat } s
      spillMoveFail m true (retirePlot m.frame s)
    else restores (flushDone (pumpMoves (spillDone m s)))

/-- RESTORE_MOVE_DONE (07 R205, R206); a poisoned copy from the cold frame is recorded (01 R26). -/
def restoreMoveDone (slot plot : Nat) (poisoned : Bool) (s : State) : State :=
  match s.moveAt slot plot true with
  | none => s
  | some m =>
    let s := match poisoned, m.run with
      | true, some run => coldRefused m.handle (s.runAddr run) (decide (run.tier = .pool)) s
      | true, none => coldRefused m.handle 0 true s
      | false, _ => s
    restores (pumpMoves (if poisoned then restoreFail m s else restoreDone m s))

/-- Refused copies of the Greenhouse: a load fails, a reload loses its slot or version (08 R214, R230, R231). -/
def loadRefused (m : Fin 32) (tables : Option LoadTables) (region addr : Nat) (s : State) : State :=
  let x := s.slot m.val
  let log (s : State) : State := if x.srcSpace = 0 || tables.isNone then hostFault mgmt 0 addr 0 s else s
  if x.state = .loading then modelLoaded m.val ⟨tables, .refused region⟩ (some addr) (log s)
  else if x.state = .tainted && x.reloading then reloaded (.model m) .refused (some addr) (log s)
  else s

def graftRefused (g : Nat) (v : U16) (deltas : Option (List Delta)) (region addr : Nat) (s : State) : State :=
  match s.gver g v with
  | none => s
  | some x =>
    let log (s : State) : State := if x.srcSpace = 0 || deltas.isNone then hostFault mgmt 0 addr 0 s else s
    if x.inLoad && x.walked then graftLoaded g v ⟨deltas, .refused region⟩ (some addr) (log s)
    else if x.reloading then reloaded (.graft g v) .refused (some addr) (log s)
    else s

/-- A refused trace write (18 R437): the trace is off until the next TRACE_CONFIG, and the buffered records are
discarded. Each refused write is recorded. -/
def traceRefused (addr : Nat) (s : State) : State :=
  hostFault mgmt 0 addr 0 { s with trc := { s.trc with en := false, bufs := List.replicate 11 [] } }

/-- HOST_ACCESS_REFUSED. -/
def hostRefused (r : Refused) (s : State) : State :=
  match r with
  | .ring p a => ringFault p.val a.toNat s
  | .prompt h a => promptRefused h a.toNat s
  | .extend h a => extendRefused h a.toNat s
  | .bias p tag a => match s.biasOf p.val tag with
    | some f => finishTag p.val tag Wait.isBias stBadField []
        (hostFault p.val 7 a.toNat 0 (putReads (readsTo a.toNat (s.biasReads p.val f)) s))
    | none => s
  | .spool t k a => spoolBroken t.val k.toNat a.toNat s
  | .spill slot plot a pooled => match s.moveAt slot plot false with
    | some m => spillMoveFail m false (coldRefused m.handle a.toNat pooled s)
    | none => s
  | .restore slot plot a pooled => match s.moveAt slot plot true with
    | some m => restores (pumpMoves (restoreFail m (coldRefused m.handle a.toNat pooled s)))
    | none => s
  | .select p tag seen a => match s.selectOf p.val tag with
    | some _ => selectFail p.val tag seen.rows a.toNat (hostFault p.val 5 a.toNat 0 s)
    | none => s
  | .load m tables region a => loadRefused m tables region a.toNat s
  | .graftLoad g v deltas region a => graftRefused g v deltas region a.toNat s
  | .table h back a pooled => tableFail h back (coldRefused h a.toNat pooled s)
  | .trace a => traceRefused a.toNat s

/-- The record alone of a refused access that reaches a stalled block: it goes on to write the error log (R374; 01 R25). -/
def hostRecord (r : Refused) (s : State) : State :=
  match r with
  | .ring p a => hostFault p.val 1 a.toNat 0 s
  | .prompt h a => hostFault (hTenant h) 2 a.toNat h.toNat s
  | .extend h a => hostFault (hTenant h) 2 a.toNat h.toNat s
  | .bias p _ a => hostFault p.val 7 a.toNat 0 s
  | .spool t k a => hostFault t.val 3 a.toNat (((s.spool t.val k.toNat).bind (fun sp => sp.owner)).getD 0).toNat s
  | .spill slot plot a pooled => match s.moveAt slot plot false with
    | some m => coldRefused m.handle a.toNat pooled s
    | none => s
  | .restore slot plot a pooled => match s.moveAt slot plot true with
    | some m => coldRefused m.handle a.toNat pooled s
    | none => s
  | .table h _ a pooled => coldRefused h a.toNat pooled s
  | .select p _ _ a => hostFault p.val 5 a.toNat 0 s
  | .load _ _ _ a => hostFault mgmt 0 a.toNat 0 s
  | .graftLoad _ _ _ _ a => hostFault mgmt 0 a.toNat 0 s
  | .trace a => hostFault mgmt 0 a.toNat 0 s

/-! ### Withdrawal (R373) -/

/-- Withdraw the executing step for rows: nothing of it is committed, and the rows keep their states. -/
def withdraw (hs : List U32) (s : State) : State :=
  let s := discardRows hs s
  checkEnd (schedule s)

/-- Every member of the executing step. -/
def State.stepRows (s : State) : List U32 := match s.sow.exec with | some x => x.members.map (fun m => m.handle) | none => []

/-! ### Core faults (06 R169, 01 R16) -/

/-- Tear down a bed context, where it names a model. -/
def teardownNamed (b c : Nat) (s : State) : State := if (s.ctx b c).model.isSome then checkEnd (teardownBed b c s) else s

/-- The address lies in the 2 MiB atomic region that start-up has reserved (01 R16). -/
def State.inAtomic (s : State) (addr : Nat) : Bool :=
  match s.ctl.atomic with
  | some b => decide (b.toNat ≤ addr) && decide (addr < b.toNat + 0x200000)
  | none => false

/-- ATOMIC_WRITE: a write into the atomic region is dropped and recorded, a stalled block's too (R374), and its bed context torn down. Any
other write is no concern of the block. -/
def atomicWrite (addr : Nat) (core : Bool) (unit b c : Nat) (s : State) : State :=
  if !s.inAtomic addr || (core && s.wdog.fenced.contains unit) then s else
    let s := logErr { code := 0x06, scope := 2, island := 17, origin := if core then 1 else 2, unit, bed := some (b, c), addr } s
    if s.awake then teardownNamed b c s else s

/-- The record of a fault of a row's request context (15 R375): `torn` is the request whose teardown removed the item already. -/
def State.rowRec (s : State) (e : ErrIn) (row : BitVec 13) (torn : Option U32) : ErrIn :=
  let h := (s.rowHandle row) <|> torn
  { e with scope := 1, tenant := h.map hTenant, handle := (h.getD 0).toNat }

/-- The teardown of a row's request context, the Trellis' own or a mirrored one (06 R169, R170), unless it has taken place already. -/
def tearContext (row : BitVec 13) (torn : Option U32) (s : State) : State :=
  if torn.isSome then s else
  match s.rowReq row with
  | some r => checkEnd (teardownReq r.handle (closeRow row s))
  | none => match s.rowMirror row with
    | some m => checkEnd (teardownMirror m row s)
    | none => s

/-! ### Island resets (R381) -/

/-- Return the reservations of the layouts that wait (R381, SOWER): each row's and each join's table is again as it was before the layout, and
the plots of a fallback go. -/
def dropLayout (s : State) : State :=
  let ms := s.sow.laid.flatMap (fun l => l.members)
  let fs := s.sow.laid.flatMap (fun l => l.fallen)
  let s := { s with sow := { s.sow with laid := [] } }
  let s := each ms (fun m s => match m.had, s.reqH m.handle with
    | some n, some r => if n < r.table.length then cutTable (hSlot m.handle) n s else s
    | _, _ => s) s
  each fs (fun h s => match s.reqH h with
    | some r => match r.fbTable with
      | some (_, l) => (each l (fun e s => dropRef e.plot s) s).onReqH h (fun r => { r with fbTable := none })
      | none => s
    | none => s) s

/-- DISP: the table, gates and flows are emptied, epochs rise, and every resident context reloads its tiles. -/
def resetDisp (s : State) : State :=
  let hs := s.stepRows
  let s := removeItems (fun _ => true) s
  let s := each ((s.reqs.filter (fun e => e.2.chunk.isSome)).map (fun e => e.2.handle)) dropChunk s
  let s := onDisp (fun d =>
    { d with
      gates := []
      flows := []
      await := []
      beds := d.beds.map (fun b =>
        { b with
          epoch := b.epoch + 1
          sw := none
          ctxs := b.ctxs.map (fun c => if c.model.isNone then c else
            { c with epoch := b.epoch + 1, tearing := c.tearing || c.resident, resident := false }) }) }) s
  let s := onTeth (fun t => { t with mirrors := t.mirrors.map (fun m => { m with chunk := none, flow := none }) }) s
  withdraw hs s

/-- PRUNE: the rows close, SELECT jobs end, and the guesses are lost. -/
def resetPrune (s : State) : State :=
  let hs := s.stepRows
  let s := withdraw hs (onPrn (fun q => { q with lost := q.lost ++ hs.filter (fun h => !q.lost.contains h), lanes := List.replicate 64 {}, port := none }) s)
  each (List.range 17) (fun p s => finish p (fun x => match x.wait with
    | .select _ => some (stBadField, [(16, 0), (20, 0)])
    | _ => none) s) s

/-- LEDG: charges not yet posted are lost, and sample intake restarts. -/
def resetLedg (s : State) : State :=
  onPwr (fun w => { w with gotAny := false, nodes := w.nodes.map (fun n => { n with sum := 0, n := 0 }) })
    { s with led := { s.led with cur := [], late := [], curNj := 0 } }

/-- PLOT: the cold-frame moves in flight are issued again from the start. -/
def reissueMoves (s : State) : State :=
  each (s.plots.moves.filter (fun m => m.flying)) (fun m s => match m.run with
    | some run => moveCopy m run s
    | none => s) s

/-- EGR: the transaction that its port moves is issued again from its first beat; those that wait still stand in their queues. A write is
acknowledged as it is issued (DESIGN CHOICE, log entry 62). -/
def reissueWrites (s : State) : State :=
  onArb 0 (fun a => match a.holder with
    | some h => if h = a.debug then a else
        { a.onInp h (fun x => { x with queue := (a.left + a.held.toNat) :: x.queue }) with holder := none, hint := none }
    | none => a) s

/-- What an island's reset does to the block's state. -/
def islandEffect (i : Nat) (s : State) : State :=
  match i with
  | 9 => withdraw s.stepRows (dropLayout s)
  | 10 => resetDisp s
  | 11 => resetPrune s
  | 12 => reissueMoves (withdraw s.stepRows s)
  | 13 => onSeed (fun d => { d with cache := [] }) s
  | 14 => reissueWrites s
  | 15 => resetLedg s
  | 16 => lockLost s
  | _ => s

/-- Gardener restart (R383): the core's island is reset; its tables are retained. -/
def gdnRestart (c : Nat) (s : State) : State :=
  if s.gdnDown c then s else
    let times := (((mget c s.wdog.gdnTimes).getD []) ++ [s.ctl.lcc])
    let s := onWdog (fun w =>
      { w with
        gdnRestarting := w.gdnRestarting ||| BitVec.ofNat 8 (2 ^ c)
        gdnRestarts := satInc w.gdnRestarts
        gdnTimes := mput c (times.drop (times.length - 3)) w.gdnTimes }) s
    vecEvent mgmt 6 (logErr { code := 0x22, scope := 5, island := 1 + c, unit := c } s)

/-- An island reset (R381): fatal for AON and NOCB, and a gardener restart for GDN0 to GDN7. One that withdraws a step on a
member of a group forces a hold (R382). `code` is the cause. An island whose reset is fatal applies no held write (17 R428). -/
def islandReset (i code : Nat) (bite : Bool) (s : State) : State :=
  let soon : Bool := bite && (match mget i s.wdog.lastReset with
    | some t => decide (s.ctl.lcc.toNat < t.toNat + 2 * s.wdog.limit.toNat * 1000)
    | none => false)
  if i = 0 || i = 17 || soon then
    fatal code (onWdog (fun w =>
      { w with
        resetting := w.resetting &&& ~~~(BitVec.ofNat 18 (2 ^ i))
        heldWrites := w.heldWrites.filter (fun x => x.island ≠ i) }) s)
  else
    let s := vecEvent mgmt 3 (logErr { code := 0x21, scope := 4, detail := i, island := i } s)
    let s := onWdog (fun w =>
      { w with
        resetting := w.resetting ||| BitVec.ofNat 18 (2 ^ i)
        resetSeen := w.resetSeen ||| BitVec.ofNat 18 (2 ^ i)
        islandResets := satInc w.islandResets
        lastReset := mput i s.ctl.lcc w.lastReset }) s
    if 1 ≤ i && i ≤ 8 then gdnRestart (i - 1) s
    else
      let step := s.sow.exec.isSome && (i = 9 || i = 10 || i = 11 || i = 12)
      let s := islandEffect i s
      if step then forceHold s else s

/-- Where a core's fault is contained (06 R169): the request context of a row served alone, with its bed context and step and the request
whose teardown removed the item already; a bed context; or the DISP island. -/
inductive CoreScope where
  | row (row : BitVec 13) (bed ctx step : Nat) (torn : Option U32)
  | ctx (bed ctx : Nat)
  | island

/-- The scope of a core's fault (06 R169). An item that a teardown removed is attributed as it was before. -/
def State.coreScope (s : State) (f : CoreFault) : CoreScope :=
  match f.kind with
  | .swapSave | .swapRestore => .ctx f.bed.val f.ctx.val
  | _ =>
    match f.item.bind s.item, (s.core f.core).bind (fun k => k.orphan) with
    | some x, _ => match x.rows with
      | [row] => .row row x.bed x.ctx x.step.toNat none
      | _ => .ctx x.bed x.ctx
    | none, some o => match o.row with
      | some row => .row row o.bed o.ctx 0 o.torn
      | none => .ctx o.bed o.ctx
    | none, none => .island

/-- The record of a core's fault (R375, R376). -/
def State.coreRec (s : State) (f : CoreFault) : ErrIn :=
  let detail := match f.kind with | .trap => 1 | .scratchpad => 2 | .forbidden => 3 | .swapSave => 4 | .swapRestore => 5
  let e : ErrIn := { code := 0x07, detail, island := 10, origin := 1, unit := f.core }
  match s.coreScope f with
  | .row row b c step torn => s.rowRec { e with bed := some (b, c), step } row torn
  | .ctx b c => { e with scope := 2, bed := some (b, c) }
  | .island => { e with scope := 4 }

/-- CORE_FAULT (06 R169): recorded, and contained where the block is not stalled (R374). -/
def coreFault (f : CoreFault) (s : State) : State :=
  if s.wdog.fenced.contains f.core then s else
  let c := s.coreScope f
  let s := logErr (s.coreRec f) s
  if !s.awake then s else match c with
  | .row row _ _ _ torn => tearContext row torn s
  | .ctx b c => teardownNamed b c s
  | .island => islandReset 10 0x07 false s

/-- An uncorrectable error in a gardener core's SRAM (R377, R383). -/
def gardenerUe (c : Nat) (s : State) : State :=
  gdnRestart c (logErr { code := 0x14, scope := 5, detail := 1 + c, island := 1 + c, unit := c } s)

/-- SRAM_UE (R377). The requests whose state the island's reset cannot rebuild end with FAULT. A stalled block records it (R374); one that
is fatal has its own FATAL record there too (R395). -/
def sramUe (a : SramAt) (s : State) : State :=
  let e : ErrIn := { code := 0x14 }
  match a with
  | .row row =>
    let s := logErr (s.rowRec { e with detail := 9, island := 9 } row none) s
    if s.awake then tearContext row none s else s
  | .nodeCache =>
    let s := logErr { e with scope := 0, detail := 13, island := 13 } s
    if s.awake then onSeed (fun d => { d with cache := [] }) s else s
  | .gardener c => gardenerUe c.val s
  | .other i lost =>
    if 1 ≤ i.val && i.val ≤ 8 then gardenerUe (i.val - 1) s
    else if i.val = 0 || i.val = 17 then fatal 0x14 (logErr { e with scope := 7, detail := i.val, island := i.val } s)
    else
      let s := logErr { e with scope := 4, detail := i.val, island := i.val } s
      if s.awake then each lost (fun h s => endCause h 0x30 s) (islandReset i.val 0x14 false s) else s

/-! ### Gardener cores (R383 to R385; 16 R406) -/

/-- Three restarts within 10 s. -/
def State.thrice (s : State) (c : Nat) : Bool :=
  match mget c s.wdog.gdnTimes with
  | some [a, _, d] => decide (d.toNat ≤ a.toNat + 10000000000)
  | _ => false

/-- GDN_OUT (R385): the core leaves service and its partitions move; fatal for G0 and for the last tenant core. -/
def gdnOut (c : Nat) (s : State) : State :=
  if s.wdog.gdnOut.getLsbD c || !s.thrice c then s else
    let s := onWdog (fun w =>
      { w with
        gdnOut := w.gdnOut ||| BitVec.ofNat 8 (2 ^ c)
        gdnRestarting := w.gdnRestarting &&& ~~~(BitVec.ofNat 8 (2 ^ c)) }) s
    let s := vecEvent mgmt 6 (logErr { code := 0x23, scope := 5, island := 1 + c, unit := c } s)
    if c = 0 || (List.range 7).all (fun i => s.wdog.gdnOut.getLsbD (i + 1)) then fatal 0x23 s
    else each ((List.range 16).filter (fun t => (s.page t).isOpen && (s.page t).gardener.toNat = c)) (fun t s =>
      vecEvent t 4 (s.onPage t (fun g => { g with gardener := BitVec.ofNat 4 s.gardenerFor }))) s

/-- The reads of a started message that is handled afresh (16 R407). -/
def State.againReads (s : State) (p : Nat) (x : Started) : List HostRd :=
  match x.wait with
  | .prompt h _ => (match s.reqH h with | some r => s.promptReads r | none => [])
  | .extend h f => s.extendReads h f
  | .bias f => s.biasReads p f
  | _ => []

/-- A gardener core takes up its tables again (16 R406): of each journal it serves, the completions of applied messages are written, and
the started ones are handled afresh, their copies from the start; G0 copies the region in hand of a load or reload again. -/
def reattach (c : Nat) (s : State) : State :=
  let s := each ((List.range 17).filter (fun p => (s.page p).gardener.toNat = c)) (fun p s =>
    drainCq p (s.page p).waiting.length (putReads ((s.page p).started.flatMap (s.againReads p)) s)) s
  if c ≠ 0 then s
  else { s with gh := { s.gh with
    slots := s.gh.slots.map (fun x => if x.state = .loading || x.reloading then { x with redo := x.redo + 1 } else x)
    grafts := s.gh.grafts.map (fun x => if (x.inLoad && x.walked) || x.reloading then { x with redo := x.redo + 1 } else x) } }

/-- GDN_REATTACH (R383, R406): a core whose instruction SRAM verifies takes up its tables again. -/
def gdnReattach (c : Nat) (verified : Bool) (s : State) : State :=
  if !s.wdog.gdnRestarting.getLsbD c then s
  else if !verified then fatal 0x22 s
  else reattach c <| onWdog (fun w => { w with gdnRestarting := w.gdnRestarting &&& ~~~(BitVec.ofNat 8 (2 ^ c)) }) s

/-! ### The block watchdog (R378, R379; 12 R325) -/

/-- WDOG_STATUS.ARMED (R378). -/
def State.armed (s : State) : Bool :=
  !s.teth.held && (s.disp.items ≠ []
    || (match s.sow.exec with | some x => x.stack ≠ [] || x.coll ≠ 0 | none => false)
    || s.prn.rows.any (fun p => p.state = .opened && !p.complete)
    || s.plots.moves.any (fun m => m.flying)
    || s.gh.slots.any (fun x => x.state = .loading || x.reloading)
    || s.gh.grafts.any (fun x => (x.inLoad && x.walked) || x.reloading)
    || s.arbs.any (fun a => a.holder.isSome))

/-- What is reset for a stuck holder (12 R325): an island, a SELECT job's tenant, a list's row, or nothing. -/
inductive Holder where
  | island (i : Nat) | job | source | debug
deriving DecidableEq

def holderOf (inst i : Nat) : Holder :=
  match inst with
  | 0 => if i = 31 then .debug else if i = 30 then .island 9 else if 22 ≤ i then .island (i - 21) else if i = 21 then .island 1
      else if 13 ≤ i then .island 14 else if i = 12 then .island 12 else if i = 11 then .job else .island 14
  | 1 => if i = 7 then .debug else if i = 4 then .island 13 else .island 12
  | 2 => if i = 7 then .debug else if i = 0 then .job else .source
  | _ => if i = 7 then .debug else .island 13

def setLast (code : Nat) (s : State) : State := onWdog (fun w => { w with lastCode := BitVec.ofNat 8 code }) s

/-- One stuck grant ends, and its holder is reset. -/
def freeGrant (seen : BiteSeen) (inst i : Nat) (s : State) : State :=
  let rowH := match seen.row with | some r => s.rowHandle r | none => none
  let ten := match seen.job with | some p => if p.val < 16 then some p.val else none | none => none
  let scope := match holderOf inst i with | .island _ => 4 | .job => 3 | .source => 1 | .debug => 0
  let s := logErr { code := 0x17, scope, detail := inst, island := arbIsland inst, tenant := ten } s
  let s := setLast 0x17 (endGrant inst s)
  match holderOf inst i with
  | .island k => islandReset k 0x17 true s
  | .job => match ten with
    | some t => if (s.page t).isOpen && (s.page t).stopping.isNone then startReset t false s else s
    | none => islandReset 11 0x17 true s
  | .source => match seen.row, rowH with
    | some r, some h => malformed r h (decide (i ≤ 4)) 0 r.toNat s
    | _, _ => s
  | .debug => s

/-- A hung core: recorded and fenced (R380). -/
def fenceHung (c : Nat) (s : State) : State :=
  fenceCore c (setLast 0x08 (logErr { code := 0x08, island := 10, origin := 1, unit := c } s))

/-- What began at an LCC has been outstanding since the last step progress (R379). -/
def State.hasHung (s : State) (at_ : U64) : Bool := decide (at_.toNat ≤ s.wdog.progress.toNat)

/-- Copies outstanding since the last step progress fail as refused: moves, and loads and reloads, whatever G0 does (R379, R395). -/
def failCopies (s : State) : State :=
  let ms := s.plots.moves.filter (fun m => m.flying && s.hasHung m.at_)
  let s := each ms (fun m s => if m.cls = .restore then restoreFail m s else spillFail m false s) s
  let s := if ms = [] then s else restores (flushDone (pumpMoves (setLast (if ms.any (fun m => (m.run.map (fun r => r.tier)) = some .pool) then 0x05 else 0x03) s)))
  let ls := (List.range 32).filter (fun m => ((s.slot m).state = .loading || (s.slot m).reloading) && s.hasHung (s.slot m).copyAt)
  let s := each ls (fun m s => setLast 0x15 (if (s.slot m).state = .loading then modelLoaded m ⟨none, .refused 0⟩ none s
    else slotLost m 2 ((s.slot m).taint.headD 0) s)) s
  let gs := s.gh.grafts.filter (fun x => ((x.inLoad && x.walked) || x.reloading) && s.hasHung x.copyAt)
  each gs (fun x s => setLast 0x15 (if x.inLoad then graftLoaded x.slot.toNat x.ver ⟨none, .refused 0⟩ none s
    else reloaded (.graft x.slot.toNat x.ver) .refused none s)) s

/-- Copies have been outstanding since the last step progress. -/
def State.copies (s : State) : Bool :=
  s.plots.moves.any (fun m => m.flying && s.hasHung m.at_)
    || s.gh.slots.any (fun x => (x.state = .loading || x.reloading) && s.hasHung x.copyAt)
    || s.gh.grafts.any (fun x => ((x.inLoad && x.walked) || x.reloading) && s.hasHung x.copyAt)

/-- Rows short of lists although every item that emits them has been released. -/
def State.shortRows (s : State) : List PRow :=
  if s.grouped && s.teth.sampler ≠ s.teth.index then [] else
    s.prn.rows.filter (fun p => p.state = .opened && !p.complete && !s.disp.items.any (fun i => i.rows.contains p.row)
      && !(match s.sow.exec with | some x => x.stack.any (fun i => i.rows.contains p.row) | none => false))

/-- LIST_MISSING: the row's request context is torn down. -/
def listMissing (p : PRow) (s : State) : State :=
  let num := match s.sow.exec with | some x => x.num.toNat | none => 0
  teardownReq p.handle (closeRow p.row (setLast 0x0B (logErr { code := 0x0B, scope := 1, island := 11, tenant := some (hTenant p.handle),
                                                               handle := p.handle.toNat, step := num } s)))

/-- Hung cores named at a bite that belong to beds and have run an item since the last step progress. -/
def State.hung (s : State) (l : List Nat) : List Nat :=
  l.filter (fun c => !s.wdog.fenced.contains c && (match s.core c with | some k => k.running.isSome && s.hasHung k.since | none => false))

/-- WDOG_BITE (R379). -/
def wdogBite (seen : BiteSeen) (s : State) : State :=
  if !s.armed || s.ctl.lcc.toNat ≤ s.wdog.progress.toNat + s.wdog.limit.toNat * 1000 then s else
    let stuck := s.stuck
    let hung := s.hung seen.hung
    let engine : Bool := match s.sow.exec with | some x => x.stack.any (fun i => i.issued && s.hasHung i.at_) | none => false
    let coll : Bool := s.grouped && (match s.sow.exec with | some x => decide (x.coll ≠ 0) && s.hasHung x.start | none => false)
    let s := logErr { code := 0x20, island := seen.island.val, origin := seen.origin.toNat, unit := seen.unit } s
    let s := vecEvent mgmt 3 (onWdog (fun w =>
      { w with
        bitten := true
        bites := satInc w.bites
        lastIsland := BitVec.ofNat 5 seen.island.val }) s)
    let s := each stuck (fun e s => freeGrant seen e.1 e.2 s) s
    let s := each hung fenceHung s
    if engine then setLast 0x09 (fatal 0x09 (logErr { code := 0x09, scope := 7, island := 10, origin := 2 } s))
    else
      let copies := s.copies
      let s := if copies then failCopies s else s
      let s := if coll then setLast 0x18 (forceHold s) else s
      let short := s.shortRows
      let s := each short listMissing s
      let s := if stuck = [] && hung = [] && !copies && !coll && short = [] then
          let s := islandReset seen.island.val 0x20 true s
          setLast (if s.wdog.stalled then 0x24 else 0x21) s
        else s
      checkEnd (progressNow s)

/-! ### Poison (01 R19; 15 R386, R387) -/

/-- A reference that poison left without a holder keeps its frame out (R387). -/
def keepFrame (p : Nat) (s : State) : State :=
  onWdog (fun w => { w with keptFrames := if w.keptFrames.contains p then w.keptFrames else w.keptFrames ++ [p] }) s

/-- RETIRED.FRAMES (R396). -/
def State.retiredCount (s : State) : Nat :=
  ((s.wdog.retiredFrames.filter (fun p => s.refOf p = 0)) ++ s.wdog.keptFrames).eraseDups.length

/-- Poison in the KV part of a plot frame (R386). -/
def poisonPlot (p : Nat) (h : U32) (s : State) : State :=
  let s := retirePlot p (tearRow h s)
  if s.grouped then forceHold (onTeth (fun t => { t with intact := false }) s) else s

/-- The entries of a plot table that cannot be read: their plots are not released (R387 detail 3). -/
def poisonTable (h : U32) (line : Nat) (s : State) : State :=
  let slot := if (s.reqH h).isSome then hSlot h else mirrorSlot h
  match s.tab slot with
  | none => s
  | some r =>
    let js := (List.range r.table.length).filter (fun j => decide (j / 8 = line) && (match r.table[j]? with | some e => e.loc = 0 | none => false))
    let s := each js (fun j s => match r.table[j]? with
      | some e => setEnt slot j (fun e => { e with loc := 3, plot := 0 }) (keepFrame e.plot s)
      | none => s) s
    tearRow h s

/-- The record of a poison report (15 R377, R387). The spec gives that of a SELECT job's poisoned read no code: it is POISON_BLOCK with
DETAIL 0 and scope 0 (09 R259; DESIGN CHOICE, log entry 62). -/
def State.poisonRec (s : State) (p : Poison) : ErrIn :=
  let e : ErrIn := { code := 0x13, island := 17, origin := if p.core then 1 else 2, unit := p.unit, addr := p.addr.toNat, step := p.step.toNat }
  let own (h : U32) (e : ErrIn) : ErrIn := { e with scope := 1, tenant := some (hTenant h), handle := h.toNat }
  match p.place with
  | .weights _ _ => { e with code := 0x10 }
  | .graft _ _ _ => { e with code := 0x11 }
  | .plot _ h => own h { e with code := 0x12 }
  | .descriptor slot => match s.req slot with
    | some r => own r.handle { e with detail := 1 }
    | none => { e with detail := 1, scope := 1 }
  | .tokenLog h _ => own h { e with detail := 2 }
  | .plotTable h _ => own h { e with detail := 3 }
  | .node _ => { e with detail := 4 }
  | .footer _ => { e with detail := 5 }
  | .argBlock _ => { e with detail := 6 }
  | .overflow h _ => own h { e with detail := 7 }
  | .profileCopy t _ => { e with detail := 8, scope := 1, tenant := some t.val }
  | .saveArea b c => { e with detail := 9, scope := 2, bed := some (b.val, c.val) }
  | .kernelTable _ => { e with detail := 10 }
  | .selectRead _ _ _ => e

/-- Records of the overflow area that can still be read, and the END record, which is no part of it (R387). -/
def keptRecs (gone : List Nat) (l : List Rec) : List Rec := (l.zipIdx.filter (fun e => !gone.contains e.2 || e.1.isEnd)).map (fun e => e.1)

/-- What a poison report brings about (R386, R387; 08 R227, R231). -/
def poisonActs (p : Poison) (s : State) : State :=
  match p.place with
  | .weights m r => checkEnd (poisonWeights m.val r p s)
  | .graft g v r => checkEnd (poisonGraft g v r p s)
  | .plot f h => checkEnd (poisonPlot f h s)
  | .descriptor slot => match s.req slot with
    | some r => endCause r.handle 0x30 (onWdog (fun w => { w with
        retiredSlots := if w.retiredSlots.contains slot then w.retiredSlots else w.retiredSlots ++ [slot] }) s)
    | none => s
  | .tokenLog h level => match level with
    | some l => s.onReqH h (fun r => { r with badLog := some (match r.badLog with | some k => min k l | none => l) })
    | none => checkEnd (tearRow h s)
  | .plotTable h line => checkEnd (poisonTable h line s)
  | .node n => match mget n s.seed.nodes with
    | some x => clearNode n (keepFrame x.plot s)
    | none => s
  | .footer n => match mget n s.seed.nodes with
    | some x => clearNode n (dropRef x.plot s)
    | none => s
  | .argBlock rows => withdraw (rows.filterMap s.rowHandle) s
  | .overflow h gone => endCause h 0x30 (s.onReqH h (fun r => { r with bufRecs := keptRecs gone r.bufRecs }))
  | .profileCopy t k =>
    let hs := (s.reqs.filter (fun e => e.2.row.isSome && hTenant e.2.handle = t.val && e.2.adm.profile = k)).map (fun e => e.2.handle)
    (each hs (fun h s => endCause h 0x30 s) s).onTen t.val (fun x => { x with profiles := mdel k.toNat x.profiles })
  | .saveArea b c => teardownNamed b.val c.val s
  | .kernelTable m =>
    if (s.slot m.val).state = .resident || (s.slot m.val).state = .tainted then slotLost m.val 3 0 s else s
  | .selectRead pg tag seen => match s.selectOf pg.val tag with
    | some _ => selectFail pg.val tag seen.rows p.addr.toNat s
    | none => s

/-- POISON_INDICATION: recorded, and acted on where the block is not stalled (R374). -/
def poisonIn (p : Poison) (s : State) : State :=
  let s := logErr (s.poisonRec p) s
  if s.awake then poisonActs p s else s

end Sys2Proof.Machine
end

