-- ==== Sys2Proof/Machine/Resets.lean ====
section
/-! DEFINITION. Resets, power states and start-up (16 R397 to R414), with what the survival table keeps (R413, 17 R430). -/

namespace Sys2Proof.Machine

/-! ### Phases -/

/-- Each change of PHASE raises PF vector 6 (R398). -/
def setPhase (p : Phase) (s : State) : State := vecEvent mgmt 6 (onCtl (fun c => { c with phase := p }) s)

/-! ### Values that several resets restore (R411, R413) -/

/-- Every counter marked RC in any register table returns to 0. -/
def clearCounters (s : State) : State :=
  { s with
    ctl := { s.ctl with droppedWrites := 0 }
    wdog := { s.wdog with bites := 0, islandResets := 0, gdnRestarts := 0 }
    pages := s.pages.map (fun g => { g with errCount := 0 })
    seed := { s.seed with collide := 0, full := 0 }
    prn := { s.prn with
      nan := 0, stray := 0, malformed := 0, skip := 0, trunc := 0, empty := 0, guessMissing := 0, guessBad := 0, tailBad := 0 }
    led := { s.led with warns := 0, fallbacks := 0, aborts := 0, fbFails := 0 }
    arbs := s.arbs.map (fun a => { a with hintBroken := 0, revokes := 0 })
    teth := { s.teth with crcErrors := 0, resends := 0 }
    pwr := { s.pwr with missed := 0, droop := 0 }
    trc := { s.trc with dropped := 0 } }

/-- The four LEDGER registers. -/
def clearLedger (s : State) : State :=
  { s with led := { s.led with unattr := 0, discNs := 0, discNj := 0, overhead := 0 } }

/-- The thermal model is initialised again (14 R358), every ladder stands at step 0, and SENSOR_FLAGS is clear (R413). -/
def thermalStart (s : State) : State :=
  flagged (fun s => modelStart (onPwr (fun w =>
    { w with
      ladders := List.replicate 13 {}
      silent := false
      modFlag := false
      coolFlag := false
      lastAt := s.ctl.lcc
      nodes := w.nodes.map (fun n => { n with sensorBad := false, flagged := false }) }) s)) s

/-! ### The firmware image (R399 to R402) -/

/-- The largest image: the header and the gardener SRAMs (R399). -/
def imageMax : Nat := 1024 + 6 * 2 ^ 20

/-- A section entry (R399): its gardener core, data or instruction, its place in that core's SRAM and in the image, and its length, 0 for
an unused entry. -/
structure ImgSection where
  core    : Nat
  data    : Bool
  sramOff : Nat
  imgOff  : Nat
  len     : Nat
deriving DecidableEq, Repr

/-- A little-endian number (00 R7). -/
def leNat : List U8 → Nat
  | [] => 0
  | b :: r => b.toNat + 256 * leNat r

/-- Bytes `off` to `off + n - 1` of an image. -/
def slice (img : List U8) (off n : Nat) : List U8 := (img.drop off).take n

/-- A field of an image header. -/
def imgFld (img : List U8) (off n : Nat) : Nat := leNat (slice img off n)

/-- A big-endian byte string of the header, as SEC 1 defines it: the exception to 00 R7 (R399). -/
def imgStr (img : List U8) (off n : Nat) : Nat := leNat (slice img off n).reverse

/-- Section entry `k` of 50, of 16 B each, at byte 224 and after (R399). -/
def imgSection (img : List U8) (k : Nat) : ImgSection :=
  let e := slice img (224 + 16 * k) 16
  let b := imgFld e 0 1
  ⟨b % 8, b / 8 % 2 = 1, imgFld e 4 4, imgFld e 8 4, imgFld e 12 4⟩

def imgSections (img : List U8) : List ImgSection := (List.range 50).map (imgSection img)

/-- A section lies in the image, after its header, and in its core's SRAM: 256 KiB for instructions, 512 KiB for data (R399; 01, table Breidline SRAM). -/
def sectionIn (len : Nat) (x : ImgSection) : Bool :=
  x.len = 0 || (decide (1024 ≤ x.imgOff) && decide (x.imgOff + x.len ≤ len)
    && decide (x.sramOff + x.len ≤ (if x.data then 0x80000 else 0x40000)))

/-- FORMAT, LINE, IMAGE_LEN and every section lie within range: bytes 0 to 3, 8, 4 to 7 and 224 to 1,023 (R399 to R401). -/
def headIn (img : List U8) (len : Nat) : Bool :=
  decide (1024 ≤ len) && decide (len ≤ imageMax) && imgFld img 0 4 = 3 && imgFld img 8 1 = 3 && imgFld img 4 4 = len
    && (imgSections img).all (sectionIn len)

/-- The fused key digest that the SHA-384 of PUBLIC_KEY, bytes 16 to 112, equals, with its fuse whole; 0 for none (R400). -/
def keyOf (img : List U8) : BitVec 2 :=
  let d := Config.sha384 (slice img 16 97)
  if d = Config.keyDigest0 && !Config.revoked0 then 1
  else if d = Config.keyDigest1 && !Config.revoked1 then 2
  else 0

/-- The image digest: SHA-384 over every byte but SIGNATURE's at 128 to 223 (R400 step 3). -/
def imageDigest (img : List U8) : BitVec 384 := Config.sha384 (img.take 128 ++ img.drop 224)

/-- SIGNATURE, r and s of 48 B each, verifies over the image digest under PUBLIC_KEY (R399, R400). -/
def sigOk (img : List U8) : Bool :=
  Config.ecdsa (BitVec.ofNat 776 (imgStr img 16 97)) (imageDigest img) (BitVec.ofNat 384 (imgStr img 128 48)) (BitVec.ofNat 384 (imgStr img 176 48))

/-- The instruction sections of an image: core, offset in its SRAM and bytes. -/
def imageTexts (img : List U8) : List (Nat × Nat × List U8) :=
  ((imgSections img).filter (fun x => x.len ≠ 0 && !x.data)).map (fun x => (x.core, x.sramOff, slice img x.imgOff x.len))

/-- The digest of each gardener core's instruction sections (R400), taken in the order of their entries (DESIGN CHOICE, log entry 3). -/
def coreDigests (img : List U8) : List (BitVec 384) :=
  (List.range 8).map (fun c => Config.sha384 (((imageTexts img).filter (fun e => e.1 = c)).flatMap (fun e => e.2.2)))

/-- The image read: LEN bytes. -/
def State.imageOf (s : State) (seen : ImageSeen) : List U8 :=
  (seen.bytes ++ List.replicate (s.ctl.fwLen.toNat - seen.bytes.length) 0).take s.ctl.fwLen.toNat

/-- The cause for which an image is rejected, in the order of the table of load failures; 0 accepts it (R400, R401). -/
def imageErr (seen : ImageSeen) (s : State) : Nat :=
  if seen.refused.isSome then 1
  else if !headIn (s.imageOf seen) s.ctl.fwLen.toNat then 2
  else if keyOf (s.imageOf seen) = 0 then 3
  else if !sigOk (s.imageOf seen) then 4
  else 0

/-- The cause for which an image read again is rejected (R402). -/
def rereadErr (seen : ImageSeen) (s : State) : Nat :=
  if seen.refused.isSome then 1 else if !s.ctl.fwAccepted || imageDigest (s.imageOf seen) ≠ s.ctl.fwDigest then 5 else 0

/-- The reads of an image at `FW_IMG_ADDR`, without a PASID, and the record of a refused one (R400 step 1; 01 R25, R447). -/
def imageRead (seen : ImageSeen) (s : State) : State :=
  let l := readsOf (.host none) (s.ctl.fwImgAddr.toNat * 4096) s.ctl.fwLen.toNat
  match seen.refused with
  | some a => hostFault mgmt 0 a.toNat 0 (putReads (readsTo a.toNat l) s)
  | none => putReads l s

/-- A rejected image (R401, 17 R422): PHASE is FAILED, every gardener SRAM is cleared, every page is closed. -/
def imageFail (code : Nat) (s : State) : State :=
  let s := onCtl (fun c =>
    { c with
      fwErr := BitVec.ofNat 8 code
      fwAccepted := false
      fwKey := 0
      fwDigest := 0
      fwCores := []
      fwTexts := []
      gdnClear := true
      fwReread := false }) s
  setPhase .failed { s with pages := s.pages.map (fun g => { g with isOpen := false }) }

/-- A write of FW_CTRL: LEN, and LOAD (R398, R400). -/
def fwCtrl (v : U32) (s : State) : State :=
  let s := onCtl (fun c => { c with fwLen := v.setWidth 23 }) s
  if !v.getLsbD 31 then s
  else if s.ctl.phase = .bootWait || s.ctl.phase = .failed then setPhase .verifying (onCtl (fun c => { c with fwErr := 0 }) s)
  else regRefused 0x8008 0 s

/-- IMAGE_VERIFIED: the first image of a start, or the one read again in a block reset (R405 step 2). -/
def imageVerified (seen : ImageSeen) (s : State) : State :=
  let img := s.imageOf seen
  if s.freezing then s
  else if s.ctl.phase = .verifying then
    let s := imageRead seen s
    match imageErr seen s with
    | 0 => setPhase .init (onCtl (fun c =>
        { c with
          initOf := .start
          fwAccepted := true
          fwLine := 3
          fwMinor := BitVec.ofNat 8 (imgFld img 9 1)
          fwBuild := BitVec.ofNat 16 (imgFld img 10 2)
          fwKey := keyOf img
          fwDigest := imageDigest img
          fwCores := coreDigests img
          fwTexts := imageTexts img
          gdnClear := false }) s)
    | e => imageFail e s
  else if s.ctl.phase = .init && s.ctl.initOf = .blockReset then
    let s := imageRead seen s
    match rereadErr seen s with
    | 0 => onCtl (fun c => { c with fwReread := true }) s
    | e => imageFail e s
  else s

/-- G0 clears the fixed structures with NoC fill requests (R403 step 3). -/
def fillFixed (s : State) : State :=
  each [FixedArea.requestStore, .seedbedNodes, .overflowAreas, .journals] (fun a => putCopy (egressGardener 0) (.fill a)) s

/-- READY: the end of start-up from cold (R403), with the atomic region reserved (01 R16). -/
def startReady (s : State) : State :=
  if s.freezing || s.ctl.phase ≠ .init || s.ctl.initOf ≠ .start then s
  else tetherOn (setPhase .ready (thermalStart (onCtl (fun c => { c with atomic := some Config.atomicBase })
    ((fillFixed s).onPage mgmt (fun g => { g with isOpen := true })))))

/-! ### Cold reset and supply sag (R397, R403; 14 R368) -/

/-- COLD_RESET: the machine of State.reset. The model's record of its ports and its free values run on. -/
def coldReset (s : State) : State :=
  { State.reset with
    out := { s.out with tetherEn := false }
    free := s.free
    pending := s.pending }

def supplySag (s : State) : State := onCtl (fun c => { c with sagged := true }) s

/-! ### Block reset (R405) -/

/-- Step 1: composition and handling stop, and every island other than AON is reset. A page keeps its PASID for step 3. -/
def resetIslands (s : State) : State :=
  let g : Page := { gen := (s.page mgmt).gen }
  { s with
    wdog := { s.wdog with
      limit := 100000
      stalled := false
      resetting := 0
      lastReset := []
      heldWrites := []
      gdnOut := 0
      gdnRestarting := 0
      gdnTimes := []
      retiredSlots := []
      fenced := []
      gdnWaits := [] }
    port := { s.port with latch := [], held := [] }
    pages := (s.pages.take 16).map (fun x => { pasid := x.pasid }) ++ [g]
    plots := { s.plots with poolEn := false, hostEn := false, poolBase := 0, poolSize := 0, hostBase := [], hostSize := [] }
    seed := { s.seed with cache := [], scopes := [], sweep := 0, cands := [], walks := [] }
    out := { s.out with tetherEn := false }
    sow := {}
    disp := { s.disp with
      items := []
      gates := []
      flows := []
      await := [] }
    gh := { s.gh with events := [], ovf := false }
    prn := {}
    led := {}
    teth := { epoch := s.teth.epoch, intact := false }
    pwr := { coolant := s.pwr.coolant, lcc := s.pwr.lcc, seq := s.pwr.seq, lastAt := s.pwr.lastAt, budgets := s.pwr.budgets }
    trc := {}
    tails := []
    nocHeld := [] }

/-- BLOCK_RESET starts (R405, R414). -/
def blockReset (s : State) : State :=
  let s := onCtl (fun c =>
    { c with
      initOf := .blockReset
      fwReread := false
      dormant := false
      resumeHold := false
      wakeNext := false
      entrySealed := false
      latchReset := false
      latchSleep := false
      latchWake := false }) s
  setPhase .init (resetArbs (resetIslands (clearCounters s)))

/-- Step 3: the END record of one descriptor, where its spool has room. A write that the host refuses is recorded (01 R25) and
dropped. -/
def resetEnd (refused : List (U32 × U64)) (h : U32) (s : State) : State :=
  match s.reqH h with
  | none => s
  | some r =>
    match refused.find? (fun e => e.1 = h) with
    | some e => hostFault (hTenant h) 3 e.2.toNat h.toNat s
    | none =>
      let last := if r.state = .ended then ((r.bufRecs ++ r.newRecs).filter (fun x => x.isEnd)).getLast?.toList else [r.endRec 0x34]
      releaseReq h (s.onReqH h (fun r =>
        { r with
          state := .ended
          row := none
          bufRecs := last
          newRecs := [] }))

/-- Step 4: the request store, the Seedbed, the plot pools, the cold frame and the tenant records are cleared, and the
tenant pages are closed. The tenant epochs are kept. -/
def clearStores (s : State) : State :=
  { s with
    reqs := []
    gens := []
    tens := s.tens.map (fun x => { epoch := x.epoch })
    plots := {}
    seed := {}
    pages := List.replicate 16 {} ++ [s.page mgmt] }

/-- Step 5: model slots and graft versions are kept but for loads and evictions under way; versions without users go. -/
def keepModels (s : State) : State :=
  let slots := s.gh.slots.map (fun x => match x.state with
    | .loading | .evicting => emptySlot x
    | _ => { x with reloading := false })
  let used (m : BitVec 5) : Bool := (slots.getD m.toNat {}).state ≠ .empty
  let grafts := (s.gh.grafts.filter (fun x => x.state ≠ .loading && used x.base)).map (fun x => { x with reloading := false })
  let newest := s.gh.newest.filterMap (fun e =>
    let l := grafts.filter (fun x => x.slot.toNat = e.1)
    if l.any (fun x => x.ver = e.2) then some e else l.getLast?.map (fun x => (e.1, x.ver)))
  gleanGrafts { s with gh := { s.gh with slots := slots, grafts := grafts, newest := newest } }

/-- A bed keeps its configuration; its epochs rise and its contexts are swapped out (R405 step 5). -/
def Bed.restarted (x : Bed) : Bed :=
  { x with
    epoch := x.epoch + 1
    rel := 0
    sw := none
    ctxs := x.ctxs.map (fun c => { c with
      epoch := x.epoch + 1
      resident := false
      lastRel := 0
      carriedSince := none
      tearing := false }) }

/-- The cores of the beds as configured. -/
def bedCores (beds : List Bed) : List (Nat × Core) :=
  (List.range 32).foldl (fun l b =>
    let x := beds.getD b {}
    (List.range x.cores.toNat).foldl (fun l i => mput (x.first.toNat + i) { bed := b, join := x.epoch } l) l) []

def restartBeds (s : State) : State :=
  let beds := s.disp.beds.map Bed.restarted
  let s := onDisp (fun d =>
    { d with
      beds := beds
      cores := bedCores beds }) s
  each (List.range 32) (bringIn (fun _ => true)) s

/-- BLOCK_RESET_READY: steps 3 to 6, once the image has been read again and checked (R402, R405 step 2). `refused` are the handles whose
END record the host refuses, with the address. Without an accepted image there is none to read again. -/
def blockResetReady (refused : List (U32 × U64)) (s : State) : State :=
  if s.freezing || s.ctl.phase ≠ .init || s.ctl.initOf ≠ .blockReset then s
  else if !s.ctl.fwAccepted then imageFail 5 s
  else if !s.ctl.fwReread then s
  else
    let s := each (s.reqs.map (fun e => e.2.handle)) (resetEnd refused) s
    let s := thermalStart (restartBeds (keepModels (clearStores s)))
    let s := s.onPage mgmt (fun g => { g with gen := g.gen + 1, isOpen := true })
    tetherOn (setPhase .ready (onCtl (fun c => { c with blockResets := satInc c.blockResets, fwReread := false }) s))

/-! ### Idle (R408) -/

/-- IDLE_GATE: an island without work for 1 µs gates its clock. -/
def idleGate (i : Nat) (s : State) : State :=
  if s.busy i || s.ctl.lcc.toNat < (s.ctl.worked.getD i 0).toNat + 1000 || s.ctl.phase = .dormant || s.freezing then s
  else onCtl (fun c => { c with gated := c.gated ||| BitVec.ofNat 18 (2 ^ i) }) s

/-! ### Dormant (R409 to R412) -/

/-- A write of 1 to BL_CTRL.DORMANT is refused (R398). -/
def State.noDormant (s : State) : Bool :=
  s.ctl.phase ≠ .ready || s.wdog.stalled || (s.teth.en && s.teth.sizeM1 ≠ 0)

/-- DORMANT set to 1: entry begins (R409). -/
def sleep (s : State) : State :=
  setPhase .sleeping (onCtl (fun c => { c with dormant := true, wakeNext := false, entrySealed := false }) s)

/-- DORMANT set to 0 (R411, R414): waking begins, or follows the entry under way. -/
def wake (s : State) : State :=
  let s := onCtl (fun c => { c with dormant := false }) s
  match s.ctl.phase with
  | .dormant => setPhase .waking s
  | .sleeping => onCtl (fun c => { c with wakeNext := true }) s
  | _ => s

/-- What entry waits for (R409 steps 1 to 3, R414): messages started, tenant resets, SELECT jobs, cold-frame moves, loads
and reloads, those of tainted regions included, and gardener restarts. A RESUME, which waits for a row that no layout gives while the block
is SLEEPING, waits beyond the dormant state (DESIGN CHOICE, log entry 49). -/
def State.drained (s : State) : Bool :=
  s.sow.exec.isNone && s.wdog.gdnRestarting = 0 && s.plots.moves = []
    && s.pages.all (fun g => g.stopping.isNone && g.started.all (fun x => match x.wait with
      | .resume _ => true
      | _ => false))
    && s.gh.slots.all (fun x => x.state ≠ .loading && x.state ≠ .evicting && x.state ≠ .tainted && !x.reloading)
    && s.gh.grafts.all (fun x => x.state ≠ .loading && x.state ≠ .tainted && !x.reloading)

/-- Steps 4 to 6: every charge is posted and rolled up, the trace is written out and the islands are power-gated. A core holds no item
of the block any more. -/
def powerDown (s : State) : State :=
  let s := postEnergy s
  let s := each ((s.reqs.filter (fun e => e.2.row.isSome)).map (fun e => e.2.handle)) rollUp s
  let s := onDisp (fun d => 
    { d with
      items := []
      gates := []
      flows := []
      await := []
      cores := d.cores.map (fun e => (e.1, { e.2 with running := none, flagged := false, next := none, orphan := none })) }) s
  let s := traceFlush (onSeed (fun d => { d with cache := [] }) s)
  let s := setPhase .dormant { s with out := { s.out with tetherEn := false } }
  if s.ctl.wakeNext then setPhase .waking (onCtl (fun c => { c with wakeNext := false }) s) else s

/-- DORMANT_ENTRY_DONE: the entry's seal without a step, once, and the power gating when all has drained. -/
def dormantDone (s : State) : State :=
  if s.ctl.phase ≠ .sleeping || s.wdog.stalled || s.freezing then s else
    let s := sealNoStepOp s
    if s.ctl.entrySealed && s.drained then powerDown s else s

/-- Every resident context reloads its resident tiles: a SWAP item for each core of its bed (R411 step 4; 06 R146). -/
def reloadTiles (s : State) : State :=
  each (List.range 32) (fun b s => each (List.range 4) (fun c s => if (s.ctx b c).resident then swapItems b (.restore b c) s else s) s) s

/-- WAKE_DONE (R411). -/
def wakeDone (seen : ImageSeen) (s : State) : State :=
  if s.ctl.phase ≠ .waking || s.freezing then s else
    let s := imageRead seen s
    match rereadErr seen s with
    | 0 =>
      let s := thermalStart (resetArbs (clearLedger (clearCounters (reloadTiles (each (List.range 8) reattach s)))))
      tetherOn (setPhase .ready (onCtl (fun c => { c with resumeHold := true }) s))
    | e => imageFail e s

/-- RESUME_HOLD written with 1 clears (R398). -/
def resumeSteps (s : State) : State := onCtl (fun c => { c with resumeHold := false }) s

end Sys2Proof.Machine
end

