-- ==== Sys2Proof/Machine/Flags.lean ====
section
/-! DEFINITION. The status words: every flag and count that a register reports of the present state (17 R415 to R422 and the
field tables that R415 names). -/

namespace Sys2Proof.Machine

/-- A field of a register word: value, lowest bit, width. -/
def fld (v low width : Nat) : Nat := v % 2 ^ width * 2 ^ low

/-- One bit of a register word. -/
def flg (b : Bool) (low : Nat) : Nat := b2n b * 2 ^ low

/-- One bit for each number below `n` that `f` answers for. -/
def bitmap (n : Nat) (f : Nat → Bool) : Nat := ((List.range n).map (fun i => flg (f i) i)).sum

/-! ### AON: control, watchdog, freeze, firmware -/

def Phase.code : Phase → Nat
  | .bootWait => 0
  | .verifying => 1
  | .init => 2
  | .ready => 3
  | .sleeping => 4
  | .dormant => 5
  | .waking => 6
  | .failed => 7

/-- BL_CTRL as it reads (16 R398). -/
def State.blCtrl (s : State) : Nat := flg s.ctl.dormant 1 + flg s.ctl.resumeHold 2 + flg s.ctl.byCtrl 3

/-- BL_STATUS.IDLE: every island except AON has its clock gated. -/
def State.idle (s : State) : Bool := (List.range 18).all (fun i => i = 0 || (s.ctl.gated.getLsbD i && !s.busy i))

def State.blStatus (s : State) : Nat :=
  s.ctl.phase.code + flg s.idle 3 + flg s.ctl.frozen 4 + flg s.wdog.stalled 5 + fld s.ctl.fwErr.toNat 8 8
    + fld s.ctl.blockResets.toNat 32 16

/-- WDOG_STATUS (15 R396). -/
def State.wdogStatus (s : State) : Nat :=
  flg s.armed 0 + flg s.wdog.bitten 1 + flg s.wdog.stalled 2 + fld s.wdog.lastCode.toNat 8 8
    + fld s.wdog.lastIsland.toNat 16 5 + fld s.wdog.bites.toNat 32 16

def State.islandStatus (s : State) : Nat := s.wdog.resetting.toNat + fld s.wdog.resetSeen.toNat 32 18

def State.gdnWdog (s : State) : Nat :=
  s.wdog.gdnOut.toNat + fld s.wdog.gdnRestarting.toNat 8 8 + fld s.wdog.gdnRestarts.toNat 32 16

def State.retired (s : State) : Nat := fld s.retiredCount 0 21 + fld s.wdog.retiredSlots.length 32 21

/-- CORE_FENCE[w]; the table gives word 12 its low 32 bits alone. -/
def State.coreFence (s : State) (w : Nat) : Nat := bitmap (if w = 12 then 32 else 64) (fun b => s.wdog.fenced.contains (64 * w + b))

/-- FREEZE_STATUS (17 R420). -/
def State.freezeStatus (s : State) : Nat :=
  flg s.ctl.frozen 0 + flg s.ctl.byCtrl 1 + flg s.ctl.byDebug 2 + fld s.ctl.stopped.toNat 8 18 + fld s.ctl.freezes.toNat 32 16
    + fld s.ctl.droppedWrites.toNat 48 16

/-- FW_STATUS (17 R422). -/
def State.fwStatus (s : State) : Nat :=
  s.ctl.fwLine.toNat + fld s.ctl.fwMinor.toNat 8 8 + fld s.ctl.fwBuild.toNat 16 16 + flg s.ctl.fwAccepted 32
    + fld s.ctl.fwKey.toNat 33 2 + flg Config.revoked0 35 + flg Config.revoked1 36

/-- GDN_ASSIGN: the gardener core of each open partition. -/
def State.gdnAssign (s : State) : Nat :=
  ((List.range 16).map (fun t => fld (if (s.page t).isOpen then (s.page t).gardener.toNat else 0) (4 * t) 4)).sum

/-! ### LEDG: power and heat (14 R370), Ledger and deadlines (11 R312) -/

def State.ballast (s : State) : Nat :=
  ((List.range 13).map (fun l => fld (s.pwr.ladders.getD l {}).b.toNat (4 * l) 4)).sum + fld s.maxStep 52 4 + flg s.floorOn 56

/-- A signed estimate in 16 bits. -/
def est16 (x : Int) : Nat := (BitVec.ofInt 16 x).toNat

def State.thermEst (s : State) : Nat := s.hottest + fld (est16 (s.node s.hottest).est) 16 16

def State.thermNode (s : State) (i : Nat) : Nat := est16 (s.node i).est + fld (s.node i).power.toNat 16 16

def State.powerFlags (s : State) : Nat := flg s.pwr.modFlag 0 + 2 * bitmap 24 (fun i => (s.node i).flagged)

def State.sampleStatus (s : State) : Nat := s.pwr.seq.toNat + flg s.pwr.silent 16 + fld s.pwr.missed.toNat 32 32

def State.cyclicStatus (s : State) : Nat :=
  let c := s.sow.cyc
  fld c.next 0 6 + flg (c.len ≠ 0) 6 + fld c.len.toNat 8 7 + fld c.a.toNat 16 4 + fld c.b.toNat 20 4

def State.dlActions (s : State) : Nat :=
  s.led.warns.toNat + fld s.led.fallbacks.toNat 16 16 + fld s.led.aborts.toNat 32 16 + fld s.led.fbFails.toNat 48 16

/-- DL_EST: the two step-time estimates of a model slot. -/
def State.dlEst (s : State) (m : Nat) : Nat :=
  match mget m s.sow.est with
  | some (small, large) => small.toNat + fld large.toNat 32 32
  | none => 0

/-! ### EGR: trace (17 R420) -/

def State.traceCfg (s : State) : Nat := flg s.trc.en 0 + fld s.trc.log2.toNat 8 5 + fld s.trc.events.toNat 32 32

/-! ### TETH (13 R355) -/

def State.tetherCtrl (s : State) : Nat :=
  let t := s.teth
  flg t.en 0 + fld t.lossUs.toNat 8 16 + fld t.holdLimit.toNat 24 8 + fld t.model.toNat 32 5

def State.tetherStatus (s : State) : Nat :=
  let t := s.teth
  flg t.lock 0 + flg t.formed 1 + flg t.held 2 + flg t.brk 3 + flg (s.hotOwn ≠ 0) 4 + fld t.epoch.toNat 16 16
    + fld t.crcErrors.toNat 32 16 + fld t.resends.toNat 48 16

def State.groupId (s : State) : Nat := s.teth.id.toNat + fld s.teth.sizeM1.toNat 16 10 + fld s.teth.sampler.toNat 32 10

/-! ### PLOT, SEED, PRUNE, SOWER, NOCB -/

def State.coldCtrl (s : State) : Nat := flg s.plots.poolEn 0 + flg s.plots.hostEn 1

/-- PLOT_PINNED (07 R200). -/
def State.plotPinned (s : State) : Nat := (s.plots.refs.filter (fun e => e.2 = 0xFFFF)).length

/-- PRUNER_JOBS (09 R261). -/
def State.prunerJobs (s : State) : Nat :=
  (s.pages.map (fun g => (g.started.filter (fun x => x.wait.isSelect)).length)).sum

/-- SPOOL_HELD (10 R285). -/
def State.spoolHeld (s : State) : Nat := (s.reqs.filter (fun e => e.2.state = .heldSpool)).length

def SlotState.code : SlotState → Nat
  | .empty => 0
  | .loading => 1
  | .resident => 2
  | .tainted => 3
  | .lost => 4
  | .evicting => 5

/-- GH_SLOT (08 R233). -/
def State.ghSlot (s : State) (m : Nat) : Nat :=
  let x := s.slot m
  x.state.code + fld x.fallback.toNat 8 5 + flg x.fbValid 13 + flg (s.fbActive m) 14 + fld x.taint.length 16 13
    + fld (s.modelUsers m) 32 21

def State.ghStatus (s : State) : Nat := s.gh.events.length + flg s.gh.ovf 7

/-! ### Arbiters (12 R331) -/

def State.arbHolder (s : State) (i : Nat) : Nat :=
  let a := s.arb i
  match a.holder with
  | some h => a.rank h + fld h 8 5 + flg true 15 + fld a.held.toNat 32 32
  | none => 0

def Arb.mapWord (m : List (BitVec 5)) (j : Nat) : Nat :=
  ((List.range 4).map (fun e => fld ((m.getD (4 * j + e) 0).toNat) (8 * e) 5)).sum

def Arb.pendingFull (a : Arb) : Nat :=
  if a.egress then bitmap 32 (fun i => decide (a.depth.toNat ≤ (a.input i).queue.length)) else 0

/-! ### Mailbox pages (03 R59 to R76) -/

def State.pageId (s : State) (p : Nat) : Nat :=
  let g := s.page p
  g.gen.toNat + fld g.gardener.toNat 8 4 + fld p 16 5 + flg g.isOpen 24

def Page.ringCtrl (g : Page) : Nat := flg g.sqEn 0 + flg g.cqEn 1 + flg g.faultStop 2

def Page.errInfo (g : Page) : Nat := g.errCode.toNat + fld g.errCount.toNat 8 16 + flg g.errValid 24

def Urg.stat (u : Urg) : Nat := u.status.toNat + flg u.busy 16 + flg u.done 17

def Vec.word (v : Vec) : Nat := v.count.toNat + fld v.time.toNat 8 16 + flg v.en 31

end Sys2Proof.Machine
end

