-- ==== Sys2Proof/Machine/PageRegs.lean ====
section
/-! DEFINITION. Writes to the registers of an open mailbox page (03 R62, R66, R70 to R76). Offsets in errors are page
offsets. -/

namespace Sys2Proof.Machine

/-- SQ_TAIL (R66). -/
def setSqTail (p : Nat) (v : U32) (s : State) : State :=
  let g := s.page p
  let n := v.toNat % 65536
  let size := 2 ^ g.sqLog2.toNat
  if size ≤ n then pageError p 0x04 0x20 s
  else if (n + size - g.sqHead.toNat) % size < g.begun then pageError p 0x05 0x20 s
  else s.onPage p (fun g => { g with sqTail := BitVec.ofNat 16 n })

/-- Waiting completions are written where the block runs: a dormant one keeps them, with the value written (R70; 16 R410). -/
def drainOn (p : Nat) (s : State) : State := if s.awake then drainCq p (s.page p).waiting.length s else s

/-- CQ_HEAD (R66, R70): waiting completions are written as entries come free. -/
def setCqHead (p : Nat) (v : U32) (s : State) : State :=
  let g := s.page p
  let n := v.toNat % 65536
  let size := 2 ^ g.cqLog2.toNat
  let ahead (x : Nat) : Nat := (x + size - g.cqHead.toNat) % size
  if size ≤ n then pageError p 0x04 0x38 s
  else if ahead g.cqTail.toNat < ahead n then pageError p 0x05 0x38 s
  else drainOn p (s.onPage p (fun g => { g with cqHead := BitVec.ofNat 16 n }))

/-- RING_CTRL (R62). Units that the host wrote before the ring is enabled stay its first units while none was fetched. -/
def setRingCtrl (p : Nat) (v : U32) (s : State) : State :=
  let g := s.page p
  let sq := v.getLsbD 0
  let cq := v.getLsbD 1
  let s := s.onPage p (fun g =>
    { g with
      sqEn := sq
      cqEn := cq
      faultStop := g.faultStop && !v.getLsbD 2 })
  let s := if sq && !g.sqEn then s.onPage p (fun g =>
      { g with
        sqHead := 0
        sqTail := 0
        begun := 0
        ring := if g.sqHead = 0 then g.ring else [] }) else s
  let s := if cq && !g.cqEn then s.onPage p (fun g =>
      { g with
        cqHead := 0
        cqTail := 0
        phase := true }) else s
  drainOn p s

/-- SQ_BASE, CQ_BASE, SQ_CFG and CQ_CFG (R62). -/
def setRingCfg (p : Nat) (r : RingReg) (v : U64) (s : State) : State :=
  let g := s.page p
  let k := v.toNat % 32
  let sized (off : Nat) (f : Page → Page) (en : Bool) : State :=
    if en then pageError p 0x03 off s else if k < 6 || 16 < k then pageError p 0x02 off s else s.onPage p f
  let based (off : Nat) (f : Page → Page) (en : Bool) : State := if en then pageError p 0x03 off s else s.onPage p f
  match r with
  | .sqBase => based 0x10 (fun g => { g with sqBase := v.extractLsb' 12 52 }) g.sqEn
  | .cqBase => based 0x28 (fun g => { g with cqBase := v.extractLsb' 12 52 }) g.cqEn
  | .sqCfg => sized 0x18 (fun g => { g with sqLog2 := BitVec.ofNat 5 k }) g.sqEn
  | .cqCfg => sized 0x30 (fun g => { g with cqLog2 := BitVec.ofNat 5 k }) g.cqEn

def onUrg (p u : Nat) (f : Urg → Urg) (s : State) : State := s.onPage p (fun g => { g with slots := lupd u f g.slots })

def State.urg (s : State) (p u : Nat) : Urg := (s.page p).slots.getD u {}

/-- One word of URG_MSG (R71, R72, 17 R423). -/
def setUrgMsg (p u k : Nat) (v : U32) (s : State) : State :=
  if (s.urg p u).busy then pageError p 0x06 (0x100 + u * 0x80 + 4 * k) s
  else onUrg p u (fun x => { x with msg := (x.msg &&& ~~~((0xFFFFFFFF : BitVec 512) <<< (32 * k))) ||| ((v.setWidth 512) <<< (32 * k)) }) s

/-- URG_GO (R71, R72): the message that URG_MSG holds is submitted. -/
def setUrgGo (p : Fin 17) (u : Fin 8) (v : U32) (s : State) : State :=
  if (s.urg p u).busy then pageError p 0x06 (0x100 + u.val * 0x80 + 0x40) s
  else if !v.getLsbD 0 then s
  else urgStart p u (urgMsg p u (v.getLsbD 1) (s.urg p u).msg) s

/-- URG_STAT.DONE. -/
def setUrgStat (p u : Nat) (v : U32) (s : State) : State := onUrg p u (fun x => { x with done := x.done && !v.getLsbD 17 }) s

/-- INT_COAL[v] (R74): clearing EN discards the pending count. -/
def setIntCoal (p i : Nat) (v : U32) (s : State) : State :=
  s.onPage p (fun g => { g with vecs := lupd i (fun x =>
    { x with
      count := v.setWidth 8
      time := v.extractLsb' 8 16
      en := v.getLsbD 31
      pending := if v.getLsbD 31 then x.pending else 0 }) g.vecs })

def setIntStatus (p : Nat) (v : U32) (s : State) : State := s.onPage p (fun g => { g with cause := g.cause &&& ~~~(v.setWidth 8) })

def setErrInfo (p : Nat) (v : U32) (s : State) : State := s.onPage p (fun g => { g with errValid := g.errValid && !v.getLsbD 24 })

end Sys2Proof.Machine
end

