-- ==== Sys2Proof/Machine/Freeze.lean ====
section
/-! DEFINITION. Freeze and thaw (18 R438 to R444, 17 R421, R429). -/

namespace Sys2Proof.Machine

/-! ### Restores that wait (07 R205) -/

/-- RESTORE_START: the wait of the request's restore is over, and it is first in order. -/
def restoreStart (h : U32) (s : State) : State :=
  let waiting := sortBy (fun (a b : Req) => decide (a.heldSeq < b.heldSeq))
    ((s.reqs.map (fun e => e.2)).filter (fun r => match r.restore with | some x => !x.running | none => false))
  match waiting.head? with
  | some r => if r.handle = h then startRestores 1 s else s
  | none => s

/-- SEEDBED_REMOVAL_DONE (07 R199): an evicted model's nodes, or a loading graft version's. -/
def removalDone (model : Option (Fin 32)) (g : Nat) (v : U16) (s : State) : State :=
  match model with
  | some m => evicted m.val s
  | none => graftWalked g v s

/-! ### NoC traffic into the block (R439) -/

/-- What each piece of NoC traffic does when the block takes it. -/
def nocApply (i : Instr) (s : State) : State :=
  match i with
  | .poisonIndication p => poisonIn p s
  | .hostAccessRefused r => hostRefused r s
  | .atomicWrite addr core unit b c => atomicWrite addr.toNat core unit b.val c.val s
  | .coreFault f => coreFault f s
  | .spoolTailRead t k tail => tailRead t.val k.toNat tail s
  | .argumentBlockAck w => dispatchStep w s
  | .workItemComplete c busy => itemComplete c busy s
  | .stackItemComplete idx ns sb nb => stackComplete idx ns sb nb s
  | .collectiveComplete => collComplete s
  | .tileBoundaryPark c => tilePark c s
  | .swapSaveDone b => saveDone b.val s
  | .contextRearm b busy => rearmDone b.val busy s
  | .partialList l => listArrives l s
  | .guessRecord g => checkEnd (guessArrives g s)
  | .promptCopied h toks => promptCopied h toks s
  | .extendTokensCopied h toks => extendCopied h toks s
  | .biasListCopied p tag es => biasCopied p.val tag es s
  | .spillMoveDone slot p => spillMoveDone slot p.plot p.poisoned s
  | .restoreMoveDone slot plot poisoned => restoreMoveDone slot plot poisoned s
  | .modelLoadDone m seen => modelLoaded m.val seen none s
  | .graftLoadDone g v seen => graftLoaded g v seen none s
  | .reloadDone t seen => reloaded t seen none s
  | .selectDone p tag seen => selectDone p.val tag seen.rows s
  | .teardownEnd b c busy => teardownEnds b.val c.val busy s
  | .joiningCoreRestoreDone c => joinDone c s
  | _ => s

/-- The gardener core whose firmware takes a report: of a load or reload G0, of a message's copy the partition's (15 R384). -/
def State.takerOf (s : State) (i : Instr) : Option Nat :=
  let of (p : Nat) : Option Nat := some (s.page p).gardener.toNat
  match i with
  | .modelLoadDone .. | .graftLoadDone .. | .reloadDone .. => some 0
  | .hostAccessRefused (.load ..) | .hostAccessRefused (.graftLoad ..) => some 0
  | .promptCopied h _ | .extendTokensCopied h _ | .hostAccessRefused (.prompt h _) | .hostAccessRefused (.extend h _) => of (hTenant h)
  | .biasListCopied p _ _ | .hostAccessRefused (.bias p _ _) => of p.val
  | _ => none

/-- Traffic is taken while the block runs; a report for a gardener core waits while the core restarts. A stalled block goes on to write the
error log (15 R374): it drops and records a write into the atomic region, and records a refused access, poison and a core's fault. -/
def nocTake (i : Instr) (s : State) : State :=
  if s.awake then
    (if (s.takerOf i).any s.gdnDown then onWdog (fun w => { w with gdnWaits := w.gdnWaits ++ [i] }) s else nocApply i s)
  else
    match i with
    | .atomicWrite addr core unit b c => atomicWrite addr.toNat core unit b.val c.val s
    | .hostAccessRefused r => if s.wdog.stalled then hostRecord r s else s
    | .poisonIndication p => if s.wdog.stalled then poisonIn p s else s
    | .coreFault f => if s.wdog.stalled then coreFault f s else s
    | _ => s

/-- What waited for a gardener core that no longer restarts is taken. -/
def takeWaits (s : State) : State := each s.wdog.gdnWaits nocTake (onWdog (fun w => { w with gdnWaits := [] }) s)

/-- GDN_REATTACH, after which what waited for the core is taken (15 R383, R384). -/
def gdnBack (c : Nat) (verified : Bool) (s : State) : State := takeWaits (gdnReattach c verified s)

def isPoison : Instr → Bool
  | .poisonIndication _ => true
  | _ => false

/-- The traffic behind the first `n` poison indications, which are left out. -/
def pastPoison : Nat → List Instr → List Instr
  | _, [] => []
  | n, i :: r => if isPoison i && n ≠ 0 then pastPoison (n - 1) r else i :: pastPoison n r

/-- Traffic held drains at thaw: the queue of poison indications, of at most 64, then the rest in arrival order. -/
def drainNoc (s : State) : State :=
  let l := s.nocHeld
  each ((l.filter isPoison).take 64 ++ pastPoison 64 l) nocTake { s with nocHeld := [] }

/-! ### The freeze sequence (R438) -/

/-- The islands that a freeze has stopped one cycle of the AON reference later: the next of the ranks 1 to 4 with those before it. NOCB
stops with FREEZE_DONE. -/
def nextRank (b : BitVec 18) : BitVec 18 :=
  if b = 0 then 0x003FE else if b = 0x003FE then 0x03FFE else if b = 0x03FFE then 0x0FFFE else if b = 0x0FFFE then 0x1FFFE else b

/-- A freeze begins: the LCC stops, and then the islands rank by rank. While dormant, FROZEN is set and nothing else changes
(16 R414). -/
def freezeBegin (s : State) : State :=
  if s.ctl.phase = .dormant then onCtl (fun c => { c with frozen := true }) s
  else
    let s := onCtl (fun c =>
      { c with
        freezeLcc := c.lcc
        freezes := satInc c.freezes
        stopped := 0 }) s
    let s := { s with out := { s.out with tetherEn := false } }
    if s.teth.lock then onTeth (fun t => { t with lock := false, brk := true }) s else s

/-- BL_CTRL.FREEZE written with 1. -/
def freezeCtrl (s : State) : State :=
  let was := s.freezing
  let s := onCtl (fun c => { c with byCtrl := true }) s
  if was then s else freezeBegin s

/-- The FREEZE signal of the debug network is asserted. -/
def freezeDebug (s : State) : State :=
  let was := s.freezing
  let s := onCtl (fun c => { c with byDebug := true }) s
  if was then s else freezeBegin s

/-- FREEZE_DONE: NOCB stops, the last of the islands, and FROZEN is set. It follows the ranks 1 to 4. -/
def freezeDone (s : State) : State :=
  if !s.freezing || s.ctl.frozen || s.ctl.stopped ≠ 0x1FFFE then s else onCtl (fun c => { c with frozen := true, stopped := 0x3FFFE }) s

/-- The next rank stops. Before EGR does, in rank 3, the transaction that its port moves has ended (R438). -/
def stopRank (s : State) : State :=
  let s := onCtl (fun c => { c with stopped := nextRank c.stopped }) s
  if s.ctl.stopped.getLsbD 14 then endGrant 0 s else s

/-! ### Thaw (R444) -/

/-- A doorbell on a page, which may be closed (03 R60). -/
def doorbell (p off : Nat) (f : State → State) (s : State) : State := if (s.page p).isOpen then f s else pageError p 0x08 off s

/-- The doorbells latched while frozen, in page order (17 R429). -/
def applyBells (s : State) : State :=
  let tails := s.ctl.bellTail
  let heads := s.ctl.bellHead
  let s := onCtl (fun c => { c with bellTail := [], bellHead := [] }) s
  each (List.range 17) (fun p s =>
    let s := match mget p tails with | some v => doorbell p 0x20 (setSqTail p v) s | none => s
    match mget p heads with | some v => doorbell p 0x38 (setCqHead p v) s | none => s) s

/-- TETHER_EN is asserted again where 13 R354 allows it. The member lost its lock, so it holds (R439). -/
def tetherBack (s : State) : State :=
  if s.grouped && s.ctl.phase = .ready then holdGroup 3 { s with out := { s.out with tetherEn := true } } else s

/-- Actions latched while frozen (R440). -/
def latched (s : State) : State :=
  let c := s.ctl
  let s := onCtl (fun c => { c with latchReset := false, latchSleep := false, latchWake := false }) s
  if c.latchReset then blockReset s else if c.latchSleep then sleep s else if c.latchWake then wake s else s

/-- The thermal model and the ladders start again where firmware runs (16 R413). -/
def thawModel (s : State) : State := if s.ctl.phase = .ready || s.ctl.phase = .sleeping then thermalStart s else s

/-- Both sources are clear: the block thaws. -/
def thaw (s : State) : State :=
  let s := onCtl (fun c => { c with frozen := false, stopped := 0 }) (applyBells s)
  latched (drainNoc (thawModel (tetherBack s)))

/-- BL_CTRL.FREEZE written with 0 (R440). -/
def thawCtrl (s : State) : State :=
  if !s.ctl.byCtrl then s else
    let s := onCtl (fun c => { c with byCtrl := false }) s
    if s.freezing then s else thaw s

/-- The FREEZE signal is deasserted (R444). -/
def thawDebug (s : State) : State :=
  if !s.ctl.byDebug then s else
    let s := onCtl (fun c => { c with byDebug := false }) s
    if s.freezing then s else thaw s

/-! ### Time -/

/-- What passes while no command waits, a cycle of the AON reference: the LCC advances by 10 ns (00 R7, 03 R78), unless a freeze has
stopped it and stops the next rank of islands (18 R438), and the trace records in the buffers reach the ring (18 R436). A freeze raised while dormant changes nothing but
FROZEN (18 R438). DESIGN CHOICE (log entry 9): time passes only so. -/
def tick (s : State) : State :=
  if s.freezing && s.ctl.phase ≠ .dormant then
    if s.ctl.frozen then s else stopRank s
  else
    let s := onCtl (fun c => { c with lcc := c.lcc + 10 }) s
    if s.awake && !s.freezing then traceFlush s else s

end Sys2Proof.Machine
end

