-- ==== Sys2Proof/Machine/Regs.lean ====
section
/-! DEFINITION. The register map (17 R415 to R429): where each register lies, what it reads, what a read clears and what a
write does, and the rules of access that hold for all of them. -/

namespace Sys2Proof.Machine

/-! ### The registers -/

/-- The registers of a mailbox page (03 R59). -/
inductive PReg where
  | pageId | ringCtrl | sqBase | sqCfg | sqTail | sqHead | cqBase | cqCfg | cqHead | cqTail | errAddr | errInfo
  | urgMsg (u : Fin 8) (k : Fin 16) | urgGo (u : Fin 8) | urgStat (u : Fin 8) | urgReply (u : Fin 8) (k : Fin 3) | urgLcc (u : Fin 8)
  | intCoal (v : Fin 8) | intStatus
deriving DecidableEq, Repr

/-- The registers of an arbiter instance (12 R331). -/
inductive AReg where
  | id | window | windowPos | clear | commit | holder | hint | hintBroken | depth | full | masked | revokes
  | map (j : Nat) | active (j : Nat) | quota (k : Fin 32) | longest (k : Nat) | grants (k : Nat) | wait (k : Nat)
deriving DecidableEq, Repr

/-- The registers of the block window (17 R415). -/
inductive Reg where
  | blId | blRev | blCaps | blCtrl | blStatus | lccLo | lccHi
  | errAddr (e : Nat) | errSrc (e : Nat) | errCode (e : Nat) | errLcc (e : Nat) | errAux (e : Nat) | errHead
  | wdogLimit | wdogStatus | islandStatus | islandResets | wdogProgress | gdnWdog | retired | coreFence (w : Nat)
  | arb (i : Fin 4) (r : AReg)
  | pwrLimit | thermLimit | ballast | thermEst | thermLcc | sensorFlags | powerFlags | sampleStatus | droopSeen | thermNode (i : Nat)
  | traceCfg | traceScope | traceRing | traceHead | traceTail | traceDropped | freezeStatus | freezeLcc
  | tetherCtrl | tetherStatus | groupId | memberIndex
  | fwImgAddr | fwCtrl | fwStatus | gdnAssign | fwDigest (j : Nat)
  | coldCtrl | coldFree | hostFree (t : Nat) | tier (r : TierReg) | seedScopes (t : Fin 16)
  | seedNodes | seedCollide | seedFull | plotPinned
  | ghSlot (m : Nat) | ghSlotUse (m : Nat) | ghEvent | ghStatus
  | prunerNan | prunerStray | prunerMalformed | prunerSkip | prunerWaves | prunerJobs
  | sampleTrunc | sampleEmpty | guessMissing | guessBad | spoolTailBad | spoolHeld
  | ledger (k : Fin 4) | cyclicStatus | dlActions | dlEst (m : Nat)
  | page (p : Fin 17) (r : PReg)
deriving DecidableEq, Repr

/-! ### Where they lie -/

/-- Element of an array of `n` registers at `base`, `stride` bytes apart. -/
def inArray (off base stride n : Nat) : Option Nat :=
  if base ≤ off && off < base + stride * n && (off - base) % stride = 0 then some ((off - base) / stride) else none

def finOf (n : Nat) (k : Nat) : Option (Fin n) := if h : k < n then some ⟨k, h⟩ else none

/-- The first of the answers that is one. -/
def firstOf {α : Type} (l : List (Option α)) : Option α := l.findSome? id

/-- The register of a page at an offset within it (03 R59, R71). The table gives the last 16 bytes of an urgent slot no field: they are
unlisted (DESIGN CHOICE, log entry 62). -/
def pageReg (off : Nat) : Option PReg :=
  match off with
  | 0x0000 => some .pageId
  | 0x0008 => some .ringCtrl
  | 0x0010 => some .sqBase
  | 0x0018 => some .sqCfg
  | 0x0020 => some .sqTail
  | 0x0024 => some .sqHead
  | 0x0028 => some .cqBase
  | 0x0030 => some .cqCfg
  | 0x0038 => some .cqHead
  | 0x003C => some .cqTail
  | 0x0040 => some .errAddr
  | 0x0048 => some .errInfo
  | 0x0640 => some .intStatus
  | _ =>
    if 0x100 ≤ off && off < 0x500 then
      match finOf 8 ((off - 0x100) / 0x80) with
      | some u =>
        let o := (off - 0x100) % 0x80
        if o < 0x40 then (if o % 4 = 0 then (finOf 16 (o / 4)).map (fun k => .urgMsg u k) else none)
        else match o with
          | 0x40 => some (.urgGo u)
          | 0x48 => some (.urgStat u)
          | 0x50 => some (.urgReply u 0)
          | 0x58 => some (.urgReply u 1)
          | 0x60 => some (.urgReply u 2)
          | 0x68 => some (.urgLcc u)
          | _ => none
      | none => none
    else (inArray off 0x600 8 8).bind (fun v => (finOf 8 v).map .intCoal)

/-- The register of an arbiter instance (12 R331). -/
def arbReg (off : Nat) : Option AReg :=
  match off with
  | 0x000 => some .id
  | 0x008 => some .window
  | 0x010 => some .windowPos
  | 0x018 => some .clear
  | 0x020 => some .commit
  | 0x028 => some .holder
  | 0x030 => some .hint
  | 0x038 => some .hintBroken
  | 0x040 => some .depth
  | 0x048 => some .full
  | 0x050 => some .masked
  | 0x058 => some .revokes
  | _ =>
    firstOf [
      (inArray off 0x60 4 8).map .map,
      (inArray off 0x80 4 8).map .active,
      (inArray off 0xA0 4 32).bind (fun k => (finOf 32 k).map .quota),
      (inArray off 0x120 4 32).map .longest,
      (inArray off 0x1A0 8 32).map .grants,
      (inArray off 0x2A0 8 32).map .wait]

/-- The registers below 0x8000 that stand alone. -/
def lowReg (off : Nat) : Option Reg :=
  match off with
  | 0x0000 => some .blId
  | 0x0008 => some .blRev
  | 0x0010 => some .blCaps
  | 0x0018 => some .blCtrl
  | 0x0020 => some .blStatus
  | 0x1000 => some .lccLo
  | 0x1004 => some .lccHi
  | 0x2400 => some .errHead
  | 0x3000 => some .wdogLimit
  | 0x3008 => some .wdogStatus
  | 0x3010 => some .islandStatus
  | 0x3018 => some .islandResets
  | 0x3020 => some .wdogProgress
  | 0x3028 => some .gdnWdog
  | 0x3030 => some .retired
  | 0x5000 => some .pwrLimit
  | 0x5008 => some .thermLimit
  | 0x5010 => some .ballast
  | 0x5018 => some .thermEst
  | 0x5020 => some .thermLcc
  | 0x5028 => some .sensorFlags
  | 0x5030 => some .powerFlags
  | 0x5038 => some .sampleStatus
  | 0x5040 => some .droopSeen
  | 0x6000 => some .traceCfg
  | 0x6008 => some .traceScope
  | 0x6010 => some .traceRing
  | 0x6018 => some .traceHead
  | 0x6020 => some .traceTail
  | 0x6028 => some .traceDropped
  | 0x6100 => some .freezeStatus
  | 0x6108 => some .freezeLcc
  | 0x7000 => some .tetherCtrl
  | 0x7008 => some .tetherStatus
  | 0x7010 => some .groupId
  | 0x7018 => some .memberIndex
  | _ => none

/-- The registers of the gardener control region that stand alone (R416). -/
def gcrReg (off : Nat) : Option Reg :=
  match off with
  | 0x8000 => some .fwImgAddr
  | 0x8008 => some .fwCtrl
  | 0x8010 => some .fwStatus
  | 0x8018 => some .gdnAssign
  | 0x8100 => some .coldCtrl
  | 0x8108 => some (.tier .poolBase)
  | 0x8110 => some (.tier .poolSize)
  | 0x8118 => some .coldFree
  | 0x8480 => some .seedNodes
  | 0x8488 => some .seedCollide
  | 0x8490 => some .seedFull
  | 0x8498 => some .plotPinned
  | 0x8700 => some .ghEvent
  | 0x8708 => some .ghStatus
  | 0x8800 => some .prunerNan
  | 0x8808 => some .prunerStray
  | 0x8810 => some .prunerMalformed
  | 0x8818 => some .prunerSkip
  | 0x8820 => some .prunerWaves
  | 0x8828 => some .prunerJobs
  | 0x8900 => some .sampleTrunc
  | 0x8908 => some .sampleEmpty
  | 0x8910 => some .guessMissing
  | 0x8918 => some .guessBad
  | 0x8920 => some .spoolTailBad
  | 0x8928 => some .spoolHeld
  | 0x8A00 => some (.ledger 0)
  | 0x8A08 => some (.ledger 1)
  | 0x8A10 => some (.ledger 2)
  | 0x8A18 => some (.ledger 3)
  | 0x8A20 => some .cyclicStatus
  | 0x8A28 => some .dlActions
  | _ => none

/-- The arrays of registers. -/
def arrReg (off : Nat) : Option Reg :=
  firstOf [
    (inArray off 0x2000 0x20 32).map .errAddr,
    (inArray off 0x2008 0x20 32).map .errSrc,
    (inArray off 0x200C 0x20 32).map .errCode,
    (inArray off 0x2010 0x20 32).map .errLcc,
    (inArray off 0x2018 0x20 32).map .errAux,
    (inArray off 0x3100 8 13).map .coreFence,
    (inArray off 0x5100 8 24).map .thermNode,
    (inArray off 0x8020 8 6).map .fwDigest,
    (inArray off 0x8200 0x10 16).bind (fun t => (finOf 16 t).map (fun t => .tier (.hostBase t))),
    (inArray off 0x8208 0x10 16).bind (fun t => (finOf 16 t).map (fun t => .tier (.hostSize t))),
    (inArray off 0x8300 8 16).map .hostFree,
    (inArray off 0x8400 8 16).bind (fun t => (finOf 16 t).map .seedScopes),
    (inArray off 0x8500 0x10 32).map .ghSlot,
    (inArray off 0x8508 0x10 32).map .ghSlotUse,
    (inArray off 0x8B00 8 32).map .dlEst]

/-- The register at a window offset (R415). -/
def regAt (off : Nat) : Option Reg :=
  if 0x10000 ≤ off then
    (finOf 17 (off / 0x10000 - 1)).bind (fun p => (pageReg (off % 0x10000)).map (.page p))
  else if 0x4000 ≤ off && off < 0x5000 then
    (finOf 4 ((off - 0x4000) / 0x400)).bind (fun i => (arbReg (off % 0x400)).map (.arb i))
  else firstOf [lowReg off, gcrReg off, arrReg off]

/-! ### Width and island -/

def PReg.wide : PReg → Bool
  | .sqBase | .cqBase | .errAddr | .urgReply _ _ | .urgLcc _ => true
  | _ => false

def AReg.wide : AReg → Bool
  | .windowPos | .holder | .grants _ | .wait _ => true
  | _ => false

/-- The register is 64 bits wide (R415). -/
def Reg.wide : Reg → Bool
  | .blCaps | .blStatus | .errAddr _ | .errLcc _ | .errAux _ | .errHead | .wdogStatus | .islandStatus | .wdogProgress | .gdnWdog
  | .retired | .coreFence _ | .thermLimit | .ballast | .thermEst | .thermLcc | .sampleStatus | .thermNode _ | .traceCfg | .traceRing
  | .freezeStatus | .freezeLcc | .tetherCtrl | .tetherStatus | .groupId | .memberIndex | .fwImgAddr | .fwStatus | .gdnAssign
  | .fwDigest _ | .tier _ | .ghSlot _ | .ghSlotUse _ | .ghEvent | .ledger _ | .dlActions | .dlEst _ => true
  | .arb _ r => r.wide
  | .page _ r => r.wide
  | _ => false

/-- The island that holds the register, in the order of ERR_SRC.ISLAND (R415). -/
def Reg.island : Reg → Nat
  | .arb i _ => arbIsland i.val
  | .pwrLimit | .thermLimit | .ballast | .thermEst | .thermLcc | .sensorFlags | .powerFlags | .sampleStatus | .droopSeen
  | .thermNode _ | .ledger _ | .cyclicStatus | .dlActions | .dlEst _ => 15
  | .traceCfg | .traceScope | .traceRing | .traceHead | .traceTail | .traceDropped | .spoolTailBad => 14
  | .tetherCtrl | .tetherStatus | .groupId | .memberIndex => 16
  | .coldCtrl | .coldFree | .hostFree _ | .tier _ | .plotPinned => 12
  | .seedScopes _ | .seedNodes | .seedCollide | .seedFull => 13
  | .ghSlot _ | .ghSlotUse _ | .ghEvent | .ghStatus | .page _ _ => 17
  | .prunerNan | .prunerStray | .prunerMalformed | .prunerSkip | .prunerWaves | .prunerJobs | .sampleTrunc | .sampleEmpty
  | .guessMissing | .guessBad => 11
  | .spoolHeld => 9
  | _ => 0

/-- What a window offset reaches: a register at its offset, or the high half of the 64-bit register below it. -/
def locate (off : Nat) : Option (Reg × Nat × Bool) :=
  match regAt off with
  | some r => some (r, off, false)
  | none => if off % 8 = 4 then (match regAt (off - 4) with
      | some r => if r.wide then some (r, off - 4, true) else none
      | none => none) else none

/-! ### What they read -/

/-- A word of an active or shadow map; entries beyond index 7 of a small instance read 0 (12 R331). -/
def Arb.word (a : Arb) (m : List (BitVec 5)) (j : Nat) : Nat := if a.inputs ≤ 4 * j then 0 else Arb.mapWord m j

/-- An arbiter register (12 R331). -/
def aregVal (i : Nat) (s : State) : AReg → Nat
  | .id => (s.arb i).inputs % 64 + fld i 6 2
  | .window => (s.arb i).window.toNat
  | .windowPos => (s.arb i).pos.toNat + fld (s.arb i).windows.toNat 32 32
  | .clear => 0
  | .commit => flg (s.arb i).reject 8
  | .holder => s.arbHolder i
  | .hint => flg (s.arb i).hintEn 0 + fld (s.arb i).hintLead.toNat 4 4
  | .hintBroken => (s.arb i).hintBroken.toNat
  | .depth => (s.arb i).depth.toNat
  | .full => (s.arb i).pendingFull
  | .masked => bitmap (s.arb i).inputs (fun k => (s.arb i).masked k)
  | .revokes => (s.arb i).revokes.toNat
  | .map j => (s.arb i).word (s.arb i).shadow j
  | .active j => (s.arb i).word (s.arb i).active j
  | .quota k => ((s.arb i).input k.val).quota.toNat
  | .longest k => ((s.arb i).input k).longest.toNat
  | .grants k => ((s.arb i).input k).grants.toNat
  | .wait k => ((s.arb i).input k).wait.toNat

/-- A page register of an open page. -/
def pregVal (p : Nat) (s : State) : PReg → Nat
  | .pageId => s.pageId p
  | .ringCtrl => (s.page p).ringCtrl
  | .sqBase => fld (s.page p).sqBase.toNat 12 52
  | .sqCfg => (s.page p).sqLog2.toNat
  | .sqTail => (s.page p).sqTail.toNat
  | .sqHead => (s.page p).sqHead.toNat
  | .cqBase => fld (s.page p).cqBase.toNat 12 52
  | .cqCfg => (s.page p).cqLog2.toNat
  | .cqHead => (s.page p).cqHead.toNat
  | .cqTail => (s.page p).cqTail.toNat + flg (s.page p).phase 16
  | .errAddr => (s.page p).errAddr.toNat
  | .errInfo => (s.page p).errInfo
  | .urgMsg u k => ((s.urg p u.val).msg >>> (32 * k.val)).toNat % 2 ^ 32
  | .urgGo _ => 0
  | .urgStat u => (s.urg p u.val).stat
  | .urgReply u k => match k with
    | 0 => (s.urg p u.val).reply0.toNat
    | 1 => (s.urg p u.val).reply1.toNat
    | 2 => (s.urg p u.val).reply2.toNat
  | .urgLcc u => (s.urg p u.val).lcc.toNat
  | .intCoal v => ((s.page p).vecs.getD v.val {}).word
  | .intStatus => (s.page p).cause.toNat

def State.err (s : State) (e : Nat) : ErrRec := s.elog.recs.getD e {}

/-- A cold-frame tier register (07 R200). -/
def tierVal (s : State) : TierReg → Nat
  | .poolBase => fld s.plots.poolBase.toNat 16 48
  | .poolSize => s.plots.poolSize.toNat
  | .hostBase t => fld ((mget t.val s.plots.hostBase).getD 0).toNat 16 48
  | .hostSize t => ((mget t.val s.plots.hostSize).getD 0).toNat

/-- What a register reads (R415, with the field tables it names). A closed page reads 0 but for PAGE_ID (03 R60). -/
def regVal (s : State) : Reg → Nat
  | .blId => 0xB103ADE5
  | .blRev => 0x00030000 + Config.stepping.toNat
  | .blCaps => 0x0ACC14CD3F1F9FF7
  | .blCtrl => s.blCtrl
  | .blStatus => s.blStatus
  | .lccLo => s.ctl.lcc.toNat % 2 ^ 32
  | .lccHi => s.ctl.lccLatch.toNat
  | .errAddr e => (s.err e).addr.toNat
  | .errSrc e => (s.err e).src.toNat
  | .errCode e => (s.err e).code.toNat
  | .errLcc e => (s.err e).lcc.toNat
  | .errAux e => (s.err e).aux.toNat
  | .errHead => s.elog.next.toNat + fld s.elog.total.toNat 32 32
  | .wdogLimit => s.wdog.limit.toNat
  | .wdogStatus => s.wdogStatus
  | .islandStatus => s.islandStatus
  | .islandResets => s.wdog.islandResets.toNat
  | .wdogProgress => s.wdog.progress.toNat
  | .gdnWdog => s.gdnWdog
  | .retired => s.retired
  | .coreFence w => s.coreFence w
  | .arb i r => aregVal i.val s r
  | .pwrLimit => s.pwr.module.toNat + fld s.pwr.stack.toNat 16 8
  | .thermLimit => s.pwr.die.toNat + fld s.pwr.stackT.toNat 16 12 + fld s.pwr.hyst.toNat 32 8
  | .ballast => s.ballast
  | .thermEst => s.thermEst
  | .thermLcc => s.pwr.lcc.toNat
  | .sensorFlags => s.sensorFlags
  | .powerFlags => s.powerFlags
  | .sampleStatus => s.sampleStatus
  | .droopSeen => s.pwr.droop.toNat
  | .thermNode i => s.thermNode i
  | .traceCfg => s.traceCfg
  | .traceScope => s.trc.tenants.toNat
  | .traceRing => fld s.trc.ring.toNat 12 52
  | .traceHead => s.trc.head.toNat
  | .traceTail => s.trc.tail.toNat
  | .traceDropped => s.trc.dropped.toNat
  | .freezeStatus => s.freezeStatus
  | .freezeLcc => s.ctl.freezeLcc.toNat
  | .tetherCtrl => s.tetherCtrl
  | .tetherStatus => s.tetherStatus
  | .groupId => s.groupId
  | .memberIndex => s.teth.index.toNat
  | .fwImgAddr => fld s.ctl.fwImgAddr.toNat 12 52
  | .fwCtrl => s.ctl.fwLen.toNat
  | .fwStatus => s.fwStatus
  | .gdnAssign => s.gdnAssign
  | .fwDigest j => s.ctl.fwDigest.toNat / 2 ^ (64 * j) % 2 ^ 64
  | .coldCtrl => s.coldCtrl
  | .coldFree => s.tierFree .pool
  | .hostFree t => s.tierFree (.host t)
  | .tier r => tierVal s r
  | .seedScopes t => ((mget t.val s.seed.scopes).getD 0).toNat
  | .seedNodes => s.seed.nodes.length
  | .seedCollide => s.seed.collide.toNat
  | .seedFull => s.seed.full.toNat
  | .plotPinned => s.plotPinned
  | .ghSlot m => s.ghSlot m
  | .ghSlotUse m => (s.slot m).lastUse.toNat
  | .ghEvent => (s.gh.events.headD 0).toNat
  | .ghStatus => s.ghStatus
  | .prunerNan => s.prn.nan.toNat
  | .prunerStray => s.prn.stray.toNat
  | .prunerMalformed => s.prn.malformed.toNat
  | .prunerSkip => s.prn.skip.toNat
  | .prunerWaves => s.sow.waves.toNat
  | .prunerJobs => s.prunerJobs
  | .sampleTrunc => s.prn.trunc.toNat
  | .sampleEmpty => s.prn.empty.toNat
  | .guessMissing => s.prn.guessMissing.toNat
  | .guessBad => s.prn.guessBad.toNat
  | .spoolTailBad => s.prn.tailBad.toNat
  | .spoolHeld => s.spoolHeld
  | .ledger k => match k with
    | 0 => s.led.unattr.toNat
    | 1 => s.led.discNs.toNat
    | 2 => s.led.discNj.toNat
    | 3 => s.led.overhead.toNat
  | .cyclicStatus => s.cyclicStatus
  | .dlActions => s.dlActions
  | .dlEst m => s.dlEst m
  | .page p r => if (s.page p.val).isOpen || r = .pageId then pregVal p.val s r else 0

/-! ### What a read clears (00 R10, 17 R424) -/

/-- Clear the RC fields of the halves read. -/
def regClear (lo hi : Bool) (s : State) : Reg → State
  | .wdogStatus => if hi then onWdog (fun w => { w with bites := 0 }) s else s
  | .islandResets => if lo then onWdog (fun w => { w with islandResets := 0 }) s else s
  | .gdnWdog => if hi then onWdog (fun w => { w with gdnRestarts := 0 }) s else s
  | .arb i .hintBroken => if lo then onArb i.val (fun a => { a with hintBroken := 0 }) s else s
  | .arb i .revokes => if lo then onArb i.val (fun a => { a with revokes := 0 }) s else s
  | .sampleStatus => if hi then onPwr (fun w => { w with missed := 0 }) s else s
  | .droopSeen => if lo then onPwr (fun w => { w with droop := 0 }) s else s
  | .traceDropped => if lo then { s with trc := { s.trc with dropped := 0 } } else s
  | .freezeStatus => if hi then onCtl (fun c => { c with droppedWrites := 0 }) s else s
  | .tetherStatus => if hi then onTeth (fun t => { t with crcErrors := 0, resends := 0 }) s else s
  | .seedCollide => if lo then onSeed (fun d => { d with collide := 0 }) s else s
  | .seedFull => if lo then onSeed (fun d => { d with full := 0 }) s else s
  | .ghEvent => if lo then { s with gh := { s.gh with events := s.gh.events.drop 1 } } else s
  | .prunerNan => if lo then onPrn (fun q => { q with nan := 0 }) s else s
  | .prunerStray => if lo then onPrn (fun q => { q with stray := 0 }) s else s
  | .prunerMalformed => if lo then onPrn (fun q => { q with malformed := 0 }) s else s
  | .prunerSkip => if lo then onPrn (fun q => { q with skip := 0 }) s else s
  | .sampleTrunc => if lo then onPrn (fun q => { q with trunc := 0 }) s else s
  | .sampleEmpty => if lo then onPrn (fun q => { q with empty := 0 }) s else s
  | .guessMissing => if lo then onPrn (fun q => { q with guessMissing := 0 }) s else s
  | .guessBad => if lo then onPrn (fun q => { q with guessBad := 0 }) s else s
  | .spoolTailBad => if lo then onPrn (fun q => { q with tailBad := 0 }) s else s
  | .dlActions => satLed (fun l =>
      { l with
        warns := if lo then 0 else l.warns
        fallbacks := if lo then 0 else l.fallbacks
        aborts := if hi then 0 else l.aborts
        fbFails := if hi then 0 else l.fbFails }) s
  | .page p .errInfo => if lo && (s.page p.val).isOpen then s.onPage p.val (fun g => { g with errCount := 0 }) else s
  | _ => s

/-! ### What a write does -/

/-- BL_CTRL while the block runs (16 R398), bit by bit from the lowest. -/
def blCtrlRun (v : U32) (s : State) : State :=
  let s := if v.getLsbD 0 then blockReset s else s
  let s := if v.getLsbD 1 then (if s.noDormant then regRefused 0x18 0 s else sleep s)
    else if s.ctl.dormant then wake s else s
  let s := if v.getLsbD 2 then resumeSteps s else s
  if v.getLsbD 3 then freezeCtrl s else s

/-- BL_CTRL while the block is frozen (18 R440): actions are latched, and FREEZE acts last. -/
def blCtrlFrozen (v : U32) (s : State) : State :=
  let s := if v.getLsbD 0 then onCtl (fun c => { c with latchReset := true }) s else s
  let s := if v.getLsbD 1 then (if s.noDormant then regRefused 0x18 0 s
      else onCtl (fun c => { c with latchSleep := true, dormant := true }) s)
    else if s.ctl.dormant then onCtl (fun c =>
      { c with latchSleep := false, latchWake := !c.latchSleep, dormant := false }) s
    else s
  let s := if v.getLsbD 2 then resumeSteps s else s
  if v.getLsbD 3 then freezeCtrl s else thawCtrl s

def setBlCtrl (v : U32) (s : State) : State := if s.freezing then blCtrlFrozen v s else blCtrlRun v s

/-- WDOG_LIMIT (15 R396). -/
def setWdogLimit (v : U32) (s : State) : State :=
  if v.toNat < 10000 || 10000000 < v.toNat then regRefused 0x3000 0 s else onWdog (fun w => { w with limit := v }) s

/-- TRACE_TAIL (17 R421). -/
def setTraceTail (v : U32) (s : State) : State :=
  let t := s.trc
  if (t.head - v).toNat ≤ (t.head - t.tail).toNat then { s with trc := { t with tail := v } } else regRefused 0x6020 14 s

/-- TETHER_CTRL (13 R354, R355). Enabling the leader's port starts the roll call that forms the group (13 R351). -/
def setTetherCtrl (v : U64) (s : State) : State :=
  let t := s.teth
  let loss := v.extractLsb' 8 16
  let s := onTeth (fun t =>
    { t with
      lossUs := if loss = 0 then t.lossUs else loss
      holdLimit := v.extractLsb' 24 8
      model := v.extractLsb' 32 5 }) s
  if v.getLsbD 0 then
    if t.en then s
    else if t.sizeM1.toNat < t.index.toNat || t.sizeM1.toNat < t.sampler.toNat then regRefused 0x7000 16 s
    else
      tetherOn (onTeth (fun t => { t with en := true }) s)
  else
    onTeth (fun t =>
      { t with
        en := false
        lock := false
        formed := false
        held := false
        ours := false
        own := [] }) { s with out := { s.out with tetherEn := false } }

/-- GROUP_ID and MEMBER_INDEX (13 R355). -/
def setGroup (r : GroupReg) (v : U64) (s : State) : State :=
  let off := match r with | .groupId => 0x7010 | .memberIndex => 0x7018
  if s.teth.en then regRefused off 16 s else
    match r with
    | .groupId => onTeth (fun t =>
        { t with
          id := v.extractLsb' 0 16
          sizeM1 := v.extractLsb' 16 10
          sampler := v.extractLsb' 32 10 }) s
    | .memberIndex => onTeth (fun t => { t with index := v.extractLsb' 0 10 }) s

/-- The tier of a register is disabled and empty (07 R200). -/
def State.tierIdle (s : State) (r : TierReg) : Bool :=
  let t : Tier := match r with | .poolBase | .poolSize => .pool | .hostBase t | .hostSize t => .host t.val
  let en := match t with | .pool => s.plots.poolEn | .host _ => s.plots.hostEn
  !en && s.tierFree t = s.tierSize t

/-- Window offset of a tier register. -/
def tierOff : TierReg → Nat
  | .poolBase => 0x8108
  | .poolSize => 0x8110
  | .hostBase t => 0x8200 + 0x10 * t.val
  | .hostSize t => 0x8208 + 0x10 * t.val

/-- COLD_POOL_BASE, COLD_POOL_SIZE, COLD_HOST_BASE and COLD_HOST_SIZE (07 R200). -/
def setTier (r : TierReg) (v : U64) (s : State) : State :=
  if !s.tierIdle r then regRefused (tierOff r) 12 s else
    let base := v.extractLsb' 16 48
    let size := v.extractLsb' 0 32
    { s with plots := match r with
      | .poolBase => { s.plots with poolBase := base }
      | .poolSize => { s.plots with poolSize := size }
      | .hostBase t => { s.plots with hostBase := mput t.val base s.plots.hostBase }
      | .hostSize t => { s.plots with hostSize := mput t.val size s.plots.hostSize } }

def setCold (v : U32) (s : State) : State := { s with plots := { s.plots with poolEn := v.getLsbD 0, hostEn := v.getLsbD 1 } }

def setScopes (t : Nat) (v : U32) (s : State) : State := onSeed (fun d => { d with scopes := mput t v d.scopes }) s

/-- An arbiter register (12 R318 to R329). -/
def setAreg (i : Nat) (v : U64) (s : State) : AReg → State
  | .window => setWindow i v.toNat s
  | .clear => if v.getLsbD 0 then arbClear i s else s
  | .commit =>
    let s := if v.getLsbD 8 then onArb i (fun a => { a with reject := false }) s else s
    if v.getLsbD 0 then prioCommit i s else s
  | .hint => setHint i v.toNat s
  | .depth => setDepth i v.toNat s
  | .map j => if (s.arb i).inputs ≤ 4 * j then s else setMap i j v.toNat s
  | .quota k => setQuota i k.val v.toNat s
  | _ => s

/-- A register of an open page. -/
def setPreg (p : Fin 17) (v : U64) (s : State) : PReg → State
  | .ringCtrl => setRingCtrl p.val (v.setWidth 32) s
  | .sqBase => setRingCfg p.val .sqBase v s
  | .sqCfg => setRingCfg p.val .sqCfg v s
  | .sqTail => setSqTail p.val (v.setWidth 32) s
  | .cqBase => setRingCfg p.val .cqBase v s
  | .cqCfg => setRingCfg p.val .cqCfg v s
  | .cqHead => setCqHead p.val (v.setWidth 32) s
  | .errInfo => setErrInfo p.val (v.setWidth 32) s
  | .urgMsg u k => setUrgMsg p.val u.val k.val (v.setWidth 32) s
  | .urgGo u => setUrgGo p u (v.setWidth 32) s
  | .urgStat u => setUrgStat p.val u.val (v.setWidth 32) s
  | .intCoal k => setIntCoal p.val k.val (v.setWidth 32) s
  | .intStatus => setIntStatus p.val (v.setWidth 32) s
  | _ => s

/-- Page offset of a register, as errors give it. -/
def pageOff (off : Nat) : Nat := off % 0x10000

/-- A write of a whole register; a page is open. RO fields ignore it (00 R10). -/
def regWrite (v : U64) (s : State) : Reg → State
  | .blCtrl => setBlCtrl (v.setWidth 32) s
  | .wdogLimit => setWdogLimit (v.setWidth 32) s
  | .wdogStatus => onWdog (fun w => { w with bitten := w.bitten && !v.getLsbD 1 }) s
  | .islandStatus => onWdog (fun w => { w with resetSeen := w.resetSeen &&& ~~~(v.extractLsb' 32 18) }) s
  | .arb i r => setAreg i.val v s r
  | .pwrLimit => setPwr (v.setWidth 32) s
  | .thermLimit => setTherm v s
  | .traceTail => setTraceTail (v.setWidth 32) s
  | .tetherCtrl => setTetherCtrl v s
  | .tetherStatus => onTeth (fun t => { t with brk := t.brk && !v.getLsbD 3 }) s
  | .groupId => setGroup .groupId v s
  | .memberIndex => setGroup .memberIndex v s
  | .fwImgAddr => onCtl (fun c => { c with fwImgAddr := v.extractLsb' 12 52 }) s
  | .fwCtrl => fwCtrl (v.setWidth 32) s
  | .coldCtrl => setCold (v.setWidth 32) s
  | .tier r => setTier r v s
  | .seedScopes t => setScopes t.val (v.setWidth 32) s
  | .ghStatus => { s with gh := { s.gh with ovf := s.gh.ovf && !v.getLsbD 7 } }
  | .page p r => setPreg p v s r
  | _ => s

/-! ### Halves of 64-bit registers (R423, R425) -/

/-- The five paired registers (R425). -/
def Reg.paired : Reg → Bool
  | .page _ .sqBase | .page _ .cqBase | .tier .poolBase | .tier (.hostBase _) | .fwImgAddr => true
  | _ => false

/-- The register has a field that software writes in its high half. -/
def Reg.highField : Reg → Bool
  | .thermLimit | .tetherCtrl | .groupId | .islandStatus => true
  | r => r.paired

/-- What a half write leaves in the other half: the current fields, and 0 in the registers whose bits clear by writing 1. -/
def otherHalf (s : State) (hi : Bool) (r : Reg) : Nat :=
  match r with
  | .wdogStatus | .islandStatus | .tetherStatus => 0
  | _ => if hi then regVal s r % 2 ^ 32 else regVal s r / 2 ^ 32 * 2 ^ 32

/-- A 32-bit write of half a 64-bit register that is not paired. -/
def halfWrite (hi : Bool) (v : U32) (r : Reg) (s : State) : State :=
  if hi && !r.highField then s
  else regWrite (BitVec.ofNat 64 (otherHalf s hi r + (if hi then v.toNat * 2 ^ 32 else v.toNat))) s r

/-! ### Accesses of the register port (R423 to R429) -/

/-- Window offset of a function's access: a VF sees its page at 0 (01 R22). -/
def absOff (fn : Fin 17) (off : Nat) : Nat := if fn.val = 16 then off else 0x10000 * (fn.val + 1) + off

/-- The offset lies in the function's BAR (01 R22). -/
def inBar (fn : Fin 17) (off : Nat) : Bool := off < (if fn.val = 16 then 0x200000 else 0x10000)

/-- The mailbox page that a window offset lies in. -/
def pageAt (off : Nat) : Option Nat := if 0x10000 ≤ off && off < 0x120000 then some (off / 0x10000 - 1) else none

/-- A register that the freeze responder answers (R429). -/
def Reg.answered : Reg → Bool
  | .blId | .blRev | .blCaps | .blCtrl | .blStatus | .lccLo | .lccHi | .freezeStatus | .freezeLcc => true
  | _ => false

/-- What a read finds: while the block is frozen only the registers that the freeze responder answers. -/
def State.portVal (s : State) (r : Reg) : Nat := if s.freezing && !r.answered then 0 else regVal s r

def State.portClear (s : State) (lo hi : Bool) (r : Reg) : State := if s.freezing && !r.answered then s else regClear lo hi s r

def setPort (f : Port → Port) (s : State) : State := { s with port := f s.port }

/-- The value that a read returns. -/
def answer (v : Nat) (s : State) : State := setPort (fun q => { q with lastRead := BitVec.ofNat 64 v }) s

/-- A 32-bit read of a whole 32-bit register; LCC_LO latches the high half of the LCC (03 R79). -/
def readWord (r : Reg) (s : State) : Nat × State :=
  let v := s.portVal r
  let s := s.portClear true true r
  (v, if r = .lccLo then onCtl (fun c => { c with lccLatch := BitVec.ofNat 32 (c.lcc.toNat / 2 ^ 32) }) s else s)

/-- A 32-bit read at a window offset (R424). -/
def read32 (fn : Nat) (off : Nat) (s : State) : State :=
  let latch := mget fn s.port.latch
  let s := setPort (fun q => { q with latch := mdel fn q.latch }) s
  match locate off with
  | none => answer 0 s
  | some (r, base, hi) =>
    if !r.wide then
      let (v, s) := readWord r s
      answer v s
    else if hi then
      if s.freezing && !r.answered then answer 0 s else
      match latch with
      | some (b, w) => if b = base then answer w.toNat s else answer (s.portVal r / 2 ^ 32) (s.portClear false true r)
      | none => answer (s.portVal r / 2 ^ 32) (s.portClear false true r)
    else
      let v := s.portVal r
      let s := s.portClear true true r
      answer (v % 2 ^ 32) (setPort (fun q => { q with latch := mput fn (base, BitVec.ofNat 32 (v / 2 ^ 32)) q.latch }) s)

/-- A 64-bit read at a window offset (R423): a 64-bit register whole, or two 32-bit registers, the lower first. -/
def read64 (fn : Nat) (off : Nat) (s : State) : State :=
  let s := setPort (fun q => { q with latch := mdel fn q.latch }) s
  match regAt off with
  | some r =>
    if r.wide then answer (s.portVal r) (s.portClear true true r)
    else
      let (v, s) := readWord r s
      match regAt (off + 4) with
      | some r' =>
        let (w, s) := readWord r' s
        answer (v + w * 2 ^ 32) s
      | none => answer v s
  | none => answer 0 s

/-- An offset that no register holds: recorded on its page, or in the error log (R415, 03 R59, R60). -/
def unlisted (off : Nat) (s : State) : State :=
  match pageAt off with
  | some p => pageError p (if (s.page p).isOpen then 0x02 else 0x08) (pageOff off) s
  | none => regRefused off 17 s

/-- An access outside R8: a read returns 0; either is recorded, on its page or in the error log (00 R8, 03 R60). -/
def refusedAccess (write : Bool) (off : Nat) (s : State) : State :=
  let s := match pageAt off with
    | some p => pageError p 0x02 (pageOff off) s
    | none => regRefused off 17 s
  if write then s else answer 0 s

/-- A 32-bit write at a window offset that is not held (R423, R425). `low` is the low half held for this register. -/
def write32 (fn : Nat) (off : Nat) (v : U32) (low : Option (Nat × U32)) (s : State) : State :=
  match locate off with
  | none => unlisted off s
  | some (r, base, hi) =>
    if !r.wide then regWrite (v.setWidth 64) s r
    else if !r.paired then halfWrite hi v r s
    else if hi then
      let l := match low with | some (b, w) => if b = base then w.toNat else regVal s r % 2 ^ 32 | none => regVal s r % 2 ^ 32
      regWrite (BitVec.ofNat 64 (v.toNat * 2 ^ 32 + l)) s r
    else setPort (fun q => { q with held := mput fn (base, v) q.held }) s

/-- URG_MSG of a busy slot: one access, of whatever width, is one error (03 R72). -/
def State.urgBusy (s : State) : Reg → Bool
  | .page p (.urgMsg u _) => (s.urg p.val u.val).busy
  | _ => false

/-- A write to a closed page: one record for the access, none for PAGE_ID (03 R60). -/
def closedWrite (p off : Nat) (s : State) : State := if pageOff off = 0 then s else pageError p 0x08 (pageOff off) s

/-- The closed page that an offset lies in. -/
def State.closedAt (s : State) (off : Nat) : Option Nat :=
  match pageAt off with
  | some p => if (s.page p).isOpen then none else some p
  | none => none

/-- A write at a window offset (R423, R425), with the low half that its function held: a 64-bit write of two 32-bit registers acts as two,
the lower first; bits that fall on no register beyond the first are ignored. -/
def writeWith (fn : Nat) (off : Nat) (wide : Bool) (v : U64) (low : Option (Nat × U32)) (s : State) : State :=
  match s.closedAt off with
  | some p => closedWrite p off s
  | none =>
  if !wide then write32 fn off (v.setWidth 32) low s
  else match regAt off with
    | some r =>
      if r.wide then regWrite v s r
      else if s.urgBusy r then regWrite v s r
      else
        let s := regWrite (v &&& 0xFFFFFFFF) s r
        match regAt (off + 4) with
        | some r' => regWrite (v >>> 32) s r'
        | none => s
    | none => unlisted off s

/-- A write that reaches its register at once. Any write discards the half that the function's last write left held (R425). -/
def writeNow (fn : Nat) (off : Nat) (wide : Bool) (v : U64) (s : State) : State :=
  writeWith fn off wide v (mget fn s.port.held) (discardLow fn s)

/-- The island that a window offset belongs to; unlisted offsets belong to none that can be reset. -/
def islandAt (off : Nat) : Nat := match locate off with | some (r, _, _) => r.island | none => 17

/-- Writes dropped while frozen are counted (R429). -/
def dropWrites (n : Nat) (s : State) : State := onCtl (fun c => { c with droppedWrites := satAdd c.droppedWrites n }) s

/-- A write while the block is frozen (R429): BL_CTRL takes effect, the doorbells are latched, the rest is dropped and counted. A 64-bit
write of two 32-bit registers is two writes (R423). -/
def writeFrozen (off : Nat) (wide : Bool) (v : U64) (s : State) : State :=
  let upper := b2n (wide && (regAt (off + 4)).isSome)
  match regAt off with
  | some .blCtrl => setBlCtrl (v.setWidth 32) (dropWrites upper s)
  | some (.page p .sqTail) => dropWrites upper (onCtl (fun c => { c with bellTail := mput p.val (v.setWidth 32) c.bellTail }) s)
  | some (.page p .cqHead) => dropWrites upper (onCtl (fun c => { c with bellHead := mput p.val (v.setWidth 32) c.bellHead }) s)
  | some (.page _ (.urgMsg _ _)) => dropWrites 1 s
  | _ => dropWrites (1 + upper) s

/-- The write is the low half of a paired register, which the port holds (R425). -/
def isLowHalf (off : Nat) (wide : Bool) : Bool :=
  match locate off with
  | some (r, _, hi) => !wide && r.wide && r.paired && !hi
  | none => false

/-- A write for an island that is resetting waits, behind at most 63 others for it (R428). A low half of a paired register is held at the
port (R425). -/
def writeHeld (fn : Fin 17) (off : Nat) (wide : Bool) (v : U64) (s : State) : State :=
  if isLowHalf off wide then writeNow fn.val off wide v s
  else
    let w : RegWr := ⟨fn, off, wide, v, mget fn.val s.port.held, islandAt off⟩
    let s := discardLow fn.val s
    if (s.wdog.heldWrites.filter (fun x => x.island = islandAt off)).length < 64 then
      onWdog (fun d => { d with heldWrites := d.heldWrites ++ [w] }) s
    else regRefused off 17 s

/-- A write by a function at an offset of its BAR. -/
def portWrite (fn : Fin 17) (off : Nat) (wide : Bool) (v : U64) (s : State) : State :=
  let a := absOff fn off
  if s.freezing then writeFrozen a wide v (discardLow fn.val s)
  else if s.wdog.resetting.getLsbD (islandAt a) then writeHeld fn a wide v s
  else writeNow fn.val a wide v s

/-- A read by a function at an offset of its BAR. -/
def portRead (fn : Fin 17) (off : Nat) (wide : Bool) (s : State) : State :=
  if wide then read64 fn.val (absOff fn off) s else read32 fn.val (absOff fn off) s

/-- An access of any size and alignment (00 R8). While frozen a bad read returns 0 and a bad write is dropped. -/
def portAccess (fn : Fin 17) (off bits : Nat) (write : Bool) (v : U64) (s : State) : State :=
  if (bits = 32 && off % 4 = 0) || (bits = 64 && off % 8 = 0) then
    if write then portWrite fn off (bits = 64) v s else portRead fn off (bits = 64) s
  else
    let s := if write then discardLow fn.val s else setPort (fun q => { q with latch := mdel fn.val q.latch }) s
    if s.freezing then (if write then dropWrites 1 s else answer 0 s) else refusedAccess write (absOff fn off) s

/-! ### Command forms -/

/-- The islands that a write is an event of: a page register's gardener core serves it too (16 R408). -/
def State.writeIslands (s : State) (off : Nat) : List Nat :=
  match pageAt off with
  | some p => s.pageIslands p
  | none => [islandAt off]

/-- A register read as a command, an event of the island that holds the register. -/
def readCmd (fn : Fin 17) (off bits : Nat) (s : State) : Host.Outcome State Fault Refusal :=
  live [islandAt (absOff fn off)] s (fun s => if inBar fn off then portAccess fn off bits false 0 s else s)

/-- A register write as a command: messages may be fetched after it. -/
def writeCmd (fn : Fin 17) (off bits : Nat) (v : U64) (s : State) : Host.Outcome State Fault Refusal :=
  liveSettle (s.writeIslands (absOff fn off)) s (fun s => if inBar fn off then portAccess fn off bits true v s else s)

/-- Offset of a page register in the window of the function behind an aperture. -/
def aptOff (a : Apt) (off : Nat) : Nat := match a with | .pf p => 0x10000 * (p.val + 1) + off | .vf _ => off

/-! ### Read-out (18 R441; 01 R30) -/

/-- The registers of an island with their window offsets, as they read. -/
def State.islandRegs (s : State) (i : Nat) : List (Nat × Nat) :=
  let at_ (off : Nat) : Option (Nat × Nat) := match regAt off with
    | some r => if r.island = i then some (off, regVal s r) else none
    | none => none
  (List.range (0x8C00 / 4)).filterMap (fun k => at_ (4 * k))
    ++ (if i = 17 then (List.range 17).flatMap (fun p => (List.range (0x644 / 4)).filterMap (fun k => at_ (0x10000 * (p + 1) + 4 * k))) else [])

/-- A Trellis row as the SRAM holds it: the Sower's fields as of the last composition, the plot keeper's and the Ledger's as they stand
(05 R111, R113). -/
def State.rowBytes (s : State) (x : Nat × Row) : Nat × List Nat :=
  match s.reqH x.2.handle with
  | some r =>
    let q := r.spent
    (x.1, x.2.bytes (128 * r.table.length - 1) r.tableRoot [q.budTime, q.budBytes, q.budEnergy] r.rowCtr)
  | none => (x.1, x.2.bytes 0 0 [] {})

/-- Reads that the block has issued and that have not returned: of prompts, of tokens and of bias lists, and of the TAIL of spools (02 R40,
04 R95, R96; 10 R279). -/
def State.readsOut (s : State) : List HostRd :=
  ((s.reqs.map (fun e => e.2)).filter (fun r => !r.copied)).flatMap s.promptReads
    ++ (List.range 17).flatMap (fun p => (s.page p).started.flatMap (fun x => match x.wait with
      | .extend h f => s.extendReads h f
      | .bias f => s.biasReads p f
      | _ => []))
    ++ s.tails.filterMap (fun e => (s.spool e.1 e.2).map (fun sp => HostRd.mk (.host (s.pasidOf e.1)) (sp.hdrAddr + 32) 4))

/-- The SRAM of an island in the order of ERR_SRC.ISLAND. A gardener core's holds its instruction sections; its data SRAM and registers are the
firmware's (log entry 2). -/
def State.sram (s : State) (i : Nat) : Sram :=
  match i with
  | 0 => .aon s.ctl s.wdog s.elog
  | 9 => .sower (s.sow.trellis.map s.rowBytes) s.sow.laid s.sow.step
  | 10 => .disp s.disp
  | 11 => .prune s.prn.rows s.prn.lanes
  | 12 => .plot (s.arb 1)
  | 13 => .seed (s.arb 3) s.seed.cache
  | 14 => .egr (s.arb 0) (s.reqs.map (fun e => (e.1, e.2.spoolBuf))) s.trc.bufs
  | 15 => .ledg s.led s.pwr
  | 16 => .teth s.teth
  | 17 => .nocb s.pages s.readsOut
  | i => if s.ctl.gdnClear then .gdn [] 0
    else .gdn ((s.ctl.fwTexts.filter (fun e => e.1 + 1 = i)).map (fun e => e.2)) (Config.freeNat s.free)

/-- DEBUG_READOUT: an instrument of a frozen block reads its island; of any other it shifts out zeros. It changes no state: what it
returns is recorded at the port. -/
def readOut (i : Nat) (s : State) : State :=
  let x : ReadOut := if s.ctl.frozen then ⟨i, s.islandRegs i, s.sram i⟩ else ⟨i, [], .zeros⟩
  { s with out := { s.out with readout := s.out.readout ++ [x] }, free := s.free + 1 }

/-- DEBUG_REVOKE with what the debug network wants of the port (12 R323; 18 R442): it changes nothing beyond its grant. -/
def debugUse (inst beats : Nat) (ask : DebugAsk) (s : State) : State :=
  let s := debugRevoke inst beats s
  let seen : Option DebugOut := match inst, ask with
    | 1, .entry slot j => some (.entry ((s.tab slot).bind (fun t => t.table[j]?)))
    | 1, .refcount p => some (.refcount (s.refOf p))
    | 3, .node n => some (.node (mget n s.seed.nodes))
    | 2, .lane k => some (.lane ((s.prn.rows.filter (fun p => p.lane = k.val)).map (fun p => (p.row, p.pos.map (fun x => x.list)))))
    | 0, .copy i a => some (.copy a (s.sram i.val))
    | _, _ => none
  match seen with
  | some x => if (s.arb inst).holder = some (s.arb inst).debug then { s with out := { s.out with debug := s.out.debug ++ [x] } } else s
  | none => s

/-! ### The end of an island reset (R428, 15 R381) -/

/-- ISLAND_RESET_DONE: the writes held for the island are applied in arrival order. -/
def islandBack (i : Nat) (s : State) : State :=
  if !s.wdog.resetting.getLsbD i then s else
    let mine := s.wdog.heldWrites.filter (fun w => w.island = i)
    let s := onWdog (fun w =>
      { w with
        resetting := w.resetting &&& ~~~(BitVec.ofNat 18 (2 ^ i))
        heldWrites := w.heldWrites.filter (fun x => x.island ≠ i) }) s
    each mine (fun w s => writeWith w.fn.val w.off w.wide w.v w.low s) s

end Sys2Proof.Machine
end

