-- ==== Sys2Proof/Machine/CmdEvents.lean ====
section
/-! DEFINITION. The commands that are events: resets, reports from outside, Tether frames, timed events, the parts of a step
and the completions of the block's own work. -/

namespace Sys2Proof.Machine

/-! ### The islands that an event concerns (16 R408, 18 R431) -/

def gdnIslands : List Nat := [1, 2, 3, 4, 5, 6, 7, 8]

def poisonIslands (p : Poison) (s : State) : List Nat :=
  match p.place with
  | .weights _ _ | .graft _ _ _ | .kernelTable _ => [1, 17]
  | .plot _ h | .plotTable h _ => 12 :: s.pageIslands (hTenant h)
  | .descriptor _ => gdnIslands
  | .tokenLog h _ | .overflow h _ => s.pageIslands (hTenant h)
  | .node _ | .footer _ => [13]
  | .argBlock _ | .saveArea _ _ => [10, 17]
  | .profileCopy t _ => s.pageIslands t.val
  | .selectRead p _ _ => 11 :: s.pageIslands p.val

def refusedIslands (r : Refused) (s : State) : List Nat :=
  match r with
  | .ring p _ | .bias p _ _ => s.pageIslands p.val
  | .prompt h _ | .extend h _ => s.pageIslands (hTenant h)
  | .spool _ _ _ => [14, 17]
  | .spill _ _ _ _ | .restore _ _ _ _ | .table _ _ _ _ => [12, 17]
  | .select p _ _ _ => 11 :: s.pageIslands p.val
  | .load _ _ _ _ | .graftLoad _ _ _ _ _ => [1, 17]
  | .trace _ => [14, 17]

def sramIslands (a : SramAt) : List Nat :=
  match a with
  | .row _ => [9]
  | .nodeCache => [13]
  | .gardener c => [c.val + 1]
  | .other i _ => [i.val]

/-- The islands that NoC traffic into the block concerns. -/
def trafficIslands (c : Instr) (s : State) : List Nat :=
  match c with
  | .poisonIndication p => poisonIslands p s
  | .hostAccessRefused r => refusedIslands r s
  | .atomicWrite _ _ _ _ _ => [17]
  | .coreFault _ => [10]
  | .spoolTailRead _ _ _ => [14, 17]
  | .argumentBlockAck _ => [9, 10, 14]
  | .workItemComplete _ _ => [10, 15, 17]
  | .stackItemComplete _ _ _ _ => [9, 15, 17]
  | .collectiveComplete => [9, 15, 16]
  | .tileBoundaryPark _ | .swapSaveDone _ | .contextRearm _ _ | .teardownEnd _ _ _ | .joiningCoreRestoreDone _ => [10, 17]
  | .partialList _ | .guessRecord _ => [11, 17]
  | .promptCopied handle _ => s.pageIslands (hTenant handle)
  | .extendTokensCopied handle _ => s.pageIslands (hTenant handle)
  | .biasListCopied page _ _ => s.pageIslands page.val
  | .spillMoveDone _ _ | .restoreMoveDone _ _ _ => [12, 17]
  | .modelLoadDone _ _ | .graftLoadDone _ _ _ | .reloadDone _ _ => [1, 17]
  | .selectDone page _ _ => 11 :: s.pageIslands page.val
  | _ => []

/-! ### Wrappers -/

/-- NoC traffic into the block: held while the block is frozen (18 R439), else taken; messages may be fetched after it. -/
def inboundSettle (c : Instr) (s : State) : Host.Outcome State Fault Refusal :=
  live (trafficIslands c s) s (fun s => if s.freezing then { s with nocHeld := s.nocHeld ++ [c] } else settle (nocTake c s))

/-- An event of the Tether port: it happens while the port runs, also on a stalled member (13 R354, 15 R374). -/
def onRing (s : State) (op : State → State) : Host.Outcome State Fault Refusal :=
  live [16] s (fun s => if s.freezing || s.ctl.phase ≠ .ready then s else settle (op s))

/-! ### Resets, power and the debug network (16, 14, 18) -/

def execColdReset (s : State) : Host.Outcome State Fault Refusal := .next (coldReset s)

def execSupplySag (s : State) : Host.Outcome State Fault Refusal := live [] s supplySag

def execDroop (island : Fin 18) (s : State) : Host.Outcome State Fault Refusal := live [15, island.val] s (droop island.val)

/-- POWER_SAMPLE: samples are dropped while the block is frozen (18 R439) or without power for LEDG (16 R409). -/
def execPowerSample (p : Sample) (s : State) : Host.Outcome State Fault Refusal :=
  live [15] s (fun s => if s.freezing || s.ctl.phase = .dormant then s else powerSample p s)

def execFreezeSignal (s : State) : Host.Outcome State Fault Refusal := live [] s freezeDebug

def execFreezeSignalClear (s : State) : Host.Outcome State Fault Refusal := liveSettle [] s thawDebug

def execFreezeDone (s : State) : Host.Outcome State Fault Refusal := live [] s freezeDone

def execDebugReadout (island : Fin 18) (s : State) : Host.Outcome State Fault Refusal := liveQuiet s (readOut island.val)

/-! ### Reports (01, 06, 15) -/

def execPoisonIndication (p : Poison) (s : State) : Host.Outcome State Fault Refusal := inboundSettle (.poisonIndication p) s

def execHostAccessRefused (r : Refused) (s : State) : Host.Outcome State Fault Refusal := inboundSettle (.hostAccessRefused r) s

def execAtomicWrite (addr : U64) (core : Bool) (unit : Nat) (bed : Fin 32) (ctx : Fin 4) (s : State) :
    Host.Outcome State Fault Refusal :=
  inboundSettle (.atomicWrite addr core unit bed ctx) s

def execCoreFault (f : CoreFault) (s : State) : Host.Outcome State Fault Refusal := inboundSettle (.coreFault f) s

def execSramUe (a : SramAt) (s : State) : Host.Outcome State Fault Refusal := ownLogged (sramIslands a) s (fun s => settle (sramUe a s))

/-! ### The Tether ring (13) -/

def execLockLost (s : State) : Host.Outcome State Fault Refusal := onRing s lockLost

def execLockRegained (s : State) : Host.Outcome State Fault Refusal := onRing s lockRegained

def execRollcall (m : FrameMeta) (modelId : U64) (present intact : List Nat) (s : State) : Host.Outcome State Fault Refusal :=
  onRing s (rollcallIn m modelId present intact)

def execManifest (m : FrameMeta) (es : List ManEntry) (s : State) : Host.Outcome State Fault Refusal :=
  onRing s (frameIn (.manifest m es) (manifestIn m es))

def execStepToken (m : FrameMeta) (es : List TokenE) (s : State) : Host.Outcome State Fault Refusal :=
  onRing s (frameIn (.stepToken m es) (stepTokenIn m es))

def execTokens (m : FrameMeta) (es : List CommitE) (s : State) : Host.Outcome State Fault Refusal :=
  onRing s (frameIn (.tokens m es) (tokensIn m es))

def execStatus (m : FrameMeta) (e : StatusE) (s : State) : Host.Outcome State Fault Refusal :=
  onRing s (frameIn (.status m e) (statusIn m e))

def execSlow (m : FrameMeta) (hot : BitVec 12) (ballast : BitVec 4) (s : State) : Host.Outcome State Fault Refusal :=
  onRing s (frameIn (.slow m hot ballast) (slowIn m hot ballast))

def execProfile (m : FrameMeta) (tenant : Fin 16) (f : ProfileF) (bias : List Bias) (s : State) :
    Host.Outcome State Fault Refusal :=
  onRing s (frameIn (.profile m tenant.val f bias) (profileIn tenant.val f bias))

def execBreak (m : FrameMeta) (s : State) : Host.Outcome State Fault Refusal := onRing s (frameIn (.break_ m) breakIn)

def execOwnFrameReturned (kind : U8) (step : U64) (part : BitVec 15) (stomp : Bool) (s : State) :
    Host.Outcome State Fault Refusal :=
  onRing s (ownReturned kind step part stomp)

def execFrameLoss (kind : U8) (step : U64) (part : BitVec 15) (s : State) : Host.Outcome State Fault Refusal :=
  onRing s (frameLost kind step part)

def execRollcallResend (s : State) : Host.Outcome State Fault Refusal := onRing s rollAgain

def execGroupAbandon (s : State) : Host.Outcome State Fault Refusal := onRing s abandonGroup

/-! ### Timed events -/

/-- INT_COAL_RAISE: the 1 µs evaluation of a vector (03 R74); no vector is raised while frozen (18 R439). -/
def execIntCoalRaise (page : Fin 17) (v : Fin 8) (s : State) : Host.Outcome State Fault Refusal :=
  live [17] s (fun s => if s.freezing then s else vecEval page.val v.val s)

def execExpiryScan (s : State) : Host.Outcome State Fault Refusal := ownSettle gdnIslands s expiryScan

def execLedgerRollup (tenant : Fin 16) (s : State) : Host.Outcome State Fault Refusal := own (15 :: s.pageIslands tenant.val) s (rollUpTen tenant.val)

def execBudgetPeriod (tenant : Fin 16) (s : State) : Host.Outcome State Fault Refusal := own (15 :: s.pageIslands tenant.val) s (budgetPeriod tenant.val)

def execThermalUpdate (s : State) : Host.Outcome State Fault Refusal := own [1, 15] s thermalUpdate

def execLadderMove (ladder : Fin 13) (s : State) : Host.Outcome State Fault Refusal := own [15] s (ladderMove ladder.val)

def execSensorRead (node : Fin 24) (s : State) : Host.Outcome State Fault Refusal := own [1, 15] s (sensorRead node.val)

def execSensorAnswer (node : Fin 24) (t : U16) (s : State) : Host.Outcome State Fault Refusal :=
  ownSettle [1, 15] s (sensorAnswer node.val t)

def execSensorTimeout (node : Fin 24) (s : State) : Host.Outcome State Fault Refusal := ownSettle [1, 15] s (sensorTimeout node.val)

def execSamplesSilent (s : State) : Host.Outcome State Fault Refusal := own [1, 15] s samplesSilent

def execWdogBite (seen : BiteSeen) (s : State) : Host.Outcome State Fault Refusal := ownSettle [] s (wdogBite seen)

/-- ISLAND_RESET_DONE: a freeze halts it. -/
def execIslandResetDone (island : Fin 18) (s : State) : Host.Outcome State Fault Refusal :=
  liveSettle [island.val] s (fun s => if s.freezing then s else islandBack island.val s)

def execGdnRestart (core : Fin 8) (_why : GdnWhy) (s : State) : Host.Outcome State Fault Refusal := ownLogged [core.val + 1] s (gdnRestart core.val)

def execGdnOut (core : Fin 8) (s : State) : Host.Outcome State Fault Refusal := ownLogged [core.val + 1] s (fun s => settle (takeWaits (gdnOut core.val s)))

def execGdnReattach (core : Fin 8) (verified : Bool) (s : State) : Host.Outcome State Fault Refusal :=
  ownLogged [core.val + 1] s (fun s => settle (gdnBack core.val verified s))

def execSpoolTailPoll (s : State) : Host.Outcome State Fault Refusal := own [14, 17] s tailPoll

def execSpoolTailRead (tenant : Fin 16) (spool : U16) (tail : U32) (s : State) : Host.Outcome State Fault Refusal :=
  inboundSettle (.spoolTailRead tenant spool tail) s

def execIdleGate (island : Fin 18) (s : State) : Host.Outcome State Fault Refusal := liveQuiet s (idleGate island.val)

def execArbitrationEvent (inst : Fin 4) (posts : List (Fin 32)) (cycles : List (List (Fin 32 × Nat))) (beats : List Nat)
    (s : State) : Host.Outcome State Fault Refusal :=
  own [arbIsland inst.val] s (arbEvent inst.val posts cycles beats)

def execArbWindowEnd (w : WindowCycle) (s : State) : Host.Outcome State Fault Refusal :=
  own [arbIsland w.inst.val] s (arbWindowEnd w.inst.val w.posts)

def execDebugRevoke (inst : Fin 4) (use : DebugUse) (s : State) : Host.Outcome State Fault Refusal :=
  own [arbIsland inst.val] s (debugUse inst.val use.beats use.ask)

def execSeedbedSweep (s : State) : Host.Outcome State Fault Refusal := own [13] s (fun s => restores (sweepStep s))

/-! ### The step (05, 06, 09, 10) -/

def execSealWithoutStep (s : State) : Host.Outcome State Fault Refusal := ownSettle [9] s sealNoStepOp

def execLayout (s : State) : Host.Outcome State Fault Refusal := ownSettle [9] s layoutOp

def execSeal (s : State) : Host.Outcome State Fault Refusal := ownSettle [9] s sealMember

def execArgumentBlockAck (w : StepWork) (s : State) : Host.Outcome State Fault Refusal := inboundSettle (.argumentBlockAck w) s

def execSpoolRelease (s : State) : Host.Outcome State Fault Refusal := ownSettle [14] s releaseAllRecs

def execWorkItemDeliver (s : State) : Host.Outcome State Fault Refusal := own [10] s deliverItem

def execWorkItemComplete (core busy : Nat) (s : State) : Host.Outcome State Fault Refusal :=
  inboundSettle (.workItemComplete core busy) s

def execStackItemComplete (idx ns stackBytes nocBytes : Nat) (s : State) : Host.Outcome State Fault Refusal :=
  inboundSettle (.stackItemComplete idx ns stackBytes nocBytes) s

def execCollectiveComplete (s : State) : Host.Outcome State Fault Refusal := inboundSettle .collectiveComplete s

def execTileBoundaryPark (core : Nat) (s : State) : Host.Outcome State Fault Refusal := inboundSettle (.tileBoundaryPark core) s

def execContextSwitchStart (bed : Fin 32) (s : State) : Host.Outcome State Fault Refusal := own [10] s (switchStart bed.val)

def execSwapSaveDone (bed : Fin 32) (s : State) : Host.Outcome State Fault Refusal := inboundSettle (.swapSaveDone bed) s

def execContextRearm (bed : Fin 32) (coreBusy : Nat) (s : State) : Host.Outcome State Fault Refusal :=
  inboundSettle (.contextRearm bed coreBusy) s

def execPartialList (l : PList) (s : State) : Host.Outcome State Fault Refusal := inboundSettle (.partialList l) s

def execGuessRecord (g : Guess) (s : State) : Host.Outcome State Fault Refusal := inboundSettle (.guessRecord g) s

/-! ### Completions of the block's own work (02, 04, 07, 08, 16) -/

def execAdmissionAttempt (tenant : Fin 16) (s : State) : Host.Outcome State Fault Refusal :=
  ownSettle (13 :: s.pageIslands tenant.val) s (admissionAttempt tenant.val)

def execPromptCopied (handle : U32) (tokens : List U32) (s : State) : Host.Outcome State Fault Refusal :=
  inboundSettle (.promptCopied handle tokens) s

def execExtendTokensCopied (handle : U32) (tokens : List U32) (s : State) : Host.Outcome State Fault Refusal :=
  inboundSettle (.extendTokensCopied handle tokens) s

def execBiasListCopied (page : Fin 17) (tag : U16) (entries : List Bias) (s : State) : Host.Outcome State Fault Refusal :=
  inboundSettle (.biasListCopied page tag entries) s

def execSpillMoveDone (slot : Nat) (plot : PlotCopied) (s : State) : Host.Outcome State Fault Refusal :=
  inboundSettle (.spillMoveDone slot plot) s

def execRestoreStart (handle : U32) (s : State) : Host.Outcome State Fault Refusal := own (12 :: s.pageIslands (hTenant handle)) s (restoreStart handle)

def execRestoreMoveDone (slot plot : Nat) (poisoned : Bool) (s : State) : Host.Outcome State Fault Refusal :=
  inboundSettle (.restoreMoveDone slot plot poisoned) s

def execModelLoadDone (slot : Fin 32) (seen : LoadSeen) (s : State) : Host.Outcome State Fault Refusal :=
  inboundSettle (.modelLoadDone slot seen) s

def execGraftLoadDone (slot : Nat) (version : U16) (seen : GraftSeen) (s : State) : Host.Outcome State Fault Refusal :=
  inboundSettle (.graftLoadDone slot version seen) s

def execReloadStart (t : ReloadOf) (s : State) : Host.Outcome State Fault Refusal := own [1, 17] s (reloadStarts t)

def execReloadDone (t : ReloadOf) (seen : ReloadSeen) (s : State) : Host.Outcome State Fault Refusal :=
  inboundSettle (.reloadDone t seen) s

def execSeedbedRemovalDone (model : Option (Fin 32)) (graft : Nat) (version : U16) (s : State) :
    Host.Outcome State Fault Refusal :=
  ownSettle [1, 13] s (removalDone model graft version)

def execTenantResetDone (tenant : Fin 16) (refused : List (U16 × U64)) (s : State) : Host.Outcome State Fault Refusal :=
  ownSettle (s.pageIslands tenant.val) s (resetDone tenant.val refused)

def execSelectDone (page : Fin 17) (tag : U16) (seen : SelectSeen) (s : State) : Host.Outcome State Fault Refusal :=
  inboundSettle (.selectDone page tag seen) s

def execImageVerified (seen : ImageSeen) (s : State) : Host.Outcome State Fault Refusal := live [1] s (imageVerified seen)

def execReady (s : State) : Host.Outcome State Fault Refusal := liveSettle [1] s startReady

def execBlockResetReady (refused : List (U32 × U64)) (s : State) : Host.Outcome State Fault Refusal :=
  liveSettle gdnIslands s (blockResetReady refused)

def execDormantEntryDone (s : State) : Host.Outcome State Fault Refusal := live gdnIslands s dormantDone

def execWakeDone (seen : ImageSeen) (s : State) : Host.Outcome State Fault Refusal := liveSettle gdnIslands s (wakeDone seen)

def execTeardownEnd (bed : Fin 32) (ctx : Fin 4) (coreBusy : Nat) (s : State) : Host.Outcome State Fault Refusal :=
  inboundSettle (.teardownEnd bed ctx coreBusy) s

def execJoiningCoreRestoreDone (core : Nat) (s : State) : Host.Outcome State Fault Refusal :=
  inboundSettle (.joiningCoreRestoreDone core) s

end Sys2Proof.Machine
end

