-- ==== Sys2Proof/Machine/CmdMessages.lean ====
section
/-! DEFINITION. The message commands (04): the host submits the message, and the block fetches and handles it when the rules
of 03 let it. Each meaning is the delivery of its message; what the message does when handled is its own operation in
Machine/Mail.lean. -/

namespace Sys2Proof.Machine

def execAdmit (page : Fin 17) (h : Hdr) (f : AdmitF) (s : State) : Host.Outcome State Fault Refusal :=
  live (s.pageIslands page.val) s (deliver (.admitReq page h f))

def execCancel (page : Fin 17) (via : Via) (f : HandleF) (s : State) : Host.Outcome State Fault Refusal :=
  live (s.pageIslands page.val) s (deliver (.cancel page via f))

def execPause (page : Fin 17) (h : Hdr) (f : HandleF) (s : State) : Host.Outcome State Fault Refusal :=
  live (s.pageIslands page.val) s (deliver (.pause page h f))

def execResume (page : Fin 17) (h : Hdr) (f : HandleF) (s : State) : Host.Outcome State Fault Refusal :=
  live (s.pageIslands page.val) s (deliver (.resume page h f))

def execExtend (page : Fin 17) (h : Hdr) (f : ExtendF) (s : State) : Host.Outcome State Fault Refusal :=
  live (s.pageIslands page.val) s (deliver (.extend page h f))

def execSetProfile (page : Fin 17) (h : Hdr) (f : ProfileF) (s : State) : Host.Outcome State Fault Refusal :=
  live (s.pageIslands page.val) s (deliver (.setProfile page h f))

def execOpenSpool (page : Fin 17) (h : Hdr) (f : SpoolF) (refused : Bool) (s : State) : Host.Outcome State Fault Refusal :=
  live (s.pageIslands page.val) s (deliver (.openSpool page h f refused))

def execQueryReq (page : Fin 17) (h : Hdr) (f : HandleF) (s : State) : Host.Outcome State Fault Refusal :=
  live (s.pageIslands page.val) s (deliver (.queryReq page h f))

def execTimeXchg (page : Fin 17) (via : Via) (f : TimeF) (s : State) : Host.Outcome State Fault Refusal :=
  live (s.pageIslands page.val) s (deliver (.timeXchg page via f))

def execSelect (page : Fin 17) (h : Hdr) (f : SelectF) (s : State) : Host.Outcome State Fault Refusal :=
  live (s.pageIslands page.val) s (deliver (.select page h f))

def execTenantOpen (page : Fin 17) (h : Hdr) (f : TenantOpenF) (s : State) : Host.Outcome State Fault Refusal :=
  live (s.pageIslands page.val) s (deliver (.tenantOpen page h f))

def execTenantReset (page : Fin 17) (h : Hdr) (f : TenantResetF) (s : State) : Host.Outcome State Fault Refusal :=
  live (s.pageIslands page.val) s (deliver (.tenantReset page h f))

def execQueryLedger (page : Fin 17) (h : Hdr) (f : LedgerF) (refused : Bool) (s : State) : Host.Outcome State Fault Refusal :=
  live (s.pageIslands page.val) s (deliver (.queryLedger page h f refused))

def execSeedbedPin (page : Fin 17) (h : Hdr) (f : PinF) (s : State) : Host.Outcome State Fault Refusal :=
  live (s.pageIslands page.val) s (deliver (.seedbedPin page h f))

def execSeedbedUnpin (page : Fin 17) (h : Hdr) (f : UnpinF) (s : State) : Host.Outcome State Fault Refusal :=
  live (s.pageIslands page.val) s (deliver (.seedbedUnpin page h f))

def execColdFlush (page : Fin 17) (h : Hdr) (f : FlushF) (s : State) : Host.Outcome State Fault Refusal :=
  live (s.pageIslands page.val) s (deliver (.coldFlush page h f))

def execModelLoad (page : Fin 17) (h : Hdr) (f : ModelLoadF) (desc : Option ModelDesc) (s : State) :
    Host.Outcome State Fault Refusal :=
  live (s.pageIslands page.val) s (deliver (.modelLoad page h f desc))

def execModelEvict (page : Fin 17) (h : Hdr) (f : EvictF) (s : State) : Host.Outcome State Fault Refusal :=
  live (s.pageIslands page.val) s (deliver (.modelEvict page h f))

def execGraftLoad (page : Fin 17) (h : Hdr) (f : GraftF) (desc : Option GraftDesc) (s : State) :
    Host.Outcome State Fault Refusal :=
  live (s.pageIslands page.val) s (deliver (.graftLoad page h f desc))

def execGraftReplace (page : Fin 17) (h : Hdr) (f : GraftF) (desc : Option GraftDesc) (s : State) :
    Host.Outcome State Fault Refusal :=
  live (s.pageIslands page.val) s (deliver (.graftReplace page h f desc))

def execGraftRetire (page : Fin 17) (h : Hdr) (f : RetireF) (s : State) : Host.Outcome State Fault Refusal :=
  live (s.pageIslands page.val) s (deliver (.graftRetire page h f))

def execBedConfig (page : Fin 17) (h : Hdr) (f : BedF) (s : State) : Host.Outcome State Fault Refusal :=
  live (s.pageIslands page.val) s (deliver (.bedConfig page h f))

def execSetShares (page : Fin 17) (h : Hdr) (f : SharesF) (s : State) : Host.Outcome State Fault Refusal :=
  live (s.pageIslands page.val) s (deliver (.setShares page h f))

def execSetBudget (page : Fin 17) (h : Hdr) (f : BudgetF) (s : State) : Host.Outcome State Fault Refusal :=
  live (s.pageIslands page.val) s (deliver (.setBudget page h f))

def execSetCyclic (page : Fin 17) (h : Hdr) (f : CyclicF) (s : State) : Host.Outcome State Fault Refusal :=
  live (s.pageIslands page.val) s (deliver (.setCyclic page h f))

def execSetDeadlinePolicy (page : Fin 17) (h : Hdr) (f : PolicyF) (s : State) : Host.Outcome State Fault Refusal :=
  live (s.pageIslands page.val) s (deliver (.setDeadlinePolicy page h f))

def execTraceConfig (page : Fin 17) (h : Hdr) (f : TraceF) (s : State) : Host.Outcome State Fault Refusal :=
  live (s.pageIslands page.val) s (deliver (.traceConfig page h f))

def execThermalQuery (page : Fin 17) (h : Hdr) (f : ThermF) (s : State) : Host.Outcome State Fault Refusal :=
  live (s.pageIslands page.val) s (deliver (.thermalQuery page h f))

def execFwInfo (page : Fin 17) (h : Hdr) (rsv : Bool) (s : State) : Host.Outcome State Fault Refusal :=
  live (s.pageIslands page.val) s (deliver (.fwInfo page h rsv))

def execBadOpcode (page : Fin 17) (via : Via) (opcode : U8) (s : State) : Host.Outcome State Fault Refusal :=
  live (s.pageIslands page.val) s (deliver (.badOpcode page via opcode))

end Sys2Proof.Machine
end

