-- ==== Sys2Proof/Machine/CmdRegs.lean ====
section
/-! DEFINITION. The commands that access registers (03, 12 to 17). A row that names one register is an access to it through
the PF, or through the aperture it names. -/

namespace Sys2Proof.Machine

/-- The PF. -/
def pf : Fin 17 := 16

/-! ### Mailbox pages (03 R62, R66, R70, R71) -/

def execSqTail (a : Apt) (v : U32) (s : State) : Host.Outcome State Fault Refusal :=
  writeCmd (aptFn a) (aptOff a 0x20) 32 (v.setWidth 64) s

def execCqHead (a : Apt) (v : U32) (s : State) : Host.Outcome State Fault Refusal :=
  writeCmd (aptFn a) (aptOff a 0x38) 32 (v.setWidth 64) s

/-- SQ_EN: a write of RING_CTRL. -/
def execSqEn (a : Apt) (v : U32) (s : State) : Host.Outcome State Fault Refusal :=
  writeCmd (aptFn a) (aptOff a 0x08) 32 (v.setWidth 64) s

/-- CQ_EN: a write of RING_CTRL. -/
def execCqEn (a : Apt) (v : U32) (s : State) : Host.Outcome State Fault Refusal :=
  writeCmd (aptFn a) (aptOff a 0x08) 32 (v.setWidth 64) s

/-- RING_CFG_WRITE: a base is written whole. -/
def execRingCfgWrite (a : Apt) (r : RingReg) (v : U64) (s : State) : Host.Outcome State Fault Refusal :=
  match r with
  | .sqBase => writeCmd (aptFn a) (aptOff a 0x10) 64 v s
  | .cqBase => writeCmd (aptFn a) (aptOff a 0x28) 64 v s
  | .sqCfg => writeCmd (aptFn a) (aptOff a 0x18) 32 v s
  | .cqCfg => writeCmd (aptFn a) (aptOff a 0x30) 32 v s

/-- URG_GO: GO, with IRQ, of a slot whose URG_MSG stands. -/
def execUrgGo (a : Apt) (slot : Fin 8) (irq : Bool) (s : State) : Host.Outcome State Fault Refusal :=
  writeCmd (aptFn a) (aptOff a (0x140 + slot.val * 0x80)) 32 (BitVec.ofNat 64 (1 + 2 * b2n irq)) s

/-! ### Block control (16 R398, 18 R438, R440) -/

/-- BLOCK_RESET: while frozen it is latched. -/
def execBlockReset (src : ResetFrom) (s : State) : Host.Outcome State Fault Refusal :=
  live [] s (fun s =>
    let s := match src with | .ctrl => discardLow pf.val s | .warm => s
    if s.freezing then onCtl (fun c => { c with latchReset := true }) s else blockReset s)

/-- DORMANT_ENTER: refused as R398 gives; while frozen it is latched. -/
def execDormantEnter (s : State) : Host.Outcome State Fault Refusal :=
  live [] s (fun s =>
    let s := discardLow pf.val s
    if s.noDormant then regRefused 0x18 0 s
    else if s.freezing then onCtl (fun c => { c with latchSleep := true, dormant := true }) s
    else sleep s)

/-- DORMANT_EXIT: while frozen it is latched. -/
def execDormantExit (s : State) : Host.Outcome State Fault Refusal :=
  live [] s (fun s =>
    let s := discardLow pf.val s
    if !s.ctl.dormant then s
    else if s.freezing then onCtl (fun c => { c with latchSleep := false, latchWake := !c.latchSleep, dormant := false }) s
    else wake s)

def execResumeHold (s : State) : Host.Outcome State Fault Refusal := liveSettle [] s (fun s => resumeSteps (discardLow pf.val s))

def execFreezeSet (s : State) : Host.Outcome State Fault Refusal := live [] s (fun s => freezeCtrl (discardLow pf.val s))

def execFreezeClear (s : State) : Host.Outcome State Fault Refusal := liveSettle [] s (fun s => thawCtrl (discardLow pf.val s))

/-- LOAD: FW_CTRL written with LEN and LOAD (R400). -/
def execLoad (len : BitVec 23) (s : State) : Host.Outcome State Fault Refusal :=
  writeCmd pf 0x8008 32 (BitVec.ofNat 64 (2 ^ 31 + len.toNat)) s

/-! ### Trace, arbiters, cold frame, limits, Tether -/

def execTraceTail (v : U32) (s : State) : Host.Outcome State Fault Refusal := writeCmd pf 0x6020 32 (v.setWidth 64) s

def execArbClear (inst : Fin 4) (s : State) : Host.Outcome State Fault Refusal := writeCmd pf (arbBase inst.val + 0x18) 32 1 s

def execPrioCommit (inst : Fin 4) (s : State) : Host.Outcome State Fault Refusal := writeCmd pf (arbBase inst.val + 0x20) 32 1 s

def execQuota (inst : Fin 4) (i : Fin 32) (v : U32) (s : State) : Host.Outcome State Fault Refusal :=
  writeCmd pf (arbBase inst.val + 0xA0 + 4 * i.val) 32 (v.setWidth 64) s

def execWindow (inst : Fin 4) (v : U32) (s : State) : Host.Outcome State Fault Refusal :=
  writeCmd pf (arbBase inst.val + 0x08) 32 (v.setWidth 64) s

/-- PENDING_DEPTH of EGRESS, the instance that has queues (12 R318). -/
def execPendingDepth (v : U32) (s : State) : Host.Outcome State Fault Refusal :=
  writeCmd pf (arbBase 0 + 0x40) 32 (v.setWidth 64) s

def execColdTierWrite (r : TierReg) (v : U64) (s : State) : Host.Outcome State Fault Refusal := writeCmd pf (tierOff r) 64 v s

def execPwrLimit (v : U32) (s : State) : Host.Outcome State Fault Refusal := writeCmd pf 0x5000 32 (v.setWidth 64) s

def execThermLimit (v : U64) (s : State) : Host.Outcome State Fault Refusal := writeCmd pf 0x5008 64 v s

def execWdogLimit (v : U32) (s : State) : Host.Outcome State Fault Refusal := writeCmd pf 0x3000 32 (v.setWidth 64) s

def execTetherCtrlEn (v : U64) (s : State) : Host.Outcome State Fault Refusal := writeCmd pf 0x7000 64 v s

def execGroupConfigWrite (r : GroupReg) (v : U64) (s : State) : Host.Outcome State Fault Refusal :=
  match r with
  | .groupId => writeCmd pf 0x7010 64 v s
  | .memberIndex => writeCmd pf 0x7018 64 v s

/-! ### Accesses of any register (00 R8, R10; 17 R423 to R429) -/

def execLccLo (s : State) : Host.Outcome State Fault Refusal := readCmd pf 0x1000 32 s

/-- READ_LATCH: a 32-bit read. -/
def execReadLatch (fn : Fin 17) (off : Nat) (s : State) : Host.Outcome State Fault Refusal := readCmd fn off 32 s

/-- PAIRED_REGISTER_WRITE: a 32-bit write. -/
def execPairedRegisterWrite (fn : Fin 17) (off : Nat) (v : U32) (s : State) : Host.Outcome State Fault Refusal :=
  writeCmd fn off 32 (v.setWidth 64) s

def execRcRead (fn : Fin 17) (off : Nat) (wide : Bool) (s : State) : Host.Outcome State Fault Refusal :=
  readCmd fn off (if wide then 64 else 32) s

/-- GH_EVENT_READ: a 64-bit read of GH_EVENT. -/
def execGhEventRead (s : State) : Host.Outcome State Fault Refusal := readCmd pf 0x8700 64 s

/-- REG_ACCESS: an access of any size, at any offset. -/
def execRegAccess (fn : Fin 17) (off bits : Nat) (write : Bool) (v : U64) (s : State) : Host.Outcome State Fault Refusal :=
  if write then writeCmd fn off bits v s else readCmd fn off bits s

def execRegisterWrite (fn : Fin 17) (off : Nat) (wide : Bool) (v : U64) (s : State) : Host.Outcome State Fault Refusal :=
  writeCmd fn off (if wide then 64 else 32) v s

end Sys2Proof.Machine
end

