-- ==== Sys2Proof/Machine/Dispatch.lean ====
section
/-! DEFINITION. One arm per command: each calls its meaning. -/

namespace Sys2Proof.Machine

def exec (i : Instr) (s : State) : Host.Outcome State Fault Refusal :=
  match i with
  | .admitReq page h f => Sys2Proof.Machine.execAdmit page h f s
  | .cancel page via f => Sys2Proof.Machine.execCancel page via f s
  | .pause page h f => Sys2Proof.Machine.execPause page h f s
  | .resume page h f => Sys2Proof.Machine.execResume page h f s
  | .extend page h f => Sys2Proof.Machine.execExtend page h f s
  | .setProfile page h f => Sys2Proof.Machine.execSetProfile page h f s
  | .openSpool page h f refused => Sys2Proof.Machine.execOpenSpool page h f refused s
  | .queryReq page h f => Sys2Proof.Machine.execQueryReq page h f s
  | .timeXchg page via f => Sys2Proof.Machine.execTimeXchg page via f s
  | .select page h f => Sys2Proof.Machine.execSelect page h f s
  | .tenantOpen page h f => Sys2Proof.Machine.execTenantOpen page h f s
  | .tenantReset page h f => Sys2Proof.Machine.execTenantReset page h f s
  | .queryLedger page h f refused => Sys2Proof.Machine.execQueryLedger page h f refused s
  | .seedbedPin page h f => Sys2Proof.Machine.execSeedbedPin page h f s
  | .seedbedUnpin page h f => Sys2Proof.Machine.execSeedbedUnpin page h f s
  | .coldFlush page h f => Sys2Proof.Machine.execColdFlush page h f s
  | .modelLoad page h f desc => Sys2Proof.Machine.execModelLoad page h f desc s
  | .modelEvict page h f => Sys2Proof.Machine.execModelEvict page h f s
  | .graftLoad page h f desc => Sys2Proof.Machine.execGraftLoad page h f desc s
  | .graftReplace page h f desc => Sys2Proof.Machine.execGraftReplace page h f desc s
  | .graftRetire page h f => Sys2Proof.Machine.execGraftRetire page h f s
  | .bedConfig page h f => Sys2Proof.Machine.execBedConfig page h f s
  | .setShares page h f => Sys2Proof.Machine.execSetShares page h f s
  | .setBudget page h f => Sys2Proof.Machine.execSetBudget page h f s
  | .setCyclic page h f => Sys2Proof.Machine.execSetCyclic page h f s
  | .setDeadlinePolicy page h f => Sys2Proof.Machine.execSetDeadlinePolicy page h f s
  | .traceConfig page h f => Sys2Proof.Machine.execTraceConfig page h f s
  | .thermalQuery page h f => Sys2Proof.Machine.execThermalQuery page h f s
  | .fwInfo page h rsv => Sys2Proof.Machine.execFwInfo page h rsv s
  | .badOpcode page via opcode => Sys2Proof.Machine.execBadOpcode page via opcode s
  | .sqTail a v => Sys2Proof.Machine.execSqTail a v s
  | .cqHead a v => Sys2Proof.Machine.execCqHead a v s
  | .sqEn a v => Sys2Proof.Machine.execSqEn a v s
  | .cqEn a v => Sys2Proof.Machine.execCqEn a v s
  | .ringCfgWrite a r v => Sys2Proof.Machine.execRingCfgWrite a r v s
  | .urgGo a slot irq => Sys2Proof.Machine.execUrgGo a slot irq s
  | .blockReset src => Sys2Proof.Machine.execBlockReset src s
  | .dormantEnter => Sys2Proof.Machine.execDormantEnter s
  | .dormantExit => Sys2Proof.Machine.execDormantExit s
  | .resumeHold => Sys2Proof.Machine.execResumeHold s
  | .freezeSet => Sys2Proof.Machine.execFreezeSet s
  | .freezeClear => Sys2Proof.Machine.execFreezeClear s
  | .load len => Sys2Proof.Machine.execLoad len s
  | .traceTail v => Sys2Proof.Machine.execTraceTail v s
  | .arbClear inst => Sys2Proof.Machine.execArbClear inst s
  | .prioCommit inst => Sys2Proof.Machine.execPrioCommit inst s
  | .quota inst k v => Sys2Proof.Machine.execQuota inst k v s
  | .window inst v => Sys2Proof.Machine.execWindow inst v s
  | .pendingDepth v => Sys2Proof.Machine.execPendingDepth v s
  | .coldTierWrite r v => Sys2Proof.Machine.execColdTierWrite r v s
  | .pwrLimit v => Sys2Proof.Machine.execPwrLimit v s
  | .thermLimit v => Sys2Proof.Machine.execThermLimit v s
  | .wdogLimit v => Sys2Proof.Machine.execWdogLimit v s
  | .tetherCtrlEn v => Sys2Proof.Machine.execTetherCtrlEn v s
  | .groupConfigWrite r v => Sys2Proof.Machine.execGroupConfigWrite r v s
  | .lccLo => Sys2Proof.Machine.execLccLo s
  | .readLatch fn off => Sys2Proof.Machine.execReadLatch fn off s
  | .pairedRegisterWrite fn off v => Sys2Proof.Machine.execPairedRegisterWrite fn off v s
  | .rcRead fn off wide => Sys2Proof.Machine.execRcRead fn off wide s
  | .ghEventRead => Sys2Proof.Machine.execGhEventRead s
  | .regAccess fn off bits write v => Sys2Proof.Machine.execRegAccess fn off bits write v s
  | .registerWrite fn off wide v => Sys2Proof.Machine.execRegisterWrite fn off wide v s
  | .coldReset => Sys2Proof.Machine.execColdReset s
  | .supplySag => Sys2Proof.Machine.execSupplySag s
  | .droop island => Sys2Proof.Machine.execDroop island s
  | .powerSample p => Sys2Proof.Machine.execPowerSample p s
  | .poisonIndication p => Sys2Proof.Machine.execPoisonIndication p s
  | .hostAccessRefused r => Sys2Proof.Machine.execHostAccessRefused r s
  | .atomicWrite addr core unit bed ctx => Sys2Proof.Machine.execAtomicWrite addr core unit bed ctx s
  | .coreFault f => Sys2Proof.Machine.execCoreFault f s
  | .sramUe a => Sys2Proof.Machine.execSramUe a s
  | .freezeSignal => Sys2Proof.Machine.execFreezeSignal s
  | .freezeSignalClear => Sys2Proof.Machine.execFreezeSignalClear s
  | .freezeDone => Sys2Proof.Machine.execFreezeDone s
  | .debugReadout island => Sys2Proof.Machine.execDebugReadout island s
  | .lockLost => Sys2Proof.Machine.execLockLost s
  | .lockRegained => Sys2Proof.Machine.execLockRegained s
  | .rollcall m modelId present intact => Sys2Proof.Machine.execRollcall m modelId present intact s
  | .manifest m es => Sys2Proof.Machine.execManifest m es s
  | .stepToken m es => Sys2Proof.Machine.execStepToken m es s
  | .tokens m es => Sys2Proof.Machine.execTokens m es s
  | .status m e => Sys2Proof.Machine.execStatus m e s
  | .slow m hot ballast => Sys2Proof.Machine.execSlow m hot ballast s
  | .profile m tenant f bias => Sys2Proof.Machine.execProfile m tenant f bias s
  | .break_ m => Sys2Proof.Machine.execBreak m s
  | .ownFrameReturned kind step part stomp => Sys2Proof.Machine.execOwnFrameReturned kind step part stomp s
  | .intCoalRaise page v => Sys2Proof.Machine.execIntCoalRaise page v s
  | .expiryScan => Sys2Proof.Machine.execExpiryScan s
  | .ledgerRollup tenant => Sys2Proof.Machine.execLedgerRollup tenant s
  | .budgetPeriod tenant => Sys2Proof.Machine.execBudgetPeriod tenant s
  | .thermalUpdate => Sys2Proof.Machine.execThermalUpdate s
  | .ladderMove ladder => Sys2Proof.Machine.execLadderMove ladder s
  | .sensorRead node => Sys2Proof.Machine.execSensorRead node s
  | .sensorAnswer node t => Sys2Proof.Machine.execSensorAnswer node t s
  | .sensorTimeout node => Sys2Proof.Machine.execSensorTimeout node s
  | .samplesSilent => Sys2Proof.Machine.execSamplesSilent s
  | .wdogBite seen => Sys2Proof.Machine.execWdogBite seen s
  | .islandResetDone island => Sys2Proof.Machine.execIslandResetDone island s
  | .gdnRestart core why => Sys2Proof.Machine.execGdnRestart core why s
  | .gdnOut core => Sys2Proof.Machine.execGdnOut core s
  | .gdnReattach core verified => Sys2Proof.Machine.execGdnReattach core verified s
  | .frameLoss kind step part => Sys2Proof.Machine.execFrameLoss kind step part s
  | .rollcallResend => Sys2Proof.Machine.execRollcallResend s
  | .groupAbandon => Sys2Proof.Machine.execGroupAbandon s
  | .spoolTailPoll => Sys2Proof.Machine.execSpoolTailPoll s
  | .spoolTailRead tenant spool tail => Sys2Proof.Machine.execSpoolTailRead tenant spool tail s
  | .idleGate island => Sys2Proof.Machine.execIdleGate island s
  | .arbitrationEvent inst posts cycles beats => Sys2Proof.Machine.execArbitrationEvent inst posts cycles beats s
  | .arbWindowEnd w => Sys2Proof.Machine.execArbWindowEnd w s
  | .debugRevoke inst use => Sys2Proof.Machine.execDebugRevoke inst use s
  | .seedbedSweep => Sys2Proof.Machine.execSeedbedSweep s
  | .sealWithoutStep => Sys2Proof.Machine.execSealWithoutStep s
  | .layout => Sys2Proof.Machine.execLayout s
  | .seal => Sys2Proof.Machine.execSeal s
  | .argumentBlockAck w => Sys2Proof.Machine.execArgumentBlockAck w s
  | .spoolRelease => Sys2Proof.Machine.execSpoolRelease s
  | .workItemDeliver => Sys2Proof.Machine.execWorkItemDeliver s
  | .workItemComplete core busy => Sys2Proof.Machine.execWorkItemComplete core busy s
  | .stackItemComplete idx ns stackBytes nocBytes => Sys2Proof.Machine.execStackItemComplete idx ns stackBytes nocBytes s
  | .collectiveComplete => Sys2Proof.Machine.execCollectiveComplete s
  | .tileBoundaryPark core => Sys2Proof.Machine.execTileBoundaryPark core s
  | .contextSwitchStart bed => Sys2Proof.Machine.execContextSwitchStart bed s
  | .swapSaveDone bed => Sys2Proof.Machine.execSwapSaveDone bed s
  | .contextRearm bed coreBusy => Sys2Proof.Machine.execContextRearm bed coreBusy s
  | .partialList l => Sys2Proof.Machine.execPartialList l s
  | .guessRecord g => Sys2Proof.Machine.execGuessRecord g s
  | .admissionAttempt tenant => Sys2Proof.Machine.execAdmissionAttempt tenant s
  | .promptCopied handle tokens => Sys2Proof.Machine.execPromptCopied handle tokens s
  | .extendTokensCopied handle tokens => Sys2Proof.Machine.execExtendTokensCopied handle tokens s
  | .biasListCopied page tag entries => Sys2Proof.Machine.execBiasListCopied page tag entries s
  | .spillMoveDone slot plot => Sys2Proof.Machine.execSpillMoveDone slot plot s
  | .restoreStart handle => Sys2Proof.Machine.execRestoreStart handle s
  | .restoreMoveDone slot plot poisoned => Sys2Proof.Machine.execRestoreMoveDone slot plot poisoned s
  | .modelLoadDone slot seen => Sys2Proof.Machine.execModelLoadDone slot seen s
  | .graftLoadDone slot version seen => Sys2Proof.Machine.execGraftLoadDone slot version seen s
  | .reloadStart t => Sys2Proof.Machine.execReloadStart t s
  | .reloadDone t seen => Sys2Proof.Machine.execReloadDone t seen s
  | .seedbedRemovalDone model graft version => Sys2Proof.Machine.execSeedbedRemovalDone model graft version s
  | .tenantResetDone tenant refused => Sys2Proof.Machine.execTenantResetDone tenant refused s
  | .selectDone page tag seen => Sys2Proof.Machine.execSelectDone page tag seen s
  | .imageVerified seen => Sys2Proof.Machine.execImageVerified seen s
  | .ready => Sys2Proof.Machine.execReady s
  | .blockResetReady refused => Sys2Proof.Machine.execBlockResetReady refused s
  | .dormantEntryDone => Sys2Proof.Machine.execDormantEntryDone s
  | .wakeDone seen => Sys2Proof.Machine.execWakeDone seen s
  | .teardownEnd bed ctx coreBusy => Sys2Proof.Machine.execTeardownEnd bed ctx coreBusy s
  | .joiningCoreRestoreDone core => Sys2Proof.Machine.execJoiningCoreRestoreDone core s

end Sys2Proof.Machine
end

