-- ==== Sys2Proof/Safety.lean ====
section
/-! DEFINITION. What counts as a safe run of the block, and the conditions under which commands take effect, in the terms the
statements use. -/

namespace Sys2Proof.Machine

/-! ### Runs -/

/-- The fixed tables have the sizes the spec gives: 17 pages (03 R59), 16 tenants and the management partition (02 R32), four
arbiters (12 R313), 32 model slots (08 R210). -/
abbrev Sizes (s : State) : Prop :=
  s.pages.length = 17 ∧ s.tens.length = 17 ∧ s.arbs.length = 4 ∧ s.gh.slots.length = 32

/-- No supply sag has left the state unknown (14 R368). -/
abbrev Known (s : State) : Prop := s.ctl.sagged = false

/-- The block runs: READY or SLEEPING, not stalled, not frozen. -/
abbrev Runs (s : State) : Prop := Known s ∧ s.awake = true ∧ s.freezing = false

/-- The block is READY and not frozen: its Tether port takes frames, stalled or not (13 R354, 15 R374). -/
abbrev Rings (s : State) : Prop := Known s ∧ s.ctl.phase = .ready ∧ s.freezing = false

/-- The block is unavailable (15 R393): before READY, in block reset or stalled; armed, with no step progress since `since`; or every
request that holds a Trellis row, one at least, is held for its weights, its graft or its group for a cause on this SA9 (DEDUCED, log
entry 70). -/
def Unavailable (since : U64) (s : State) : Prop :=
  (s.ctl.phase ∈ [.bootWait, .verifying, .init, .failed] ∨ s.wdog.stalled = true)
    ∨ (s.armed = true ∧ s.wdog.progress.toNat < since.toNat)
    ∨ (let rows := (s.reqs.map (fun e => e.2)).filter (fun r => r.row.isSome)
      rows ≠ [] ∧ ∀ r ∈ rows, r.state = .heldWeights ∨ r.state = .heldGraft ∨ (r.state = .heldGroup ∧ s.teth.ours = true))

/-- What waits on a page to be handled. -/
def mailOf (g : Page) : List Instr × List (Nat × Nat × Instr) := (g.ring, g.urgQueue)

/-- No message waits on any page. -/
abbrev Quiet (s : State) : Prop := ∀ g ∈ s.pages, g.ring = [] ∧ g.urgQueue = []

/-- An arbiter but for the transactions that its requesters have posted. -/
def unposted (a : Arb) : Arb := { a with inp := a.inp.map (fun x => { x with posted := [] }) }

/-- Every field but the pages, the ports, the tenants' totals, the trace and what is posted at EGRESS is as before: what a completion
may change. -/
abbrev Untouched (t s : State) : Prop :=
  t.ctl = s.ctl ∧ t.elog = s.elog ∧ t.wdog = s.wdog ∧ t.port = s.port ∧ t.reqs = s.reqs ∧ t.gens = s.gens ∧ t.seq = s.seq
    ∧ t.sow = s.sow ∧ t.disp = s.disp ∧ t.plots = s.plots ∧ t.seed = s.seed ∧ t.gh = s.gh ∧ t.prn = s.prn ∧ t.led = s.led
    ∧ t.arbs.drop 1 = s.arbs.drop 1 ∧ t.arbs.map unposted = s.arbs.map unposted ∧ t.teth = s.teth ∧ t.pwr = s.pwr ∧ t.tails = s.tails ∧ t.nocHeld = s.nocHeld ∧ t.free = s.free
    ∧ t.pending = s.pending

/-! ### Register accesses -/

/-- An access of a function at an offset, of a register's own width, reaches register `r` (17 R423). -/
abbrev Reaches (fn : Fin 17) (off : Nat) (wide : Bool) (r : Reg) (s : State) : Prop :=
  Known s ∧ s.freezing = false ∧ inBar fn off = true ∧ off % (if wide then 8 else 4) = 0
    ∧ regAt (absOff fn off) = some r ∧ r.wide = wide

/-- A write that reaches register `r`: its page is open and its island is not in reset (03 R60, 17 R428). -/
abbrev Writes (fn : Fin 17) (off : Nat) (wide : Bool) (r : Reg) (s : State) : Prop :=
  Reaches fn off wide r s ∧ (∀ p, pageAt (absOff fn off) = some p → (s.page p).isOpen = true)
    ∧ s.wdog.resetting.getLsbD r.island = false

/-- The state that a write changes: the islands it concerns run, and the low half that the function held is discarded (16 R408,
17 R425). -/
def written (fn : Fin 17) (off : Nat) (s : State) : State :=
  setPort (fun q => { q with held := mdel fn.val q.held }) (ungate (s.writeIslands (absOff fn off)) s)

/-- The state that a read of register `r` changes: its island runs, and the function's read latch is discarded (16 R408,
17 R424). -/
def readBy (fn : Fin 17) (r : Reg) (s : State) : State :=
  setPort (fun q => { q with latch := mdel fn.val q.latch }) (ungate [r.island] s)

/-! ### Messages -/

/-- Page `p` takes message `c` of its ring: its partition is served, and the message may be fetched (03 R62, R66, R69). -/
abbrev Fetches (p : Nat) (c : Instr) (s : State) : Prop :=
  s.serves p = true ∧ s.ctl.phase = .ready ∧ (s.page p).mayFetch c = true

/-- The state in which a fetched ring message is handled. -/
def fetched (p : Nat) (c : Instr) (s : State) : State := fetchMsg p c (ungate (s.pageIslands p) s)

/-- The ring message `c` is fetched and handled at once: no other message waits. -/
abbrev Fetched (p : Nat) (c : Instr) (h : Hdr) (s : State) : Prop :=
  msgHead c = some (p, .ring h) ∧ p < s.pages.length ∧ Known s ∧ Quiet s ∧ Fetches p c s

/-- `Fetched`, and the message passes the checks of R83 that come before its own. -/
abbrev Passes (p : Nat) (c : Instr) (h : Hdr) (s : State) : Prop :=
  Fetched p c h s ∧ preCheck p (.ring h) c (fetched p c s) = none

/-- The state in which an urgent message of a free slot is handled: the slot holds it and the LCC of its GO, GO writes are counted, and the
low half that the page's function held is discarded (03 R71, R72; 17 R425). -/
def posted (p : Nat) (u : Fin 8) (c : Instr) (s : State) : State :=
  let take (x : Urg) : Urg :=
    { x with
      msg := urgBits c
      busy := true
      done := false
      lcc := s.ctl.lcc }
  onCtl (fun c => { c with goSeq := c.goSeq + 1 }) ((discardLow p (ungate (s.pageIslands p) s)).onPage p (fun g => { g with slots := lupd u.val take g.slots }))

/-- The urgent message `c` to a free slot of a page that is served is handled at once, as no other message waits, and passes the checks
of R83 that come before its own. -/
abbrev Posts (p : Nat) (u : Fin 8) (irq : Bool) (c : Instr) (h : Hdr) (s : State) : Prop :=
  msgHead c = some (p, .urgent u irq h) ∧ p < s.pages.length ∧ Known s ∧ Quiet s ∧ s.serves p = true
    ∧ ((s.page p).slots.getD u.val {}).busy = false ∧ preCheck p (.urgent u irq h) c (posted p u c s) = none

/-! ### The block's own events -/

/-- The commands that are events of the block's own work: they happen only while it runs and is not frozen (18 R438). -/
def isOwn : Instr → Bool
  | .sramUe _ | .expiryScan | .ledgerRollup _ | .budgetPeriod _ | .thermalUpdate | .ladderMove _ | .sensorRead _ | .sensorAnswer ..
  | .sensorTimeout _ | .samplesSilent | .wdogBite _ | .gdnRestart .. | .gdnOut _ | .gdnReattach .. | .spoolTailPoll
  | .arbitrationEvent .. | .arbWindowEnd _ | .debugRevoke .. | .seedbedSweep | .sealWithoutStep | .layout | .seal | .spoolRelease
  | .workItemDeliver | .contextSwitchStart _ | .admissionAttempt _ | .restoreStart _ | .reloadStart _ | .seedbedRemovalDone ..
  | .tenantResetDone .. => true
  | _ => false

/-- The events of the block's own that a stalled block goes on to record (15 R374, R395). -/
def isLogged : Instr → Bool
  | .sramUe _ | .gdnRestart .. | .gdnOut _ | .gdnReattach .. => true
  | _ => false

/-! ### NoC traffic -/

/-- The commands that are NoC traffic into the block, which a freeze holds (18 R439). -/
def isTraffic : Instr → Bool
  | .poisonIndication _ | .hostAccessRefused _ | .atomicWrite .. | .coreFault _ | .spoolTailRead .. | .argumentBlockAck _
  | .workItemComplete .. | .stackItemComplete .. | .collectiveComplete | .tileBoundaryPark _ | .swapSaveDone _ | .contextRearm ..
  | .partialList _ | .guessRecord _ | .promptCopied .. | .extendTokensCopied .. | .biasListCopied .. | .spillMoveDone ..
  | .restoreMoveDone .. | .modelLoadDone .. | .graftLoadDone .. | .reloadDone .. | .selectDone .. | .teardownEnd ..
  | .joiningCoreRestoreDone _ => true
  | _ => false

/-! ### Frames of the Tether ring -/

/-- The frame whose arrival a command is. -/
def frameOf : Instr → Option FrameOut
  | .rollcall m id present intact => some (.rollcall m id present intact)
  | .manifest m es => some (.manifest m es)
  | .stepToken m es => some (.stepToken m es)
  | .tokens m es => some (.tokens m es)
  | .status m e => some (.status m e)
  | .slow m hot ballast => some (.slow m hot ballast)
  | .profile m tenant f bias => some (.profile m tenant.val f bias)
  | .break_ m => some (.break_ m)
  | _ => none

/-- A member that is not stalled takes a frame of another member: the port runs, the frame is good and of its group and
epoch, and it is its first copy (13 R338, R340, 15 R374). -/
abbrev TakesFrame (f : FrameOut) (s : State) : Prop :=
  Rings s ∧ s.ringUp = true ∧ f.mt.origin ≠ s.teth.index ∧ s.wdog.stalled = false ∧ s.takes f = true
    ∧ s.teth.copyOf f.kind f.mt = false

/-- The state in which a frame is acted on: control blocks of unknown type before it are counted, it is forwarded, unless this member
is its last hop, and remembered (13 R336, R338). -/
def received (f : FrameOut) (s : State) : State :=
  let u := crcCount f (ungate [16] s)
  let u := if f.mt.hops.toNat = s.teth.sizeM1.toNat then u else putFrame (passOn f s.teth.forced) u
  onTeth (fun t => { t with seen := t.seen ++ [(f.mt.origin, f.kind, f.mt.step, f.mt.part)] }) u

end Sys2Proof.Machine
end

