-- ==== Sys2Proof/Certificates/Slice0/Obligations.lean ====
section
/-! DEFINITION. The statements for the provers. A statement's state is any state that meets its hypotheses. -/

open Sys2Proof Sys2Proof.Machine

/-! ### The whole machine -/

/-- A step runs the command at the front of the queue, on the state with the queue's rest. -/
def Obligations.StepRunsFront : Prop :=
  ∀ (c : Instr) (rest : List Instr) (s : State),
    step { s with pending := c :: rest } = exec c { s with pending := rest }

/-- With no command waiting 10 ns pass, and the buffered trace records of a block that runs reach the ring. A freeze has stopped the LCC:
until NOCB has stopped too, the next rank of islands stops, and the egress port with rank 3 once its transaction has ended (the model's
choice, log entry 9). -/
def Obligations.StepIdle : Prop :=
  ∀ s : State, s.pending = [] →
    let u := { s with ctl := { s.ctl with lcc := s.ctl.lcc + 10 } }
    step s = .next (if s.freezing = true ∧ s.ctl.phase ≠ .dormant then
        (if s.ctl.frozen = true then s
        else let v := { s with ctl := { s.ctl with stopped := nextRank s.ctl.stopped } }
          if v.ctl.stopped.getLsbD 14 = true then endGrant 0 v else v)
      else if s.awake = true ∧ s.freezing = false then traceFlush u else u)

/-- No command changes the queue of the commands that wait. -/
def Obligations.QueueKept : Prop :=
  ∀ (c : Instr) (s t : State), Sizes s → exec c s = .next t → t.pending = s.pending

/-- No command moves the LCC, but for COLD_RESET, which sets it to 0. -/
def Obligations.ClockKept : Prop :=
  ∀ (c : Instr) (s t : State), Sizes s → exec c s = .next t →
    t.ctl.lcc = if c = .coldReset then 0 else s.ctl.lcc

/-- Every step keeps the sizes of the tables of pages, tenants, arbiters and model slots, the step of a supply sag and COLD_RESET
included. -/
def Obligations.SizesKept : Prop := ∀ s t : State, Sizes s → step s = .next t → Sizes t

/-- Where the state is known and the command in front is no supply sag, a step answers a next state, which has the sizes and is known
again: an invariant of every step, and so no run in which no supply sag waits stops. -/
def Obligations.RunNeverStops : Prop :=
  (∀ s : State, Sizes s → Known s → s.pending.head? ≠ some .supplySag → ∃ t, step s = .next t ∧ Sizes t ∧ Known t)
  ∧ ∀ (k : Nat) (s : State), Sizes s → Known s → .supplySag ∉ s.pending → ∃ t, core.run k s = .next t

/-- After a supply sag the state is unknown: every command stops but COLD_RESET, which answers the machine after reset, with
the model's own record of its ports, its free values and its queue kept. -/
def Obligations.SagNeedsColdReset : Prop :=
  (∀ s : State, Known s → exec .supplySag s =
      .next (onCtl (fun c => { c with sagged := true }) (ungate [] s)))
    ∧ (∀ (c : Instr) (s : State), ¬ Known s → c ≠ .coldReset → exec c s = .fault .stateUnknown)
    ∧ ∀ s : State, exec .coldReset s =
      .next { State.reset with out := { s.out with tetherEn := false }, free := s.free, pending := s.pending }

/-- Every register of the block window reads at reset as the Reset column and the tables of 17 R417 and R418 give; a tenant page that
is not open reads 0 but for PAGE_ID, and the page registers behind it stand at their reset image. The tables have their sizes, and no
request, Seedbed node, open page or command is there. -/
def Obligations.ResetValues : Prop :=
  let s := State.reset
  (∀ off r, regAt off = some r → regVal s r = match r with
    | .blId => 0xB103ADE5
    | .blRev => 0x00030000 + Config.stepping.toNat
    | .blCaps => 0x0ACC14CD3F1F9FF7
    | .wdogLimit => 0x000186A0
    | .pwrLimit => 0x003C0960
    | .thermLimit => 0x0000003005A00640
    | .tetherCtrl => 0x000000006403E800
    | .fwStatus => b2n Config.revoked0 * 2 ^ 35 + b2n Config.revoked1 * 2 ^ 36
    | .arb i .id => if i = 0 then 0x20 else if i = 1 then 0x48 else if i = 2 then 0x88 else 0xC8
    | .arb _ .window => 0x100
    | .arb i .hint => if i = 0 then 0 else 0x41
    | .arb i .depth => if i = 0 then 4 else 0
    | .arb i (.map j) | .arb i (.active j) => if i = 0 ∨ j < 2 then 0x03020100 + 0x04040404 * j else 0
    | .page p .pageId => p.val * 0x10000
    | _ => 0)
  ∧ (∀ (p : Fin 17) (r : PReg), pregVal p.val s r = match r with
    | .pageId => p.val * 0x10000
    | .sqCfg | .cqCfg => 6
    | .intCoal _ => 1
    | _ => 0)
  ∧ s.ctl.phase = .bootWait ∧ s.reqs = [] ∧ s.seed.nodes = [] ∧ (∀ p, (s.page p).isOpen = false) ∧ s.pending = [] ∧ Sizes s

/-! ### Messages: fetching and checks -/

/-- A ring message that its page may fetch is taken from the ring and handled; `handle` is its checks and its own meaning. Any other
waits in its ring, of which the block may have begun to fetch the header (how much is fetched is the model's choice, log entry 62). -/
def Obligations.RingMessageHandled : Prop :=
  ∀ (c : Instr) (p : Nat) (h : Hdr) (s : State),
    (Fetched p c h s → exec c s = .next (freed (handle p (.ring h) c (s.page p).headAddr (fetched p c s))))
    ∧ (msgHead c = some (p, .ring h) → p < s.pages.length → Known s → Quiet s → ¬ Fetches p c s →
      exec c s = .next (beginFetch p (freed ((ungate (s.pageIslands p) s).onPage p (fun g => { g with ring := [c] })))))

/-- An urgent message to a free slot of a page that is served is handled at once, in READY and in SLEEPING. -/
def Obligations.UrgentMessageHandled : Prop :=
  ∀ (c : Instr) (p : Nat) (u : Fin 8) (irq : Bool) (h : Hdr) (s : State),
    msgHead c = some (p, .urgent u irq h) → p < s.pages.length → Known s → Quiet s → s.serves p = true →
    ((s.page p).slots.getD u.val {}).busy = false →
    exec c s = .next (freed (handle p (.urgent u irq h) c (0x100 + u.val * 0x80) (posted p u c s)))

/-- The checks of R83 in their order: a stale generation, the length, the opcode, the sending page, the opcode's units, the
fields. The first that fails is the completion status, and a stale generation is also a page error.
A ring message with an opcode that the ring does not take completes BAD_OPCODE, one that fails another check with that check's
status. -/
def Obligations.ChecksInOrder : Prop :=
  (∀ (p : Nat) (via : Via) (c : Instr) (addr : Nat) (s : State),
    let h := viaHdr via
    let o := msgOpcode c
    let bad := fun (st : Nat) => handle p via c addr s = replyVia p via o st [] 0 0 s
    let lengthOk := h.length ≠ 0 ∧ h.length.toNat ≤ 4
    let pageOk := ¬ (p = mgmt ∧ opTenantOnly o = true) ∧ ¬ (p ≠ mgmt ∧ opMgmtOnly o = true)
    (h.gen ≠ (s.page p).gen → handle p via c addr s = replyVia p via o 0x0001 [] 0 0 (pageError p 0x01 addr s))
    ∧ (h.gen = (s.page p).gen → ¬ lengthOk → bad 0x0003)
    ∧ (h.gen = (s.page p).gen → lengthOk → pathOk via c = false → bad 0x0002)
    ∧ (h.gen = (s.page p).gen → lengthOk → pathOk via c = true → ¬ pageOk → bad 0x0004)
    ∧ (h.gen = (s.page p).gen → lengthOk → pathOk via c = true → pageOk → h.length.toNat ≠ opUnits o → bad 0x0003)
    ∧ (h.gen = (s.page p).gen → lengthOk → pathOk via c = true → pageOk → h.length.toNat = opUnits o → o ≠ 0x01 →
        (h.rsv = true ∨ fieldsOk p c = false) → bad 0x0003))
  ∧ (∀ (page : Fin 17) (h : Hdr) (o : U8) (s : State),
    let c : Instr := .badOpcode page (.ring h) o
    Fetched page.val c h s → h.gen = (s.page page.val).gen → h.length ≠ 0 → h.length.toNat ≤ 4 →
    ((o = 0x10 ∨ opListed o = false) → exec c s = .next (freed (reply page.val h o stBadOpcode [] (fetched page.val c s))))
    ∧ ∀ st, preCheck page.val (.ring h) c (fetched page.val c s) = some st →
      exec c s = .next (freed (reply page.val h o st [] (fetched page.val c s))))

/-- A ring message that fails a check but the first changes its own page, the ports, its tenant's totals and the trace, and
nothing else but the record of the gardener core that fetched it; restores that wait for frames may start after it (`freed`). Of the
tenant's record only the totals, the uses of its budgets and their warnings may change. -/
def Obligations.RefusedMessageFrame : Prop :=
  ∀ (c : Instr) (p st : Nat) (h : Hdr) (s : State), Fetched p c h s →
    preCheck p (.ring h) c (fetched p c s) = some st → st ≠ stNotCurrent →
    ∃ t, exec c s = .next (freed t)
      ∧ Untouched t (onCtl (fun k => { k with lastGdn := (s.page p).gardener.toNat }) (ungate (s.pageIslands p) s))
      ∧ (∀ q, q ≠ p → t.page q = s.page q ∧ t.ten q = s.ten q)
      ∧ (let new := t.ten p
        new = { s.ten p with
          ctr := new.ctr
          useNs := new.useNs
          useBytes := new.useBytes
          useNj := new.useNj
          warnT := new.warnT
          warnB := new.warnB
          warnE := new.warnE })
      ∧ (t.page p).gen = (s.page p).gen ∧ (t.page p).isOpen = (s.page p).isOpen ∧ (t.page p).started = (s.page p).started

/-! ### Messages: results -/

/-- TIME_XCHG in an urgent slot answers OK at once: the reply words hold the host's value and the LCC of its handling. On a ring it
completes BAD_OPCODE. -/
def Obligations.TimeExchanged : Prop :=
  (∀ (page : Fin 17) (h : Hdr) (f : TimeF) (s : State), Fetched page.val (.timeXchg page (.ring h) f) h s →
    h.gen = (s.page page.val).gen → h.length ≠ 0 → h.length.toNat ≤ 4 →
    exec (.timeXchg page (.ring h) f) s
      = .next (freed (reply page.val h 0x10 stBadOpcode [] (fetched page.val (.timeXchg page (.ring h) f) s))))
  ∧ ∀ (page : Fin 17) (u : Fin 8) (irq : Bool) (h : Hdr) (f : TimeF) (s : State),
    let c : Instr := .timeXchg page (.urgent u irq h) f
    page.val < s.pages.length → u.val < (s.page page.val).slots.length → Known s → Quiet s → s.serves page.val = true →
    ((s.page page.val).slots.getD u.val {}).busy = false → preCheck page.val (.urgent u irq h) c (posted page.val u c s) = none →
    ∃ t, exec c s = .next (freed t)
      ∧ Untouched t (onCtl (fun k => { k with goSeq := k.goSeq + 1 }) (discardLow page.val (ungate (s.pageIslands page.val) s)))
      ∧ (∀ q, q ≠ page.val → t.page q = s.page q)
      ∧ (t.page page.val).slots.getD u.val {} =
        { (s.page page.val).slots.getD u.val {} with
          msg := urgBits c
          status := 0
          busy := false
          done := true
          reply0 := f.host
          reply1 := s.ctl.lcc
          reply2 := 0
          lcc := s.ctl.lcc }

/-- FW_INFO answers the image's release and digest, and the gardener core of each open partition.
QUERY_REQ answers the request's fields, a row's as of the last composition, or BAD_HANDLE where the handle names none. A request whose time has run out ends
first (`State.named`).
QUERY_LEDGER, of a tenant or a request, whose record the host refuses completes BAD_FIELD after the host fault. -/
def Obligations.QueriesAnswer : Prop :=
  (∀ (page : Fin 17) (h : Hdr) (rsv : Bool) (s : State), Passes page.val (.fwInfo page h rsv) h s →
    let s' := fetched page.val (.fwInfo page h rsv) s
    exec (.fwInfo page h rsv) s = .next (freed (reply mgmt h 0x4C stOk
      [(16, s.ctl.fwLine.toNat), (17, s.ctl.fwMinor.toNat), (18, s.ctl.fwBuild.toNat), (20, 0),
       (24, ((List.range 16).map (fun t => (if (s.page t).isOpen then (s.page t).gardener.toNat else 0) * 16 ^ t)).sum),
       (32, s.ctl.fwDigest.toNat % 2 ^ 128)] s')))
  ∧ (∀ (page : Fin 17) (h : Hdr) (f : HandleF) (s : State), Passes page.val (.queryReq page h f) h s →
    let n := (fetched page.val (.queryReq page h f) s).named page.val f.handle
    (n.2 = none → exec (.queryReq page h f) s = .next (freed (reply page.val h 0x08 stBadHandle [] n.1)))
    ∧ ∀ r, n.2 = some r → exec (.queryReq page h f) s
      = .next (freed (reply page.val h 0x08 stOk (queryResult (r.atSeal (n.1.rowImage r)) n.1.ctl.lcc) n.1)))
  ∧ (∀ (page : Fin 17) (h : Hdr) (f : LedgerF) (s : State), Passes page.val (.queryLedger page h f true) h s →
    let s' := fetched page.val (.queryLedger page h f true) s
    let n := s'.named page.val f.handle
    let failed (s : State) : State := reply page.val h 0x22 stBadField [] (hostFault page.val 6 f.outAddr.toNat 0 s)
    (f.perReq = false → exec (.queryLedger page h f true) s = .next (freed (failed s')))
    ∧ (∀ r, f.perReq = true → n.2 = some r → exec (.queryLedger page h f true) s = .next (freed (failed n.1)))
    ∧ (f.perReq = true → n.2 = none → exec (.queryLedger page h f true) s = .next (freed (reply page.val h 0x22 stBadHandle [] n.1))))

/-- QUERY_LEDGER writes the 128-byte record of the tenant, or of the request, to OUT_ADDR and completes OK with the LCC of the
snapshot in RESULT bytes 16 to 23; a handle that names no request completes BAD_HANDLE. -/
def Obligations.LedgerQueried : Prop :=
  ∀ (page : Fin 17) (h : Hdr) (f : LedgerF) (s : State),
    let c : Instr := .queryLedger page h f false
    let written (rec : LedgerRec) (s : State) : State :=
      chargeTen page.val 128 (hostWrite (egressGardener (s.page page.val).gardener.toNat) page.val 128
        (.ledger page.val f.outAddr rec) s)
    Passes page.val c h s →
    let s' := fetched page.val c s
    let n := s'.named page.val f.handle
    (f.perReq = false → exec c s = .next (freed (reply page.val h 0x22 stOk [(16, s'.ctl.lcc.toNat)]
      (written (tenRecord f.tenant.toNat s') s'))))
    ∧ (∀ r, f.perReq = true → n.2 = some r → exec c s = .next (freed (reply page.val h 0x22 stOk [(16, n.1.ctl.lcc.toNat)]
      (written (reqRecord r) n.1))))
    ∧ (f.perReq = true → n.2 = none → exec c s = .next (freed (reply page.val h 0x22 stBadHandle [] n.1)))

/-- From the management page a handle of any tenant names its request, and from a tenant's page its own tenant's alone; the slot
must be taken and the generation current. -/
def Obligations.HandleScope : Prop :=
  ∀ (p : Nat) (h : U32) (s : State) (r : Req),
    s.reqOf p h = some r ↔ (s.req (hSlot h) = some r ∧ r.handle = h ∧ (p = mgmt ∨ hTenant h = p))

/-- ADMIT that passes its own checks completes its start: the request is QUEUED in the lowest free descriptor slot under a new generation,
owns its spool, and the message waits on the page for the copy of the prompt, which has not come; otherwise the message completes with the
status of the first check that fails. -/
def Obligations.AdmitAllocates : Prop :=
  ∀ (page : Fin 17) (h : Hdr) (f : AdmitF) (s : State), Passes page.val (.admitReq page h f) h s →
    let s' := fetched page.val (.admitReq page h f) s
    let slot := s'.freeSlot
    let gen := ((mget slot s.gens).getD 0) + 1
    let hd := mkHandle page.val slot gen.toNat
    (∀ st, admitCheck page.val h f s' = some st → exec (.admitReq page h f) s = .next (freed (reply page.val h 0x01 st []
      (trace 25 3 (s'.page page.val).gardener.toNat (some page.val) 0 st 0 0 s'))))
    ∧ (admitCheck page.val h f s' = none → ∃ t r sp, exec (.admitReq page h f) s = .next (freed t)
        ∧ t.req slot = some r ∧ r.state = .queued ∧ r.copied = false ∧ r.log = [] ∧ r.adm = f ∧ r.handle = hd ∧ r.row = none
        ∧ r.model = f.model ∧ r.born = s.ctl.lcc ∧ r.order = s.seq ∧ t.seq = s.seq + 1
        ∧ (∀ k, k ≠ slot → t.req k = s.req k) ∧ t.gens = mput slot gen s.gens
        ∧ s.spool page.val f.spool.toNat = some sp ∧ sp.owner = none
        ∧ t.spool page.val f.spool.toNat = some { sp with owner := some hd }
        ∧ (t.page page.val).started = (s.page page.val).started ++ [⟨h, 0x01, .prompt hd f.promptAddr, false⟩]
        ∧ t.plots = s.plots ∧ t.sow = s.sow ∧ t.disp = s.disp ∧ t.elog = s.elog)

/-- CANCEL, PAUSE, RESUME and EXTEND of a handle that names no request complete BAD_HANDLE, and of an ENDED one ALREADY_ENDED.
CANCEL of a request without a Trellis row ends it CANCELLED (0x10) at once and completes OK; of one that holds a row it is
handed to the Sower, and the ring message waits for the composition; a second CANCEL waits for the composition that decides the first.
In an urgent slot CANCEL completes at once.
PAUSE of a QUEUED or ADMITTED request completes BUSY and changes nothing but the completion; of a request that holds
a row it is handed to the Sower with its time to live; of any other it completes OK with the new time to live.
RESUME and EXTEND of a PAUSED or COLD request that nothing brings back yet: RESUME waits and the request is brought
back, unless its turn has ended; EXTEND, where the context has room for the tokens and one more, waits for the copy of its tokens. Of a
request in another state, or with an EXTEND under way, they complete BUSY. -/
def Obligations.RequestMessages : Prop :=
  (∀ (page : Fin 17) (h : Hdr) (f : HandleF) (s : State), Passes page.val (.cancel page (.ring h) f) h s →
    let c : Instr := .cancel page (.ring h) f
    let n := (fetched page.val c s).named page.val f.handle
    (n.2 = none → exec c s = .next (freed (reply page.val h 0x02 stBadHandle [] n.1)))
    ∧ ∀ r, n.2 = some r →
    (r.state = .ended → exec c s = .next (freed (reply page.val h 0x02 stAlreadyEnded [(16, r.endStatus.toNat)] n.1)))
    ∧ (r.state ≠ .ended → r.row = none → r.cancelPending = false →
      exec c s = .next (freed (reply page.val h 0x02 stOk [(16, 0x10)] (endNow f.handle 0x10 n.1))))
    ∧ (r.state ≠ .ended → r.row ≠ none → r.cancelPending = false →
      exec c s = .next (freed (startWait page.val h 0x02 (.cancel f.handle (handOver f.handle .cancel n.1).dueComp true)
        ((handOver f.handle .cancel n.1).onReqH f.handle (fun r => { r with cancelPending := true })))))
    ∧ (r.state ≠ .ended → r.cancelPending = true →
      exec c s = .next (freed (startWait page.val h 0x02 (.cancel f.handle n.1.dueComp false) n.1))))
  ∧ (∀ (page : Fin 17) (u : Fin 8) (irq : Bool) (h : Hdr) (f : HandleF) (s : State),
    Posts page.val u irq (.cancel page (.urgent u irq h) f) h s →
    let c : Instr := .cancel page (.urgent u irq h) f
    let n := (posted page.val u c s).named page.val f.handle
    let answer (st r0 : Nat) (s : State) : State := completeUrg page.val u.val irq st (BitVec.ofNat 64 r0) 0 0 s
    (n.2 = none → exec c s = .next (freed (answer stBadHandle 0 n.1)))
    ∧ ∀ r, n.2 = some r →
    (r.state = .ended → exec c s = .next (freed (answer stAlreadyEnded r.endStatus.toNat n.1)))
    ∧ (r.state ≠ .ended → r.row = none → r.cancelPending = false → exec c s = .next (freed (answer stOk 0x10 (endNow f.handle 0x10 n.1))))
    ∧ (r.state ≠ .ended → r.row ≠ none → r.cancelPending = false → exec c s = .next (freed (answer stOk 0x100
        ((handOver f.handle .cancel n.1).onReqH f.handle (fun r => { r with cancelPending := true })))))
    ∧ (r.state ≠ .ended → r.cancelPending = true → exec c s = .next (freed (answer stOk 0x100 n.1))))
  ∧ (∀ (page : Fin 17) (h : Hdr) (f : HandleF) (s : State), Passes page.val (.pause page h f) h s →
    let n := (fetched page.val (.pause page h f) s).named page.val f.handle
    (n.2 = none → exec (.pause page h f) s = .next (freed (reply page.val h 0x03 stBadHandle [] n.1)))
    ∧ ∀ r, n.2 = some r →
    (r.state = .ended → exec (.pause page h f) s = .next (freed (reply page.val h 0x03 stAlreadyEnded [(16, r.endStatus.toNat)] n.1)))
    ∧ ((r.state = .queued ∨ r.state = .admitted) → exec (.pause page h f) s = .next (freed (reply page.val h 0x03 stBusy [] n.1)))
    ∧ (r.state ≠ .ended → r.state ≠ .queued → r.state ≠ .admitted →
      (r.row ≠ none → exec (.pause page h f) s = .next (freed (startWait page.val h 0x03 (.pause f.handle n.1.dueComp f.ttl)
        ((handOver f.handle (.pause f.ttl) n.1).onReqH f.handle (fun r => { r with pausePending := true })))))
      ∧ (r.row = none → exec (.pause page h f) s = .next (freed (reply page.val h 0x03 stOk [] (pauseNow f.handle f.ttl n.1))))))
  ∧ (∀ (page : Fin 17) (h : Hdr) (s : State),
    (∀ f : HandleF, Passes page.val (.resume page h f) h s →
      let n := (fetched page.val (.resume page h f) s).named page.val f.handle
      (n.2 = none → exec (.resume page h f) s = .next (freed (reply page.val h 0x04 stBadHandle [] n.1)))
      ∧ ∀ r, n.2 = some r →
      let takes := (r.state = .paused ∨ r.state = .cold) ∧ r.extendPending = false ∧ n.1.extending f.handle = false
      (r.state = .ended → exec (.resume page h f) s = .next (freed (reply page.val h 0x04 stAlreadyEnded [(16, r.endStatus.toNat)] n.1)))
      ∧ (r.state ≠ .ended → ¬ takes → exec (.resume page h f) s = .next (freed (reply page.val h 0x04 stBusy [] n.1)))
      ∧ (takes → r.turnEnd = true → exec (.resume page h f) s = .next (freed (reply page.val h 0x04 stBadField [] n.1)))
      ∧ (takes → r.turnEnd = false → n.1.resuming f.handle = true →
        exec (.resume page h f) s = .next (freed (startWait page.val h 0x04 (.resume f.handle) n.1)))
      ∧ (takes → r.turnEnd = false → n.1.resuming f.handle = false →
        exec (.resume page h f) s = .next (freed (bringBack f.handle (startWait page.val h 0x04 (.resume f.handle) n.1)))))
    ∧ ∀ f : ExtendF, Passes page.val (.extend page h f) h s →
      let n := (fetched page.val (.extend page h f) s).named page.val f.handle
      (n.2 = none → exec (.extend page h f) s = .next (freed (reply page.val h 0x05 stBadHandle [] n.1)))
      ∧ ∀ r, n.2 = some r →
      let takes := (r.state = .paused ∨ r.state = .cold) ∧ r.extendPending = false ∧ n.1.extending f.handle = false
        ∧ n.1.resuming f.handle = false
      let fits := r.logEnd + f.count.toNat + 1 < n.1.contextLen r.model.toNat
      (r.state = .ended → exec (.extend page h f) s = .next (freed (reply page.val h 0x05 stAlreadyEnded [(16, r.endStatus.toNat)] n.1)))
      ∧ (r.state ≠ .ended → ¬ takes → exec (.extend page h f) s = .next (freed (reply page.val h 0x05 stBusy [] n.1)))
      ∧ (takes → ¬ fits → exec (.extend page h f) s = .next (freed (reply page.val h 0x05 stBadField [] n.1)))
      ∧ (takes → fits → exec (.extend page h f) s = .next (freed (startWait page.val h 0x05 (.extend f.handle f) n.1))))

/-- SET_PROFILE without a bias list sets its profile at once, else it waits for the copy of the list. OPEN_SPOOL of a spool that a
request owns completes BUSY; else it closes the spool with a size of 0, or binds it and writes its header.
SELECT with sound operands waits as a job, at most 16 on a page, else it completes BAD_FIELD or BUSY; a tenant's may name the host
only. -/
def Obligations.ProfilesSpoolsAndSelects : Prop :=
  (∀ (page : Fin 17) (h : Hdr) (s : State),
    (∀ f : ProfileF, Passes page.val (.setProfile page h f) h s →
      let s' := fetched page.val (.setProfile page h f) s
      exec (.setProfile page h f) s = .next (freed (if f.biasCount = 0 then
          reply page.val h 0x06 stOk []
            (s'.onTen page.val (fun x => { x with profiles := mput f.profile.toNat ⟨f, []⟩ x.profiles }))
        else startWait page.val h 0x06 (.bias f) s')))
    ∧ ∀ (f : SpoolF) (refused : Bool), Passes page.val (.openSpool page h f refused) h s →
      let s' := fetched page.val (.openSpool page h f refused) s
      let k := f.spool.toNat
      let off := s'.onTen page.val (fun x => { x with spools := mdel k x.spools })
      let on := off.onTen page.val (fun x =>
        { x with spools := mput k { log2 := f.log2, hdrAddr := f.hdrAddr, ringAddr := f.ringAddr } x.spools })
      (∀ sp o, s'.spool page.val k = some sp → sp.owner = some o →
        exec (.openSpool page h f refused) s = .next (freed (reply page.val h 0x07 stBusy [] s')))
      ∧ ((∀ sp, s'.spool page.val k = some sp → sp.owner = none) →
        exec (.openSpool page h f refused) s = .next (freed (
          if f.log2 = 0 then reply page.val h 0x07 stOk [] off
          else if refused then reply page.val h 0x07 stBadField [] (hostFault page.val 3 f.hdrAddr.toNat 0 off)
          else reply page.val h 0x07 stOk []
            (hostWrite (egressGardener (s'.page page.val).gardener.toNat) page.val 64 (.spoolInit page.val f.hdrAddr s'.ctl.lcc) on)))))
  ∧ (∀ (page : Fin 17) (h : Hdr) (f : SelectF) (s : State), Passes page.val (.select page h f) h s →
    let s' := fetched page.val (.select page h f) s
    let jobs := (s'.page page.val).started.filter (fun x => x.wait.isSelect)
    (page.val ≠ mgmt → f.space = true → exec (.select page h f) s = .next (freed (reply page.val h 0x11 stDenied [] s')))
    ∧ ((page.val = mgmt ∨ f.space = false) → (jobs.length < 16 → selectOk f = true →
      exec (.select page h f) s = .next (freed (startWait page.val h 0x11 (.select f) s')))
    ∧ (jobs.length < 16 → selectOk f = false → exec (.select page h f) s = .next (freed (reply page.val h 0x11 stBadField [] s')))
    ∧ (16 ≤ jobs.length → exec (.select page h f) s = .next (freed (reply page.val h 0x11 stBusy [] s')))))

/-- TENANT_OPEN of a closed partition opens its page under the next generation, with a gardener core and a new epoch.
TENANT_RESET of an open partition starts its reset; the management page's message waits for the end, a tenant's own leaves no
completion. One that is under way goes on, and closes the partition where either asks for it. Of a closed partition it completes OK. A
tenant may not close its partition. -/
def Obligations.TenantLifecycle : Prop :=
  (∀ (page : Fin 17) (h : Hdr) (f : TenantOpenF) (s : State), Passes page.val (.tenantOpen page h f) h s →
    let s' := fetched page.val (.tenantOpen page h f) s
    let t := f.tenant.toNat
    ((s'.page t).isOpen = true → exec (.tenantOpen page h f) s = .next (freed (reply mgmt h 0x20 stBusy [] s')))
    ∧ ((s'.page t).isOpen = false → (∃ g ∈ s'.pages.take 16, g.isOpen = true ∧ g.pasid = f.pasid) →
        exec (.tenantOpen page h f) s = .next (freed (reply mgmt h 0x20 stBadField [] s')))
    ∧ ((s'.page t).isOpen = false → (∀ g ∈ s'.pages.take 16, ¬ (g.isOpen = true ∧ g.pasid = f.pasid)) → 17 ≤ s.pages.length →
        exec (.tenantOpen page h f) s = .next (freed (reply mgmt h 0x20 stOk
          [(16, ((s'.page t).gen + 1).toNat), (17, s'.gardenerFor)]
          ((s'.onPage t (fun g =>
            { g with
              isOpen := true
              gen := g.gen + 1
              pasid := f.pasid
              follow := f.follow
              gardener := BitVec.ofNat 4 s'.gardenerFor })).onTen t (fun x =>
            { x with
              epoch := x.epoch + 1
              openedAt := s'.ctl.lcc
              ctr := {}
              tokensIn := 0
              tokensOut := 0
              profiles := [] }))))))
  ∧ (∀ (page : Fin 17) (h : Hdr) (f : TenantResetF) (s : State), Passes page.val (.tenantReset page h f) h s →
    let s' := fetched page.val (.tenantReset page h f) s
    let t := f.tenant.toNat
    (page.val ≠ mgmt → f.close = true → exec (.tenantReset page h f) s = .next (freed (reply page.val h 0x21 stDenied [] s')))
    ∧ (page.val ≠ mgmt → f.close = false → (s'.page t).isOpen = true → (s'.page t).stopping = none →
        exec (.tenantReset page h f) s = .next (freed (startReset t false s')))
    ∧ ((page.val = mgmt ∨ f.close = false) → (s'.page t).isOpen = false →
        exec (.tenantReset page h f) s = .next (freed (reply page.val h 0x21 stOk [] s')))
    ∧ ((page.val = mgmt ∨ f.close = false) → (s'.page t).isOpen = true →
        let u := if page.val = mgmt then startWait mgmt h 0x21 (.reset f.tenant.toFin) s' else s'
        (u.page t).stopping ≠ none → exec (.tenantReset page h f) s = .next (freed (u.onPage t (fun g =>
          { g with stopping := g.stopping.map (fun (x : Stopping) => { x with close := x.close || f.close }) }))))
    ∧ (page.val = mgmt → (s'.page t).isOpen = true →
        (s'.page t).stopping = none →
        exec (.tenantReset page h f) s = .next (freed (startReset t f.close (startWait mgmt h 0x21 (.reset f.tenant.toFin) s')))))

/-- SEEDBED_UNPIN of a pin that the sender does not hold, the management page naming the pins of any page, completes BAD_FIELD.
Otherwise it releases the pin, whose nodes may be evicted again, and completes OK; the plots and the requests are unaffected. -/
def Obligations.UnpinReleases : Prop :=
  ∀ (page : Fin 17) (h : Hdr) (f : UnpinF) (s : State), Passes page.val (.seedbedUnpin page h f) h s →
    let s' := fetched page.val (.seedbedUnpin page h f) s
    let mayName (k : Nat) : Prop := k = page.val ∨ (page.val = mgmt ∧ k < 17)
    ((∀ k, mayName k → ∀ x ∈ (s'.ten k).pins, x.id ≠ f.pin) →
      exec (.seedbedUnpin page h f) s = .next (freed (reply page.val h 0x24 stBadField [] s')))
    ∧ ∀ k x, mayName k → (∀ j < k, mayName j → ∀ y ∈ (s'.ten j).pins, y.id ≠ f.pin) →
      (s'.ten k).pins.find? (fun x => x.id = f.pin) = some x →
      let t := (pinNodes false x.nodes s').onTen k (fun y => { y with pins := y.pins.erase x })
      exec (.seedbedUnpin page h f) s = .next (freed (reply page.val h 0x24 stOk [] t))
        ∧ (x.nodes.Nodup → ∀ n ∈ x.nodes, ∀ y, mget n s'.seed.nodes = some y → y.pins = 1 →
            mget n t.seed.nodes = some { y with pins := 0 })
        ∧ t.plots = s.plots ∧ t.reqs = s.reqs

/-- SEEDBED_PIN of the tenant's own chain takes a new pin id over the chain's nodes. In a shared scope, which the management page
alone may name, it publishes the plots first. A pin of more plots than the prompt fills completes BAD_FIELD, of plots not yet offered BUSY,
and a partition's 257th NO_ROOM; of a chain that has lost nodes, or whose publication finds no place for one, the nodes before are pinned
(the model's choice, log entry 62). COLD_FLUSH of a PAUSED request waits, and its spill starts; of a COLD one it completes OK, of any other
BUSY, and with ALL it flushes every PAUSED request that its page may name. -/
def Obligations.PinAndFlush : Prop :=
  ∀ (page : Fin 17) (h : Hdr) (s : State) (r : Req),
    (∀ f : PinF, Passes page.val (.seedbedPin page h f) h s →
      let n := (fetched page.val (.seedbedPin page h f) s).named page.val f.handle
      let fits := f.plots.toNat ≤ r.adm.promptLen.toNat / 128
      let offered := r.offeredTo f.plots.toNat = true
      let taken (nodes : List Nat) (u : State) : State := reply page.val h 0x23 stOk [(16, u.newPin.toNat)]
        ((onSeed (fun d => { d with nextPin := u.newPin + 1 }) (pinNodes true nodes u)).onTen page.val
          (fun x => { x with pins := x.pins ++ [⟨u.newPin, f.scope, nodes⟩] }))
      (n.2 = none → exec (.seedbedPin page h f) s = .next (freed (reply page.val h 0x23 stBadHandle [] n.1)))
      ∧ (n.2 = some r → page.val ≠ mgmt → f.scope ≠ 0 →
        exec (.seedbedPin page h f) s = .next (freed (reply page.val h 0x23 stDenied [] n.1)))
      ∧ (n.2 = some r → (page.val = mgmt ∨ f.scope = 0) →
        (¬ fits → exec (.seedbedPin page h f) s = .next (freed (reply page.val h 0x23 stBadField [] n.1)))
        ∧ (fits → ¬ offered → exec (.seedbedPin page h f) s = .next (freed (reply page.val h 0x23 stBusy [] n.1)))
        ∧ (fits → offered → 256 ≤ (n.1.ten page.val).pins.length →
          exec (.seedbedPin page h f) s = .next (freed (reply page.val h 0x23 stNoRoom [] n.1)))
        ∧ (fits → offered → (n.1.ten page.val).pins.length < 256 →
          (f.scope = 0 → exec (.seedbedPin page h f) s = .next (freed (taken (chainIn n.1 r 0 f.plots.toNat).1 n.1)))
          ∧ (f.scope ≠ 0 →
            let a := publish (hSlot f.handle) (n.1.keyOf r f.scope.toNat) (List.range f.plots.toNat) none n.1
            exec (.seedbedPin page h f) s = .next (freed (taken a.2 a.1))))))
    ∧ ∀ f : FlushF, Passes page.val (.coldFlush page h f) h s →
      let s' := fetched page.val (.coldFlush page h f) s
      let n := s'.named page.val f.handle
      let hs := ((s'.reqs.map (fun e => e.2)).filter (fun r => r.state = .paused && (page.val = mgmt || hTenant r.handle = page.val))).map
        (fun r => r.handle)
      (f.all = true → exec (.coldFlush page h f) s
        = .next (freed (flushDone (pumpMoves (each hs flushOne (startWait page.val h 0x25 (.flush hs true 0 false) s'))))))
      ∧ (f.all = false →
        (n.2 = none → exec (.coldFlush page h f) s = .next (freed (reply page.val h 0x25 stBadHandle [] n.1)))
        ∧ (n.2 = some r →
          (r.state = .ended → exec (.coldFlush page h f) s
            = .next (freed (reply page.val h 0x25 stAlreadyEnded [(16, r.endStatus.toNat)] n.1)))
          ∧ (r.state = .cold → exec (.coldFlush page h f) s = .next (freed (reply page.val h 0x25 stOk [] n.1)))
          ∧ (r.state ≠ .ended → r.state ≠ .cold → r.state ≠ .paused →
            exec (.coldFlush page h f) s = .next (freed (reply page.val h 0x25 stBusy [] n.1)))
          ∧ (r.state = .paused → exec (.coldFlush page h f) s = .next (freed (flushDone (pumpMoves (flushOne f.handle
            (startWait page.val h 0x25 (.flush [f.handle] false 0 false) n.1))))))))

/-- MODEL_LOAD reads its descriptor: into an EMPTY slot with room it is accepted, and without room it completes NO_ROOM; into another
slot it completes BUSY, with a descriptor read refused BAD_FIELD, and so with a reserved bit of its descriptor 1 (log entry 61) or itself
for its fallback. MODEL_EVICT of a model that nothing uses waits, and the eviction starts; of one in use, or LOADING or EVICTING, it
completes BUSY.
GRAFT_LOAD of a slot without a graft over a model that is named, and GRAFT_REPLACE of one with, accept the version where the storage has
room; GRAFT_RETIRE retires the slot's versions. -/
def Obligations.GreenhouseMessages : Prop :=
  (∀ (page : Fin 17) (h : Hdr) (s : State),
    (∀ (f : ModelLoadF) (desc : Option ModelDesc), Passes page.val (.modelLoad page h f desc) h s →
      let s' := fetched page.val (.modelLoad page h f desc) s
      let u := putReads (readsOf (.host none) f.descAddr.toNat 256) s'
      ((s'.slot f.slot.toNat).state ≠ .empty → exec (.modelLoad page h f desc) s = .next (freed (reply mgmt h 0x40 stBusy [] s')))
      ∧ ((s'.slot f.slot.toNat).state = .empty → (f.fbValid = true ∧ f.fallback = f.slot) →
        exec (.modelLoad page h f desc) s = .next (freed (reply mgmt h 0x40 stBadField [] s')))
      ∧ ((s'.slot f.slot.toNat).state = .empty → ¬ (f.fbValid = true ∧ f.fallback = f.slot) →
        (desc = none → exec (.modelLoad page h f desc) s
          = .next (freed (reply mgmt h 0x40 stBadField [] (hostFault mgmt 0 f.descAddr.toNat 0 u))))
        ∧ ∀ d, desc = some d →
          (d.rsv = true → exec (.modelLoad page h f desc) s = .next (freed (reply mgmt h 0x40 stBadField [] u)))
          ∧ (d.rsv = false → loadRoom d u = none → exec (.modelLoad page h f desc) s = .next (freed (reply mgmt h 0x40 stNoRoom [] u)))
          ∧ ∀ base, d.rsv = false → loadRoom d u = some base →
            exec (.modelLoad page h f desc) s = .next (freed (reply mgmt h 0x40 stOk [] (acceptLoad f d base u)))))
    ∧ ∀ f : EvictF, Passes page.val (.modelEvict page h f) h s →
      let s' := fetched page.val (.modelEvict page h f) s
      let st := (s'.slot f.slot.toNat).state
      (st = .empty → exec (.modelEvict page h f) s = .next (freed (reply mgmt h 0x41 stNotResident [] s')))
      ∧ let inUse := s'.modelUsers f.slot.toNat ≠ 0 ∨ (∃ g ∈ s'.gh.grafts, g.base = f.slot)
          ∨ (∃ e ∈ s'.reqs, ∃ k l, e.2.fbTable = some (k, l) ∧ k = f.slot) ∨ s'.bedNames f.slot = true
        (st ≠ .empty → (st = .loading ∨ st = .evicting ∨ inUse) →
          exec (.modelEvict page h f) s = .next (freed (reply mgmt h 0x41 stBusy [] s')))
        ∧ (st ≠ .empty → st ≠ .loading → st ≠ .evicting → ¬ inUse →
          exec (.modelEvict page h f) s = .next (freed (acceptEvict f.slot.toNat (startWait mgmt h 0x41 (.evict f.slot) s')))))
  ∧ (∀ (page : Fin 17) (h : Hdr) (s : State),
    (∀ (f : GraftF) (desc : Option GraftDesc), Passes page.val (.graftLoad page h f desc) h s →
      let s' := fetched page.val (.graftLoad page h f desc) s
      let u := putReads (readsOf (.host none) f.descAddr.toNat 64) s'
      let named := s'.slotNamed f.base.toNat = true
      let free := s'.hasGraft f.graftSlot.toNat = false
      (¬ named → exec (.graftLoad page h f desc) s = .next (freed (reply mgmt h 0x42 stNotResident [] s')))
      ∧ (named → ¬ free → exec (.graftLoad page h f desc) s = .next (freed (reply mgmt h 0x42 stBusy [] s')))
      ∧ (named → free → desc = none → exec (.graftLoad page h f desc) s
        = .next (freed (reply mgmt h 0x42 stBadField [] (hostFault mgmt 0 f.descAddr.toNat 0 u))))
      ∧ ∀ d, named → free → desc = some d →
        (d.rsv = true → exec (.graftLoad page h f desc) s = .next (freed (reply mgmt h 0x42 stBadField [] u)))
        ∧ (d.rsv = false → stackRoom < u.stackUsed + d.graftBytes.toNat →
          exec (.graftLoad page h f desc) s = .next (freed (reply mgmt h 0x42 stNoRoom [] u)))
        ∧ (d.rsv = false → u.stackUsed + d.graftBytes.toNat ≤ stackRoom →
          exec (.graftLoad page h f desc) s = .next (freed (reply mgmt h 0x42 stOk [] (acceptGraft f f.version d u)))))
    ∧ (∀ (f : GraftF) (desc : Option GraftDesc), Passes page.val (.graftReplace page h f desc) h s →
      let s' := fetched page.val (.graftReplace page h f desc) s
      let u := putReads (readsOf (.host none) f.descAddr.toNat 64) s'
      let v := s'.newestVer f.graftSlot.toNat + 1
      let holds := s'.hasGraft f.graftSlot.toNat = true
      let free := s'.gver f.graftSlot.toNat v = none
      (¬ holds → exec (.graftReplace page h f desc) s = .next (freed (reply mgmt h 0x43 stNotResident [] s')))
      ∧ (holds → ¬ free → exec (.graftReplace page h f desc) s = .next (freed (reply mgmt h 0x43 stBusy [] s')))
      ∧ (holds → free → desc = none → exec (.graftReplace page h f desc) s
        = .next (freed (reply mgmt h 0x43 stBadField [] (hostFault mgmt 0 f.descAddr.toNat 0 u))))
      ∧ ∀ d, holds → free → desc = some d →
        (d.rsv = true → exec (.graftReplace page h f desc) s = .next (freed (reply mgmt h 0x43 stBadField [] u)))
        ∧ (d.rsv = false → stackRoom < u.stackUsed + d.graftBytes.toNat →
          exec (.graftReplace page h f desc) s = .next (freed (reply mgmt h 0x43 stNoRoom [] u)))
        ∧ (d.rsv = false → u.stackUsed + d.graftBytes.toNat ≤ stackRoom →
          exec (.graftReplace page h f desc) s = .next (freed (reply mgmt h 0x43 stOk [(16, v.toNat)] (acceptGraft f v d u)))))
    ∧ ∀ f : RetireF, Passes page.val (.graftRetire page h f) h s →
      let s' := fetched page.val (.graftRetire page h f) s
      (s'.hasGraft f.graftSlot.toNat = true →
        exec (.graftRetire page h f) s = .next (freed (reply mgmt h 0x44 stOk [] (graftRetire f.graftSlot.toNat s'))))
      ∧ (s'.hasGraft f.graftSlot.toNat = false →
        exec (.graftRetire page h f) s = .next (freed (reply mgmt h 0x44 stNotResident [] s'))))

/-- BED_CONFIG, SET_SHARES, SET_CYCLIC and SET_DEADLINE_POLICY that pass their checks are started and wait for the composition
that applies them; nothing else changes. A BED_CONFIG that fails one completes with its status, a SET_CYCLIC that gives one tenant both
parts of an entry with a length BAD_FIELD.
SET_BUDGET starts a new period under the new budgets; TRACE_CONFIG sets the trace with an empty ring; THERMAL_QUERY without
stacks answers at once, else it asks the sensors of its stacks and waits. -/
def Obligations.SettingsTaken : Prop :=
  (∀ (page : Fin 17) (h : Hdr) (s : State),
    (∀ f st, Passes page.val (.bedConfig page h f) h s → bedCheck f (fetched page.val (.bedConfig page h f) s) = some st →
      exec (.bedConfig page h f) s = .next (freed (reply mgmt h 0x45 st [] (fetched page.val (.bedConfig page h f) s))))
    ∧ (∀ f, Passes page.val (.bedConfig page h f) h s → bedCheck f (fetched page.val (.bedConfig page h f) s) = none →
      exec (.bedConfig page h f) s = .next (freed (startWait mgmt h 0x45 (.setting s.dueComp (.bed f))
        (fetched page.val (.bedConfig page h f) s))))
    ∧ (∀ f, Passes page.val (.setShares page h f) h s →
      exec (.setShares page h f) s = .next (freed (startWait mgmt h 0x46 (.setting s.dueComp (.shares f))
        (fetched page.val (.setShares page h f) s))))
    ∧ (∀ f, Passes page.val (.setCyclic page h f) h s → f.tenantA = f.tenantB → f.length ≠ 0 →
      exec (.setCyclic page h f) s = .next (freed (reply mgmt h 0x48 stBadField [] (fetched page.val (.setCyclic page h f) s))))
    ∧ (∀ f, Passes page.val (.setCyclic page h f) h s → ¬ (f.tenantA = f.tenantB ∧ f.length ≠ 0) →
      exec (.setCyclic page h f) s = .next (freed (startWait mgmt h 0x48 (.setting s.dueComp (.cyclic f))
        (fetched page.val (.setCyclic page h f) s))))
    ∧ ∀ f, Passes page.val (.setDeadlinePolicy page h f) h s →
      exec (.setDeadlinePolicy page h f) s = .next (freed (startWait mgmt h 0x49 (.setting s.dueComp (.policy f))
        (fetched page.val (.setDeadlinePolicy page h f) s))))
  ∧ (∀ (page : Fin 17) (h : Hdr) (s : State),
    (∀ f : BudgetF, Passes page.val (.setBudget page h f) h s →
      let s' := fetched page.val (.setBudget page h f) s
      exec (.setBudget page h f) s = .next (freed (reply mgmt h 0x47 stOk [] (quotaCheck f.tenant.toNat (s'.onTen f.tenant.toNat (fun x =>
        { x with
          budTime := f.time
          budBytes := f.bytes
          budEnergy := f.energy
          warnQ := x.warnQ && x.quota = f.quota && x.warnPct = f.warnPct
          quota := f.quota
          period := f.period
          warnPct := f.warnPct
          periodAt := s'.ctl.lcc
          useNs := 0
          useBytes := 0
          useNj := 0
          warnT := false
          warnB := false
          warnE := false }))))))
    ∧ (∀ f : TraceF, Passes page.val (.traceConfig page h f) h s →
      let s' := fetched page.val (.traceConfig page h f) s
      (f.en = true → f.log2.toNat < 8 ∨ 20 < f.log2.toNat →
        exec (.traceConfig page h f) s = .next (freed (reply mgmt h 0x4A stBadField [] s')))
      ∧ ((f.en = true → 8 ≤ f.log2.toNat ∧ f.log2.toNat ≤ 20) →
        exec (.traceConfig page h f) s = .next (freed (reply mgmt h 0x4A stOk [] { traceFlush s' with trc :=
          { en := f.en
            log2 := f.log2
            events := f.events
            tenants := f.tenants
            ring := BitVec.ofNat 52 (f.ringAddr.toNat / 4096)
            head := 0
            tail := 0
            dropped := (traceFlush s').trc.dropped
            served := (traceFlush s').trc.served } }))))
    ∧ ∀ f : ThermF, Passes page.val (.thermalQuery page h f) h s →
      let s' := fetched page.val (.thermalQuery page h f) s
      exec (.thermalQuery page h f) s = .next (freed (if f.stackSet = 0 then reply mgmt h 0x4B stOk (thermResult [] s') s'
        else startWait mgmt h 0x4B (.thermal f.stackSet []) (each (stacksOf f.stackSet) (fun k s => askSensor (12 + k) s) s'))))

/-! ### Register accesses -/

/-- A write of a register's own width gives the register its value; `regWrite` is the effect per register. A write to an island that is
resetting, but for a low half that the port holds, waits behind at most 63 others for that island, else it is refused and recorded. While the
block is frozen SQ_TAIL and CQ_HEAD are latched, BL_CTRL takes its value, and any other write is dropped and counted, of a 64-bit access
its two registers each. -/
def Obligations.RegisterWriteTaken : Prop :=
  (∀ (fn : Fin 17) (off : Nat) (wide : Bool) (v : U64) (r : Reg) (s : State), Writes fn off wide r s →
    exec (.registerWrite fn off wide v) s
        = .next (settle (regWrite (if wide then v else (v.setWidth 32).setWidth 64) (written fn off s) r))
      ∧ exec (.regAccess fn off (if wide then 64 else 32) true v) s = exec (.registerWrite fn off wide v) s)
  ∧ (∀ (fn : Fin 17) (off : Nat) (wide : Bool) (v : U64) (s : State), Known s → s.freezing = false → inBar fn off = true →
    off % (if wide then 8 else 4) = 0 → s.wdog.resetting.getLsbD (islandAt (absOff fn off)) = true →
    isLowHalf (absOff fn off) wide = false →
    let a := absOff fn off
    let i := islandAt a
    exec (.registerWrite fn off wide v) s = .next (settle (
      if (s.wdog.heldWrites.filter (fun x => x.island = i)).length < 64
      then onWdog (fun w => { w with heldWrites := w.heldWrites ++ [⟨fn, a, wide, v, mget fn.val s.port.held, i⟩] }) (written fn off s)
      else regRefused a 17 (written fn off s))))
  ∧ (∀ (fn : Fin 17) (off : Nat) (wide : Bool) (v : U64) (s : State), Known s → s.freezing = true → inBar fn off = true →
    off % (if wide then 8 else 4) = 0 →
    let a := absOff fn off
    let upper := if wide = true ∧ (regAt (a + 4)).isSome = true then 1 else 0
    let dropped (n : Nat) (u : State) : State := onCtl (fun c => { c with droppedWrites := satAdd c.droppedWrites n }) u
    let u := written fn off s
    exec (.registerWrite fn off wide v) s = .next (settle (match regAt a with
      | some .blCtrl => setBlCtrl (v.setWidth 32) (dropped upper u)
      | some (.page p .sqTail) => dropped upper (onCtl (fun c => { c with bellTail := mput p.val (v.setWidth 32) c.bellTail }) u)
      | some (.page p .cqHead) => dropped upper (onCtl (fun c => { c with bellHead := mput p.val (v.setWidth 32) c.bellHead }) u)
      | some (.page _ (.urgMsg _ _)) => dropped 1 u
      | _ => dropped (1 + upper) u)))

/-- SQ_TAIL takes a value below the ring size that keeps what the block has begun to fetch; CQ_HEAD takes one that does not
pass CQ_TAIL, and completions that waited are written where the block runs. A value outside the ring is a page error (DOORBELL_RANGE), one that
goes back or too far another (DOORBELL_BACK). -/
def Obligations.DoorbellsTaken : Prop :=
  ∀ (a : Apt) (p : Fin 17) (v : U32) (s : State),
    let w (o : Nat) := written (aptFn a) (aptOff a o) s
    let g := s.page p.val
    let n := v.toNat % 65536
    (Writes (aptFn a) (aptOff a 0x20) false (.page p .sqTail) s →
      let size := 2 ^ g.sqLog2.toNat
      let kept := g.begun ≤ (n + size - g.sqHead.toNat) % size
      (n < size → kept →
        exec (.sqTail a v) s = .next (settle ((w 0x20).onPage p.val (fun g => { g with sqTail := BitVec.ofNat 16 n }))))
      ∧ (size ≤ n → exec (.sqTail a v) s = .next (settle (pageError p.val 0x04 0x20 (w 0x20))))
      ∧ (n < size → ¬ kept → exec (.sqTail a v) s = .next (settle (pageError p.val 0x05 0x20 (w 0x20)))))
    ∧ (Writes (aptFn a) (aptOff a 0x38) false (.page p .cqHead) s →
      let size := 2 ^ g.cqLog2.toNat
      let kept := (n + size - g.cqHead.toNat) % size ≤ (g.cqTail.toNat + size - g.cqHead.toNat) % size
      (n < size → kept →
        exec (.cqHead a v) s = .next (settle (drainOn p.val
          ((w 0x38).onPage p.val (fun g => { g with cqHead := BitVec.ofNat 16 n })))))
      ∧ (size ≤ n → exec (.cqHead a v) s = .next (settle (pageError p.val 0x04 0x38 (w 0x38))))
      ∧ (n < size → ¬ kept → exec (.cqHead a v) s = .next (settle (pageError p.val 0x05 0x38 (w 0x38)))))

/-- SQ_EN and CQ_EN write RING_CTRL: a ring that is enabled starts at index 0, the completion ring with phase 1, and FAULT_STOP
clears by writing 1. Completions that waited are written once the ring is on, where the block runs.
The ring configuration is written while its ring is off; a size outside 64 to 65,536 units is refused, and so is any write
while the ring is on.
GO of a free urgent slot submits the message that URG_MSG holds; of a busy slot it is a page error (URG_BUSY). -/
def Obligations.PageRegisters : Prop :=
  (∀ (a : Apt) (p : Fin 17) (v : U32) (s : State), Writes (aptFn a) (aptOff a 0x08) false (.page p .ringCtrl) s →
    p.val < s.pages.length →
    let on : Page → Page := fun g =>
      let sq := v.getLsbD 0 && !g.sqEn
      let cq := v.getLsbD 1 && !g.cqEn
      { g with
        sqEn := v.getLsbD 0
        cqEn := v.getLsbD 1
        faultStop := g.faultStop && !v.getLsbD 2
        sqHead := if sq then 0 else g.sqHead
        sqTail := if sq then 0 else g.sqTail
        begun := if sq then 0 else g.begun
        ring := if sq && g.sqHead ≠ 0 then [] else g.ring
        cqHead := if cq then 0 else g.cqHead
        cqTail := if cq then 0 else g.cqTail
        phase := cq || g.phase }
    exec (.sqEn a v) s = .next (settle (drainOn p.val ((written (aptFn a) (aptOff a 0x08) s).onPage p.val on)))
      ∧ exec (.cqEn a v) s = exec (.sqEn a v) s)
  ∧ (∀ (a : Apt) (p : Fin 17) (v : U64) (s : State),
    let w (o : Nat) := written (aptFn a) (aptOff a o) s
    let g := s.page p.val
    let k := v.toNat % 32
    (Writes (aptFn a) (aptOff a 0x10) true (.page p .sqBase) s → exec (.ringCfgWrite a .sqBase v) s = .next (settle (
        if g.sqEn then pageError p.val 0x03 0x10 (w 0x10)
        else (w 0x10).onPage p.val (fun g => { g with sqBase := v.extractLsb' 12 52 }))))
    ∧ (Writes (aptFn a) (aptOff a 0x28) true (.page p .cqBase) s → exec (.ringCfgWrite a .cqBase v) s = .next (settle (
        if g.cqEn then pageError p.val 0x03 0x28 (w 0x28)
        else (w 0x28).onPage p.val (fun g => { g with cqBase := v.extractLsb' 12 52 }))))
    ∧ (Writes (aptFn a) (aptOff a 0x18) false (.page p .sqCfg) s → exec (.ringCfgWrite a .sqCfg v) s = .next (settle (
        if g.sqEn then pageError p.val 0x03 0x18 (w 0x18) else if k < 6 ∨ 16 < k then pageError p.val 0x02 0x18 (w 0x18)
        else (w 0x18).onPage p.val (fun g => { g with sqLog2 := BitVec.ofNat 5 k }))))
    ∧ (Writes (aptFn a) (aptOff a 0x30) false (.page p .cqCfg) s → exec (.ringCfgWrite a .cqCfg v) s = .next (settle (
        if g.cqEn then pageError p.val 0x03 0x30 (w 0x30) else if k < 6 ∨ 16 < k then pageError p.val 0x02 0x30 (w 0x30)
        else (w 0x30).onPage p.val (fun g => { g with cqLog2 := BitVec.ofNat 5 k })))))
  ∧ (∀ (a : Apt) (p : Fin 17) (u : Fin 8) (irq : Bool) (s : State),
    Writes (aptFn a) (aptOff a (0x140 + u.val * 0x80)) false (.page p (.urgGo u)) s →
    let w := written (aptFn a) (aptOff a (0x140 + u.val * 0x80)) s
    exec (.urgGo a u irq) s = .next (settle (
      if (s.urg p.val u.val).busy then pageError p.val 0x06 (0x100 + u.val * 0x80 + 0x40) w
      else urgStart p.val u.val (urgMsg p u irq (s.urg p.val u.val).msg) w)))

/-- PWR_LIMIT and THERM_LIMIT take each field that lies in its range, WDOG_LIMIT a value from 10,000 to 10,000,000. A field out
of range keeps its value, and the write is recorded. -/
def Obligations.LimitsTaken : Prop :=
  ∀ s : State,
    let w (o : Nat) := written pf o s
    (∀ v : U32, Writes pf 0x5000 false .pwrLimit s →
      let m := v.toNat % 4096
      let k := v.toNat / 65536 % 256
      let t := onPwr (fun x =>
        { x with
          module := if 300 ≤ m ∧ m ≤ 2400 then BitVec.ofNat 12 m else x.module
          stack := if 10 ≤ k ∧ k ≤ 150 then BitVec.ofNat 8 k else x.stack }) (w 0x5000)
      exec (.pwrLimit v) s = .next (settle (if (300 ≤ m ∧ m ≤ 2400) ∧ 10 ≤ k ∧ k ≤ 150 then t else regRefused 0x5000 15 t)))
    ∧ (∀ v : U64, Writes pf 0x5008 true .thermLimit s →
      let d := v.toNat % 4096
      let k := v.toNat / 65536 % 4096
      let h := v.toNat / 2 ^ 32 % 256
      let t := onPwr (fun x =>
        { x with
          die := if 640 ≤ d ∧ d ≤ 2000 then BitVec.ofNat 12 d else x.die
          stackT := if 640 ≤ k ∧ k ≤ 2000 then BitVec.ofNat 12 k else x.stackT
          hyst := if h ≠ 0 then BitVec.ofNat 8 h else x.hyst }) (w 0x5008)
      exec (.thermLimit v) s = .next (settle
        (if (640 ≤ d ∧ d ≤ 2000) ∧ (640 ≤ k ∧ k ≤ 2000) ∧ h ≠ 0 then t else regRefused 0x5008 15 t)))
    ∧ ∀ v : U32, Writes pf 0x3000 false .wdogLimit s →
      exec (.wdogLimit v) s = .next (settle (if 10000 ≤ v.toNat ∧ v.toNat ≤ 10000000 then onWdog (fun x => { x with limit := v }) (w 0x3000)
        else regRefused 0x3000 0 (w 0x3000)))

/-- The registers of an arbiter: WINDOW waits for the next window; QUOTA keeps HIGH and COUNT, and refuses HIGH with COUNT 0, and the
debug port's ignores a write;
ARB_CLEAR zeroes the native counters; PRIO_COMMIT activates a shadow map that is a permutation with the debug port on top, else
it is rejected and recorded; PENDING_DEPTH takes 1 to 4. -/
def Obligations.ArbiterRegisters : Prop :=
  ∀ (inst : Fin 4) (s : State),
    let w (o : Nat) := written pf o s
    let a := s.arb inst.val
    let base := arbBase inst.val
    (∀ v : U32, Writes pf (base + 0x08) false (.arb inst .window) s → exec (.window inst v) s
      = .next (settle (onArb inst.val (fun a => { a with window := BitVec.ofNat 16 v.toNat }) (w (base + 0x08)))))
    ∧ (∀ (i : Fin 32) (v : U32), Writes pf (base + 0xA0 + 4 * i.val) false (.arb inst (.quota i)) s → i.val < a.debug →
      let high := v.toNat / 2 ^ 15 % 2
      let n := v.toNat % 256
      exec (.quota inst i v) s = .next (settle (
        if high = 1 ∧ n = 0 then regRefused (base + 0xA0 + 4 * i.val) (arbIsland inst.val) (w (base + 0xA0 + 4 * i.val))
        else onArb inst.val (fun a => a.onInp i.val (fun x => { x with quota := BitVec.ofNat 16 (high * 2 ^ 15 + n) })) (w (base + 0xA0 + 4 * i.val)))))
    ∧ (∀ (i : Fin 32) (v : U32), Writes pf (base + 0xA0 + 4 * i.val) false (.arb inst (.quota i)) s → a.debug ≤ i.val →
      exec (.quota inst i v) s = .next (settle (w (base + 0xA0 + 4 * i.val))))
    ∧ (Writes pf (base + 0x18) false (.arb inst .clear) s → exec (.arbClear inst) s
      = .next (settle (onArb inst.val (fun a => { a with inp := a.inp.map (fun x =>
          { x with grants := 0, wait := 0, longest := 0, waiting := 0 }) }) (w (base + 0x18)))))
    ∧ (Writes pf (base + 0x20) false (.arb inst .commit) s →
      (a.mapOk = true →
        exec (.prioCommit inst) s = .next (settle (onArb inst.val (fun a => { a with active := a.shadow }) (w (base + 0x20)))))
      ∧ (a.mapOk = false → exec (.prioCommit inst) s = .next (settle (
          logErr { code := 0x16, island := arbIsland inst.val, addr := base + 0x20 }
            (onArb inst.val (fun a => { a with reject := true }) (w (base + 0x20)))))))
    ∧ ∀ v : U32, Writes pf 0x4040 false (.arb 0 .depth) s → exec (.pendingDepth v) s = .next (settle (
        if 1 ≤ v.toNat % 8 ∧ v.toNat % 8 ≤ 4 then onArb 0 (fun a => { a with depth := BitVec.ofNat 3 (v.toNat % 8) }) (w 0x4040) else (w 0x4040)))

/-- The base and size of a cold-frame tier are written while the tier is off and empty, GROUP_ID and MEMBER_INDEX while the
Tether port is off; any other write is refused and recorded.
TETHER_CTRL: EN 0 turns the port off; EN 1 of a group of one turns it on alone, of a larger group it asserts TETHER_EN in READY, and
the leader calls the roll that forms the group; with an index or a sampler beyond the group it is refused and recorded. Its LOSS_US keeps its value on a
write of 0.
LOAD in BOOT_WAIT or FAILED starts the check of the image; in any other phase it is refused and recorded. FW_CTRL.LEN takes
the length either way.
TRACE_TAIL moves forward without passing the head; any other value is refused and recorded. -/
def Obligations.ConfigRegisters : Prop :=
  (∀ (v : U64) (s : State),
    let w (o : Nat) := written pf o s
    (∀ r : TierReg, Writes pf (tierOff r) true (.tier r) s →
      (s.tierIdle r = false → exec (.coldTierWrite r v) s = .next (settle (regRefused (tierOff r) 12 (w (tierOff r)))))
      ∧ (s.tierIdle r = true → exec (.coldTierWrite r v) s = .next (settle { (w (tierOff r)) with plots := match r with
          | .poolBase => { (w (tierOff r)).plots with poolBase := v.extractLsb' 16 48 }
          | .poolSize => { (w (tierOff r)).plots with poolSize := v.extractLsb' 0 32 }
          | .hostBase t => { (w (tierOff r)).plots with hostBase := mput t.val (v.extractLsb' 16 48) (w (tierOff r)).plots.hostBase }
          | .hostSize t => { (w (tierOff r)).plots with hostSize := mput t.val (v.extractLsb' 0 32) (w (tierOff r)).plots.hostSize } })))
    ∧ (Writes pf 0x7010 true .groupId s → exec (.groupConfigWrite .groupId v) s = .next (settle (
        if s.teth.en then regRefused 0x7010 16 (w 0x7010) else onTeth (fun t =>
          { t with
            id := v.extractLsb' 0 16
            sizeM1 := v.extractLsb' 16 10
            sampler := v.extractLsb' 32 10 }) (w 0x7010))))
    ∧ (Writes pf 0x7018 true .memberIndex s → exec (.groupConfigWrite .memberIndex v) s = .next (settle (
        if s.teth.en then regRefused 0x7018 16 (w 0x7018) else onTeth (fun t => { t with index := v.extractLsb' 0 10 }) (w 0x7018)))))
  ∧ (∀ (v : U64) (s : State), Writes pf 0x7000 true .tetherCtrl s →
    let w := written pf 0x7000 s
    let loss := v.extractLsb' 8 16
    let set : Teth → Teth := fun t =>
      { t with
        lossUs := if loss = 0 then t.lossUs else loss
        holdLimit := v.extractLsb' 24 8
        model := v.extractLsb' 32 5 }
    (v.getLsbD 0 = false → exec (.tetherCtrlEn v) s = .next (settle (onTeth (fun t =>
        { set t with
          en := false
          lock := false
          formed := false
          held := false
          ours := false
          own := [] }) { w with out := { w.out with tetherEn := false } })))
    ∧ (v.getLsbD 0 = true → s.teth.en = true → exec (.tetherCtrlEn v) s = .next (settle (onTeth set w)))
    ∧ (v.getLsbD 0 = true → s.teth.en = false →
      let legal := s.teth.index.toNat ≤ s.teth.sizeM1.toNat ∧ s.teth.sampler.toNat ≤ s.teth.sizeM1.toNat
      let on := onTeth (fun t => { set t with en := true }) w
      let lit := { on with out := { on.out with tetherEn := true } }
      (¬ legal → exec (.tetherCtrlEn v) s = .next (settle (regRefused 0x7000 16 (onTeth set w))))
      ∧ (legal → (s.teth.sizeM1 = 0 ∨ s.ctl.phase ≠ .ready) → exec (.tetherCtrlEn v) s = .next (settle on))
      ∧ (legal → s.teth.sizeM1 ≠ 0 → s.ctl.phase = .ready →
        exec (.tetherCtrlEn v) s = .next (settle (
          if s.teth.formed then holdGroup 3 lit else if lit.leader then callRoll lit else lit)))))
  ∧ (∀ (len : BitVec 23) (s : State), Writes pf 0x8008 false .fwCtrl s →
    let w := onCtl (fun c => { c with fwLen := len }) (written pf 0x8008 s)
    exec (.load len) s = .next (settle (
      if s.ctl.phase = .bootWait ∨ s.ctl.phase = .failed then setPhase .verifying (onCtl (fun c => { c with fwErr := 0 }) w)
      else regRefused 0x8008 0 w)))
  ∧ (∀ (v : U32) (s : State), Writes pf 0x6020 false .traceTail s →
    let w := written pf 0x6020 s
    exec (.traceTail v) s = .next (settle (
      if (s.trc.head - v).toNat ≤ (s.trc.head - s.trc.tail).toNat then { w with trc := { w.trc with tail := v } }
      else regRefused 0x6020 14 w)))

/-- A 32-bit write of the low half of a paired register is held. The function's next write, of its high half, writes both halves
together; with nothing held it writes the high half with the current low half. -/
def Obligations.PairedWrites : Prop :=
  ∀ (fn : Fin 17) (off base : Nat) (hi : Bool) (v : U32) (r : Reg) (s : State),
    r.paired = true → locate (absOff fn off) = some (r, base, hi) → off % 4 = 0 → inBar fn off = true →
    Known s → s.freezing = false → s.wdog.resetting.getLsbD r.island = false →
    (∀ p, pageAt (absOff fn off) = some p → (s.page p).isOpen = true) →
    let low := match mget fn.val s.port.held with
      | some (b, w) => if b = base then w.toNat else regVal s r % 2 ^ 32
      | none => regVal s r % 2 ^ 32
    exec (.pairedRegisterWrite fn off v) s = .next (settle (
      if hi then regWrite (BitVec.ofNat 64 (v.toNat * 2 ^ 32 + low)) (written fn off s) r
      else setPort (fun q => { q with held := mput fn.val (base, v) q.held }) (written fn off s)))

/-- LCC_LO: a 64-bit read returns the whole LCC; a 32-bit read latches the upper half, and the next 32-bit read of LCC_HI returns
it, whatever the LCC has become. -/
def Obligations.LccReads : Prop :=
  ∀ s : State, Known s →
    (∃ t, exec (.rcRead pf 0x1000 true) s = .next t ∧ t.port.lastRead = s.ctl.lcc)
    ∧ ∃ t, exec .lccLo s = .next t ∧ t.port.lastRead = s.ctl.lcc &&& 0xFFFFFFFF
      ∧ ∀ now : U64, ∃ u, exec (.rcRead pf 0x1004 false) { t with ctl := { t.ctl with lcc := now } } = .next u
        ∧ u.port.lastRead = s.ctl.lcc >>> 32

/-- Reads: one of a register's own width returns its value and clears its RC fields. A 32-bit read of the low half of a 64-bit
register also latches the high half; the function's next read, of that high half, returns the latch and clears nothing. GH_EVENT
gives up its oldest event. While the block is frozen, a register that the freeze responder does not answer reads 0 and keeps its
fields. -/
def Obligations.ReadsClearAndLatch : Prop :=
  (∀ (fn : Fin 17) (off : Nat) (wide : Bool) (r : Reg) (s : State), Known s → s.freezing = true → inBar fn off = true →
    off % (if wide then 8 else 4) = 0 → regAt (absOff fn off) = some r → r.wide = wide → r.answered = false →
    exec (.rcRead fn off wide) s = .next (answer 0 (readBy fn r s))) ∧
  (∀ (fn : Fin 17) (off : Nat) (wide : Bool) (r : Reg) (s : State), Reaches fn off wide r s → r ≠ .lccLo →
    exec (.rcRead fn off wide) s
      = .next (answer (regVal (readBy fn r s) r) (regClear true true (readBy fn r s) r)))
  ∧ (∀ (fn : Fin 17) (off : Nat) (r : Reg) (s : State), Reaches fn off true r s →
    let u := readBy fn r s
    exec (.readLatch fn off) s = .next (answer (regVal u r % 2 ^ 32) (setPort (fun q =>
      { q with latch := mput fn.val (absOff fn off, BitVec.ofNat 32 (regVal u r / 2 ^ 32)) q.latch }) (regClear true true u r))))
  ∧ (∀ (fn : Fin 17) (off base : Nat) (r : Reg) (w : U32) (s : State), Known s → s.freezing = false → inBar fn off = true →
    off % 4 = 0 → locate (absOff fn off) = some (r, base, true) → mget fn.val s.port.latch = some (base, w) →
    exec (.readLatch fn off) s = .next (answer w.toNat (readBy fn r s)))
  ∧ ∀ s : State, Known s → s.freezing = false →
    let u := readBy pf .ghEvent s
    exec .ghEventRead s = .next (answer (s.gh.events.headD 0).toNat { u with gh := { u.gh with events := u.gh.events.drop 1 } })

/-- A read of a legal size and alignment changes no request, tenant, step, plot, log record or port, and of a page only its error
count. -/
def Obligations.ReadsFrame : Prop :=
  ∀ (fn : Fin 17) (off bits : Nat) (v : U64) (c : Instr) (s t : State),
    ((bits = 32 ∧ off % 4 = 0) ∨ (bits = 64 ∧ off % 8 = 0)) →
    (c = .rcRead fn off (decide (bits = 64)) ∨ (bits = 32 ∧ c = .readLatch fn off) ∨ c = .lccLo ∨ c = .ghEventRead
      ∨ c = .regAccess fn off bits false v) →
    exec c s = .next t →
    t.reqs = s.reqs ∧ t.gens = s.gens ∧ t.tens = s.tens ∧ t.sow = s.sow ∧ t.disp = s.disp ∧ t.plots = s.plots
      ∧ t.elog = s.elog ∧ t.out = s.out ∧ t.seed.nodes = s.seed.nodes ∧ t.gh.slots = s.gh.slots ∧ t.gh.grafts = s.gh.grafts
      ∧ (∀ p, t.page p = { s.page p with errCount := (t.page p).errCount })

/-- An access of another size or alignment: a write has no effect and is recorded, on its page or in the error log alone; a read
returns 0. While the block is frozen such a write is dropped and counted instead. An access of a legal size and alignment to an offset that
lies in no register: a write has no effect and is recorded, on its page, whether open or closed, or in the error log; a read returns 0 and
leaves no record. -/
def Obligations.BadAccesses : Prop :=
  (∀ (fn : Fin 17) (off : Nat) (wide : Bool) (s : State), Known s → s.freezing = false → inBar fn off = true →
    off % (if wide then 8 else 4) = 0 → regAt (absOff fn off) = none → locate (absOff fn off) = none →
    let a := absOff fn off
    (∀ v : U64, s.wdog.resetting.getLsbD 17 = false → exec (.registerWrite fn off wide v) s = .next (settle (match pageAt a with
      | some p => if a % 0x10000 = 0 then written fn off s
        else pageError p (if (s.page p).isOpen then 0x02 else 0x08) (a % 0x10000) (written fn off s)
      | none => regRefused a 17 (written fn off s))))
    ∧ exec (.rcRead fn off wide) s = .next (answer 0 (setPort (fun q => { q with latch := mdel fn.val q.latch }) (ungate [17] s)))) ∧
  ∀ (fn : Fin 17) (off bits : Nat) (v : U64) (s : State), Known s → inBar fn off = true →
    ¬ (bits = 32 ∧ off % 4 = 0) → ¬ (bits = 64 ∧ off % 8 = 0) →
    (s.freezing = false → exec (.regAccess fn off bits true v) s = .next (settle (match pageAt (absOff fn off) with
      | some p => pageError p 0x02 (absOff fn off % 0x10000) (written fn off s)
      | none => regRefused (absOff fn off) 17 (written fn off s))))
    ∧ (s.freezing = true → exec (.regAccess fn off bits true v) s = .next (settle (
        onCtl (fun c => { c with droppedWrites := satAdd c.droppedWrites 1 }) (written fn off s))))
    ∧ ∃ t, exec (.regAccess fn off bits false v) s = .next t ∧ t.port.lastRead = 0

/-- A closed page: every listed register but PAGE_ID reads 0. A write to any offset but PAGE_ID's changes nothing and is recorded
as CLOSED; a write to PAGE_ID leaves no record. -/
def Obligations.ClosedPage : Prop :=
  ∀ (fn : Fin 17) (off : Nat) (wide : Bool) (p : Nat) (s : State), Known s → s.freezing = false → inBar fn off = true →
    off % (if wide then 8 else 4) = 0 → pageAt (absOff fn off) = some p → (s.page p).isOpen = false →
    (∀ v : U64, s.wdog.resetting.getLsbD (islandAt (absOff fn off)) = false →
      exec (.registerWrite fn off wide v) s = .next (settle (
        if absOff fn off % 0x10000 = 0 then written fn off s else pageError p 0x08 (absOff fn off % 0x10000) (written fn off s))))
    ∧ ∀ r : PReg, (∃ q : Fin 17, q.val = p ∧ regAt (absOff fn off) = some (.page q r)) → r ≠ .pageId → r.wide = wide →
      ∃ t, exec (.rcRead fn off wide) s = .next t ∧ t.port.lastRead = 0

/-! ### Block control -/

/-- BLOCK_RESET: the phase is INIT, every page is closed, and the registers of the watchdog and the arbiters stand at their
reset values, as do the cold frame's; the LCC, the error log, the requests and the model slots are kept. While frozen it waits for the
thaw. -/
def Obligations.BlockResetStarts : Prop :=
  ∀ (src : ResetFrom) (s : State), Known s → Sizes s →
    (s.freezing = true → exec (.blockReset src) s = .next (onCtl (fun c => { c with latchReset := true })
      (match src with | .ctrl => discardLow pf.val (ungate [] s) | .warm => ungate [] s)))
    ∧ (s.freezing = false → ∃ t, exec (.blockReset src) s = .next t ∧ t.ctl.phase = .init ∧ t.ctl.lcc = s.ctl.lcc
      ∧ t.ctl.dormant = false ∧ t.ctl.resumeHold = false ∧ (∀ p, (t.page p).isOpen = false) ∧ (t.page mgmt).gen = (s.page mgmt).gen
      ∧ t.wdog.limit = 100000 ∧ t.wdog.stalled = false ∧ t.wdog.resetting = 0
      ∧ t.arbs = [Arb.reset 32 true, Arb.reset 8 false, Arb.reset 8 false, Arb.reset 8 false]
      ∧ t.elog = s.elog ∧ t.reqs = s.reqs ∧ t.gh.slots = s.gh.slots ∧ t.seed.nodes = s.seed.nodes ∧ t.tens = s.tens
      ∧ t.plots = { s.plots with poolEn := false, hostEn := false, poolBase := 0, poolSize := 0, hostBase := [], hostSize := [] })

/-- DORMANT set to 1 in READY starts the entry; in another phase, while stalled, or on a member of a group it is refused and
recorded. DORMANT set to 0 while dormant starts waking, and while the entry goes on it follows it; else it changes nothing. While frozen
either waits for the thaw. -/
def Obligations.DormantControl : Prop :=
  (∀ s : State, Known s → (s.ctl.dormant = false → exec .dormantExit s = .next (discardLow pf.val (ungate [] s))) ∧ (s.freezing = true →
    (s.noDormant = false → exec .dormantEnter s
      = .next (onCtl (fun c => { c with latchSleep := true, dormant := true }) (discardLow pf.val (ungate [] s))))
    ∧ (s.noDormant = true → exec .dormantEnter s = .next (regRefused 0x18 0 (discardLow pf.val (ungate [] s))))
    ∧ (s.ctl.dormant = true → exec .dormantExit s = .next (onCtl (fun c =>
        { c with
          latchSleep := false
          latchWake := !c.latchSleep
          dormant := false }) (discardLow pf.val (ungate [] s))))))
  ∧ ∀ s : State, Known s → s.freezing = false →
    (s.ctl.phase = .ready → s.wdog.stalled = false → (s.teth.en = false ∨ s.teth.sizeM1 = 0) →
      exec .dormantEnter s = .next (vecEvent mgmt 6 (onCtl (fun c =>
        { c with
          dormant := true
          wakeNext := false
          entrySealed := false
          phase := .sleeping }) (discardLow pf.val (ungate [] s)))))
    ∧ ((s.ctl.phase ≠ .ready ∨ s.wdog.stalled = true ∨ (s.teth.en = true ∧ s.teth.sizeM1 ≠ 0)) →
      exec .dormantEnter s = .next (regRefused 0x18 0 (discardLow pf.val (ungate [] s))))
    ∧ (s.ctl.dormant = true →
      (s.ctl.phase = .dormant → exec .dormantExit s = .next (vecEvent mgmt 6 (onCtl (fun c =>
        { c with
          dormant := false
          phase := .waking }) (discardLow pf.val (ungate [] s)))))
      ∧ (s.ctl.phase = .sleeping → exec .dormantExit s = .next (onCtl (fun c =>
        { c with
          dormant := false
          wakeNext := true }) (discardLow pf.val (ungate [] s)))))

/-- FREEZE by either source: the first stops the LCC at FREEZE_LCC, counts the freeze and drops TETHER_EN, and a lock is lost; the islands
then stop rank by rank (StepIdle). While dormant it sets FROZEN alone. Once ranks 1 to 4 have stopped, FREEZE_DONE stops the last island,
NOCB, and sets FROZEN.
A freeze source that clears while the other stands changes only its own bit; when both are clear the block thaws.
RESUME_HOLD written with 1 clears. -/
def Obligations.FreezeSources : Prop :=
  (∀ s : State, Known s →
    (s.freezing = false → s.ctl.phase ≠ .dormant →
      let stop : State → State := fun u =>
        { u with
          ctl := { u.ctl with
            freezeLcc := u.ctl.lcc
            freezes := satInc u.ctl.freezes
            stopped := 0 }
          out := { u.out with tetherEn := false }
          teth := if u.teth.lock then { u.teth with lock := false, brk := true } else u.teth }
      exec .freezeSet s = .next (stop (onCtl (fun c => { c with byCtrl := true }) (discardLow pf.val (ungate [] s))))
      ∧ exec .freezeSignal s = .next (stop (onCtl (fun c => { c with byDebug := true }) (ungate [] s))))
    ∧ (s.freezing = false → s.ctl.phase = .dormant →
      exec .freezeSet s = .next (onCtl (fun c => { c with byCtrl := true, frozen := true }) (discardLow pf.val (ungate [] s)))
      ∧ exec .freezeSignal s = .next (onCtl (fun c => { c with byDebug := true, frozen := true }) (ungate [] s)))
    ∧ (s.freezing = true →
      exec .freezeSet s = .next (onCtl (fun c => { c with byCtrl := true }) (discardLow pf.val (ungate [] s)))
      ∧ exec .freezeSignal s = .next (onCtl (fun c => { c with byDebug := true }) (ungate [] s)))
    ∧ (s.freezing = true → s.ctl.frozen = false → s.ctl.stopped = 0x1FFFE → exec .freezeDone s
      = .next (onCtl (fun c => { c with frozen := true, stopped := 0x3FFFE }) (ungate [] s)))
    ∧ ((s.freezing = false ∨ s.ctl.frozen = true ∨ s.ctl.stopped ≠ 0x1FFFE) → exec .freezeDone s = .next (ungate [] s)))
  ∧ (∀ s : State, Known s →
    (s.ctl.byCtrl = true →
      let u := onCtl (fun c => { c with byCtrl := false }) (discardLow pf.val (ungate [] s))
      exec .freezeClear s = .next (settle (if s.ctl.byDebug then u else thaw u)))
    ∧ (s.ctl.byDebug = true →
      let u := onCtl (fun c => { c with byDebug := false }) (ungate [] s)
      exec .freezeSignalClear s = .next (settle (if s.ctl.byCtrl then u else thaw u)))
    ∧ (s.ctl.byCtrl = false → exec .freezeClear s = .next (settle (discardLow pf.val (ungate [] s))))
    ∧ (s.ctl.byDebug = false → exec .freezeSignalClear s = .next (settle (ungate [] s)))
    ∧ exec .resumeHold s = .next (settle (onCtl (fun c => { c with resumeHold := false }) (discardLow pf.val (ungate [] s)))))

/-! ### Events: power, phases and islands -/

/-- DROOP is recorded for its island; DEBUG_READOUT returns the registers and the SRAM of its island while the block is frozen, and zeros
otherwise, and changes nothing else but the model's count of free values; IDLE_GATE gates the clock of an island that has had no
work for 1 µs; at ISLAND_RESET_DONE the writes held for the island are applied in their order.
INT_COAL_RAISE: the vector is raised when it is enabled, an event is pending, and the count is reached, or TIME is 0, or TIME has
passed since the oldest; then nothing is pending. The message of a masked vector is held, and goes out once the vector is no longer
masked. Otherwise nothing changes. -/
def Obligations.IslandEvents : Prop :=
  (∀ (i : Fin 18) (s : State), Known s →
    exec (.droop i) s = .next (onPwr (fun w => { w with droop := w.droop ||| BitVec.ofNat 18 (2 ^ i.val) }) (ungate [15, i.val] s))
    ∧ exec (.debugReadout i) s = .next { s with
        out := { s.out with readout := s.out.readout ++ [if s.ctl.frozen then ⟨i.val, s.islandRegs i.val, s.sram i.val⟩
          else ⟨i.val, [], .zeros⟩] }
        free := s.free + 1 }
    ∧ exec (.idleGate i) s = .next (if s.busy i.val = true ∨ s.ctl.lcc.toNat < (s.ctl.worked.getD i.val 0).toNat + 1000
          ∨ s.ctl.phase = .dormant ∨ s.freezing = true then s
        else onCtl (fun c => { c with gated := c.gated ||| BitVec.ofNat 18 (2 ^ i.val) }) s)
    ∧ (s.freezing = false → s.wdog.resetting.getLsbD i.val = true → exec (.islandResetDone i) s = .next (settle
        (each (s.wdog.heldWrites.filter (fun w => w.island = i.val)) (fun w s => writeWith w.fn.val w.off w.wide w.v w.low s)
          (onWdog (fun w =>
            { w with
              resetting := w.resetting &&& ~~~(BitVec.ofNat 18 (2 ^ i.val))
              heldWrites := w.heldWrites.filter (fun x => x.island ≠ i.val) }) (ungate [i.val] s)))))
    ∧ ((s.freezing = true ∨ s.wdog.resetting.getLsbD i.val = false) →
      exec (.islandResetDone i) s = .next (settle (ungate [i.val] s))))
  ∧ (∀ (page : Fin 17) (v : Fin 8) (s : State), Known s → s.freezing = false →
    let x := (s.page page.val).vecs.getD v.val {}
    let ripe := x.en = true ∧ 0 < x.pending ∧
      ((if x.count = 0 then 1 else x.count.toNat) ≤ x.pending ∨ x.time = 0 ∨ x.oldest.toNat + x.time.toNat * 1000 ≤ s.ctl.lcc.toNat)
    let masked := (page.val, v.val) ∈ s.out.masked
    let held := (page.val, v.val) ∈ s.out.held
    let cleared (o : Out) := { ungate [17] s with out := o }.onPage page.val (fun g =>
      { g with vecs := lupd v.val (fun w => { w with pending := 0 }) g.vecs })
    let sent := { s.out with msix := s.out.msix ++ [(page.val, v.val)], held := s.out.held.filter (fun k => k ≠ (page.val, v.val)) }
    (ripe → ¬ masked → exec (.intCoalRaise page v) s = .next (cleared sent))
    ∧ (ripe → masked → ¬ held → exec (.intCoalRaise page v) s
        = .next (cleared { s.out with held := s.out.held ++ [(page.val, v.val)] }))
    ∧ (ripe → masked → held → exec (.intCoalRaise page v) s = .next (cleared s.out))
    ∧ (¬ ripe → held → ¬ masked → ∃ t, exec (.intCoalRaise page v) s = .next t ∧ t.out = sent)
    ∧ (¬ ripe → ¬ (held ∧ ¬ masked) → exec (.intCoalRaise page v) s = .next (ungate [17] s)))

/-- POWER_SAMPLE: the gap since the last sample is counted, an implausible MODULE or COOLANT is flagged, and the sample's energy,
1,250 nJ for each 0.125 W, goes to the step's interval or to the unattributed energy. Each node takes its channel: a value of 0xFFFF, or above
800 W of a die region or 150 W of a stack, flags it, and it is taken at the largest value delivered since the channel was last unflagged; its
first plausible value unflags it. A change of a flag raises vector 4. While the block is frozen or dormant a sample is dropped. -/
def Obligations.PowerSampleTaken : Prop :=
  (∀ (p : Sample) (s : State), Known s → (s.freezing = true ∨ s.ctl.phase = .dormant) →
    exec (.powerSample p) s = .next (ungate [15] s))
  ∧ ∀ (p : Sample) (s : State), Known s → s.freezing = false → s.ctl.phase ≠ .dormant →
    ∃ t, exec (.powerSample p) s = .next (if t.sensorFlags = s.sensorFlags then t else vecEvent mgmt 4 t)
      ∧ t.pwr.seq = p.seq ∧ t.pwr.silent = false ∧ t.pwr.lastAt = s.ctl.lcc
      ∧ t.pwr.missed = satAdd s.pwr.missed (if s.pwr.gotAny then (p.seq - s.pwr.seq - 1).toNat else 0)
      ∧ (t.pwr.modFlag = true ↔ (p.module = 0xFFFF ∨ 24000 < p.module.toNat))
      ∧ (t.pwr.coolFlag = true ↔ ¬ (-320 ≤ p.coolant.toInt ∧ p.coolant.toInt ≤ 1280))
      ∧ (t.pwr.coolFlag = true → t.pwr.coolant = s.pwr.coolant) ∧ (t.pwr.coolFlag = false → t.pwr.coolant = p.coolant.toInt)
      ∧ t.pwr.nodes.length = 24
      ∧ (∀ i, i < 24 →
        let v := p.nodes.getD i 0xFFFF
        let old := s.node i
        let good := v ≠ 0xFFFF ∧ v.toNat ≤ (if i < 12 then 6400 else 1200)
        let most := if v = 0xFFFF ∨ (¬ (good ∧ old.flagged = true) ∧ v.toNat ≤ old.maxP.toNat) then old.maxP else v
        let taken := if good then v else most
        t.node i = { old with
          flagged := decide (¬ good)
          maxP := most
          lastP := taken
          sum := old.sum + taken.toNat
          n := old.n + 1 })
      ∧ (let units := if t.pwr.modFlag then (t.pwr.nodes.map (fun n => n.lastP.toNat)).sum else p.module.toNat
        (s.led.inInt = true → t.led = { s.led with curNj := s.led.curNj + units * 1250 })
        ∧ (s.led.inInt = false → t.led = { s.led with unattr := s.led.unattr + BitVec.ofNat 64 (units * 1250) }))
      ∧ t.pwr.ladders = s.pwr.ladders ∧ t.pages = s.pages ∧ t.reqs = s.reqs ∧ t.tens = s.tens ∧ t.wdog = s.wdog ∧ t.elog = s.elog

/-- The changes of PHASE: an image is read, and one that verifies leads to INIT and READY, with the atomic region reserved, one that does
not to FAILED; in a block reset the image is read and checked again before READY. A block reset and a wake end READY; a dormant entry powers
down once its seal has run and its work has drained. Where the port is on in a group, READY asserts TETHER_EN (`tetherOn`). -/
def Obligations.PhasesChange : Prop :=
  ∀ s : State, Known s → s.freezing = false →
    (∀ seen, s.ctl.phase = .verifying →
      let u := imageRead seen (ungate [1] s)
      let img := s.imageOf seen
      exec (.imageVerified seen) s = .next (if imageErr seen s = 0 then setPhase .init (onCtl (fun c =>
        { c with
          initOf := .start
          fwAccepted := true
          fwLine := 3
          fwMinor := BitVec.ofNat 8 (imgFld img 9 1)
          fwBuild := BitVec.ofNat 16 (imgFld img 10 2)
          fwKey := keyOf img
          fwDigest := imageDigest img
          fwCores := coreDigests img
          fwTexts := imageTexts img
          gdnClear := false }) u) else imageFail (imageErr seen s) u))
    ∧ (∀ seen, s.ctl.phase = .init → s.ctl.initOf = .blockReset →
      let u := imageRead seen (ungate [1] s)
      exec (.imageVerified seen) s = .next (if rereadErr seen s = 0 then onCtl (fun c => { c with fwReread := true }) u
        else imageFail (rereadErr seen s) u))
    ∧ (s.ctl.phase = .init → s.ctl.initOf = .start → exec .ready s
      = .next (settle (tetherOn (setPhase .ready (thermalStart (onCtl (fun c => { c with atomic := some Config.atomicBase })
          ((fillFixed (ungate [1] s)).onPage mgmt (fun g => { g with isOpen := true }))))))))
    ∧ (∀ refused, s.ctl.phase = .init → s.ctl.initOf = .blockReset →
      let u := ungate gdnIslands s
      let kept := keepModels (clearStores (each (s.reqs.map (fun e => e.2.handle)) (resetEnd refused) u))
      let run := (thermalStart (restartBeds kept)).onPage mgmt (fun g => { g with gen := g.gen + 1, isOpen := true })
      (s.ctl.fwAccepted = true → s.ctl.fwReread = true → exec (.blockResetReady refused) s = .next (settle (tetherOn (setPhase .ready
        (onCtl (fun c => { c with blockResets := satInc c.blockResets, fwReread := false }) run)))))
      ∧ (s.ctl.fwAccepted = true → s.ctl.fwReread = false → exec (.blockResetReady refused) s = .next (settle u))
      ∧ (s.ctl.fwAccepted = false → exec (.blockResetReady refused) s = .next (settle (imageFail 5 u))))
    ∧ (∀ seen, s.ctl.phase = .waking →
      let u := imageRead seen (ungate gdnIslands s)
      let run := thermalStart (resetArbs (clearLedger (clearCounters (reloadTiles (each (List.range 8) reattach u)))))
      exec (.wakeDone seen) s = .next (settle (if rereadErr seen s = 0 then
          tetherOn (setPhase .ready (onCtl (fun c => { c with resumeHold := true }) run))
        else imageFail (rereadErr seen s) u)))
    ∧ (s.ctl.phase = .sleeping → s.wdog.stalled = false →
      let t := sealNoStepOp (ungate gdnIslands s)
      exec .dormantEntryDone s = .next (if t.ctl.entrySealed && t.drained then powerDown t else t))

/-! ### Events: reports and NoC traffic -/

/-- NoC traffic into the block is taken while it runs, or waits for the gardener core that takes it while the core restarts; it is held
in arrival order while the block is frozen, and dropped otherwise. An event of the block's own work changes nothing while the block is frozen
or does not run. But a stalled block goes on to write its error log: a write into the atomic region, a refused access, poison, a core's fault
and an SRAM error are recorded there, the SRAM errors of AON and NOCB as a further fatal fault, and its gardener cores restart. -/
def Obligations.TrafficHeldOrDropped : Prop :=
  (∀ (c : Instr) (s : State), isOwn c = true → Known s →
    (s.freezing = true ∨ (s.awake = false ∧ (s.wdog.stalled = false ∨ isLogged c = false))) → ∃ is, exec c s = .next (ungate is s))
  ∧ (∀ (c : Instr) (s : State), isTraffic c = true → Known s →
    let u := ungate (trafficIslands c s) s
    (Runs s → (s.takerOf c).any s.gdnDown = false → exec c s = .next (settle (nocApply c u)))
    ∧ (Runs s → (s.takerOf c).any s.gdnDown = true →
      exec c s = .next (settle (onWdog (fun w => { w with gdnWaits := w.gdnWaits ++ [c] }) u)))
    ∧ (s.freezing = true → exec c s = .next { u with nocHeld := s.nocHeld ++ [c] })
    ∧ (s.freezing = false → s.awake = false → (∀ addr core unit bed ctx, c ≠ .atomicWrite addr core unit bed ctx) →
      (s.wdog.stalled = false ∨ ((∀ r, c ≠ .hostAccessRefused r) ∧ (∀ p, c ≠ .poisonIndication p) ∧ ∀ f, c ≠ .coreFault f)) →
      exec c s = .next u))
  ∧ ∀ s : State, Known s → s.freezing = false → s.wdog.stalled = true →
    let u (c : Instr) := ungate (trafficIslands c s) s
    let e (a : SramAt) := ungate (sramIslands a) s
    (∀ r, exec (.hostAccessRefused r) s = .next (settle (hostRecord r (u (.hostAccessRefused r)))))
    ∧ (∀ addr core unit (bed : Fin 32) (ctx : Fin 4),
      let v := u (.atomicWrite addr core unit bed ctx)
      exec (.atomicWrite addr core unit bed ctx) s = .next (settle (
        if s.inAtomic addr.toNat = true ∧ ¬ (core = true ∧ s.wdog.fenced.contains unit = true) then logErr
          { code := 0x06, scope := 2, island := 17, origin := if core then 1 else 2, unit, bed := some (bed.val, ctx.val),
            addr := addr.toNat } v
        else v)))
    ∧ (∀ p, exec (.poisonIndication p) s
      = .next (settle (logErr ((u (.poisonIndication p)).poisonRec p) (u (.poisonIndication p)))))
    ∧ (∀ f : CoreFault, s.wdog.fenced.contains f.core = false →
      exec (.coreFault f) s = .next (settle (logErr ((u (.coreFault f)).coreRec f) (u (.coreFault f)))))
    ∧ (∀ row, exec (.sramUe (.row row)) s = .next (settle (logErr
        ((e (.row row)).rowRec { code := 0x14, detail := 9, island := 9 } row none) (e (.row row)))))
    ∧ exec (.sramUe .nodeCache) s = .next (settle (logErr { code := 0x14, scope := 0, detail := 13, island := 13 } (e .nodeCache)))
    ∧ (∀ (i : Fin 18) lost, (i = 0 ∨ i = 17) → exec (.sramUe (.other i lost)) s = .next (settle (fatal 0x14 (logErr
        { code := 0x14, scope := 7, detail := i.val, island := i.val } (e (.other i lost))))))
    ∧ (∀ (i : Fin 18) lost, 9 ≤ i.val → i ≠ 17 → exec (.sramUe (.other i lost)) s = .next (settle (logErr
        { code := 0x14, scope := 4, detail := i.val, island := i.val } (e (.other i lost)))))
    ∧ ∀ (c : Fin 8) why, exec (.gdnRestart c why) s = .next (gdnRestart c.val (ungate [c.val + 1] s))

/-- Reports: poison in weights taints its region, poison in a Seedbed node clears the node; a refused ring access stops the rings
of its page, a refused trace write the trace; a stray atomic and a failed context swap tear their bed context down; an error in
the Seedbed node cache empties it, one in a gardener core's SRAM restarts the core, in AON or NOCB it is fatal, and in another island
that island is reset, and the requests whose state is lost end with FAULT. -/
def Obligations.ReportsTaken : Prop :=
  ∀ s : State, Runs s →
    let u (is : List Nat) := ungate is s
    let poisoned (p : Poison) := let v := u (poisonIslands p s); logErr (v.poisonRec p) v
    (∀ (p : Poison) m r, p.place = .weights m r →
      (poisoned p) = logErr { code := 0x10, island := 17, origin := if p.core then 1 else 2, unit := p.unit, addr := p.addr.toNat,
                              step := p.step.toNat } (u [1, 17])
      ∧ exec (.poisonIndication p) s = .next (settle (checkEnd (poisonWeights m.val r p (poisoned p)))))
    ∧ (∀ (p : Poison) n x, p.place = .node n → mget n s.seed.nodes = some x →
      (poisoned p) = logErr { code := 0x13, detail := 4, island := 17, origin := if p.core then 1 else 2, unit := p.unit,
                              addr := p.addr.toNat, step := p.step.toNat } (u [13])
      ∧ exec (.poisonIndication p) s = .next (settle (clearNode n (keepFrame x.plot (poisoned p)))))
    ∧ (∀ (p : Fin 17) (a : U64), ((s.page p.val).sqEn = true ∨ (s.page p.val).cqEn = true) →
      exec (.hostAccessRefused (.ring p a)) s = .next (settle (hostFault p.val 1 a.toNat 0 (pageError p.val 0x07 a.toNat
        ((u (s.pageIslands p.val)).onPage p.val (fun g =>
          { g with
            faultStop := true
            sqEn := false
            cqEn := false
            waiting := []
            ring := []
            begun := 0
            started := g.started.map (fun x => { x with mute := true }) }))))))
    ∧ (∀ a : U64, exec (.hostAccessRefused (.trace a)) s
      = .next (settle (hostFault mgmt 0 a.toNat 0 { u [14, 17] with trc :=
        { (u [14, 17]).trc with en := false, bufs := List.replicate 11 [] } })))
    ∧ (∀ addr core unit bed ctx, s.inAtomic addr.toNat = false → exec (.atomicWrite addr core unit bed ctx) s = .next (settle (u [17])))
    ∧ (∀ addr core unit bed ctx, s.inAtomic addr.toNat = true → ¬ (core = true ∧ s.wdog.fenced.contains unit = true) →
      exec (.atomicWrite addr core unit bed ctx) s = .next (settle (teardownNamed bed.val ctx.val (logErr
        { code := 0x06, scope := 2, island := 17, origin := if core then 1 else 2, unit, bed := some (bed.val, ctx.val),
          addr := addr.toNat } (u [17])))))
    ∧ (∀ f : CoreFault, s.wdog.fenced.contains f.core = false → f.kind = .swapSave →
      exec (.coreFault f) s = .next (settle (teardownNamed f.bed.val f.ctx.val (logErr
        { code := 0x07, scope := 2, detail := 4, island := 10, origin := 1, unit := f.core, bed := some (f.bed.val, f.ctx.val) }
        (u [10])))))
    ∧ exec (.sramUe .nodeCache) s = .next (settle (onSeed (fun d => { d with cache := [] })
        (logErr { code := 0x14, scope := 0, detail := 13, island := 13 } (u [13]))))
    ∧ (∀ c : Fin 8, exec (.sramUe (.gardener c)) s = .next (settle (gdnRestart c.val (logErr
        { code := 0x14, scope := 5, detail := 1 + c.val, island := 1 + c.val, unit := c.val } (u [c.val + 1])))))
    ∧ (∀ (i : Fin 18) lost, (i = 0 ∨ i = 17) → exec (.sramUe (.other i lost)) s = .next (settle (fatal 0x14 (logErr
        { code := 0x14, scope := 7, detail := i.val, island := i.val } (u [i.val])))))
    ∧ ∀ (i : Fin 18) lost, 9 ≤ i.val → i ≠ 17 → exec (.sramUe (.other i lost)) s = .next (settle (each lost (fun h s => endCause h 0x30 s)
        (islandReset i.val 0x14 false (logErr { code := 0x14, scope := 4, detail := i.val, island := i.val } (u [i.val])))))

/-! ### Events: the step -/

/-- The layout of the next step, its seal, the seal without a step and the release of records, where the Sower may run them. A layout
without a row is kept by the leader of a group alone, while it has something to tell its members. -/
def Obligations.StepsSealed : Prop :=
  ∀ s : State, Runs s →
    let u (is : List Nat) := ungate is s
    (s.mayLayOut = true →
      let a := layOut (u [9])
      let num := s.sow.step + 1 + BitVec.ofNat 64 s.sow.laid.length
      exec .layout s = .next (settle (restores (if a.2.members = [] ∧ a.2.fallen = [] ∧ a.1.mustTell = false
        then { a.1 with sow := { a.1.sow with back := a.2.back } }
        else sendManifest num a.2 { a.1 with sow := { a.1.sow with laid := a.1.sow.laid ++ [a.2] } }))))
    ∧ (s.stepLaid = true → (∀ x, s.sow.exec = some x → x.ended = true) → s.composing = true →
      s.ctl.phase = .ready → s.teth.held = false → (s.grouped = false ∨ s.leader = true) →
      exec .seal s = .next (settle (sealStep (u [9]))))
    ∧ (s.composing = true → s.ctl.phase = .ready → (∀ x, s.sow.exec = some x → x.ended = true) → s.grouped = true → s.leader = false →
      s.teth.formed = true → exec .seal s = .next (settle (followSeal (u [9]))))
    ∧ (s.ctl.phase = .ready → s.ctl.resumeHold = false → (∀ x, s.sow.exec = some x → x.ended = true) → s.stepLaid = false →
      exec .sealWithoutStep s = .next (settle (restores (sealNoStep (u [9])))))
    ∧ exec .spoolRelease s = .next (settle (releaseAllRecs (u [14])))

/-- The work of a step: the acknowledged argument block starts the dispatch of work placed as the Sower places it, on gates that are
free, and with other work has no effect (the model's choice, log entry 66); items are delivered, parked and completed, and a core that
rejects one returns it; a stack item and a collective of the executing step end; partial lists and guess records reach their open rows,
and those of a fenced core are dropped. -/
def Obligations.StepWorkDone : Prop :=
  ∀ s : State, Runs s →
    let u (is : List Nat) := ungate is s
    (∀ (w : StepWork) x, s.sow.exec = some x → x.dispatched = false →
      let v := u [9, 10, 14]
      let placed := w.items.all (itemPlaced v x) = true ∧ w.stack.all (stackPlaced v x) = true ∧ (gatesOf w.items).all v.gateFree = true
      (placed → exec (.argumentBlockAck w) s = .next (settle (dispatchStep w v)))
      ∧ (¬ placed → exec (.argumentBlockAck w) s = .next (settle v)))
    ∧ (∀ c i rest x, s.disp.await = (c, i) :: rest → s.item i = some x →
      let v := onDisp (fun d => { d with await := rest }) (u [10])
      let sent := { v with out := { v.out with inbox := v.out.inbox ++ [⟨c, .work i⟩] } }
      (s.accepts c x = true →
        let hit := b2n (decide (x.affinity = some (BitVec.ofNat 10 c)))
        let v := onItem i (fun y => { y with state := .running c }) (onCore c (fun k => { k with running := some i, since := s.ctl.lcc })
          (trace 0 0 0 none 0 i (c + hit * 65536) (x.bed + x.ctx * 32) sent))
        ((∀ w, (s.bed x.bed).sw = some w → w.out.contains x.ctx = false) → exec .workItemDeliver s = .next (schedule v))
        ∧ ∀ w, (s.bed x.bed).sw = some w → w.out.contains x.ctx = true → exec .workItemDeliver s = .next (schedule (flagCore c none v)))
      ∧ (s.accepts c x = false → exec .workItemDeliver s = .next (schedule (reissue i sent))))
    ∧ (∀ core busy k i x, s.core core = some k → k.running = some i → s.item i = some x →
      let v := onItem i (fun y => { y with state := .complete core busy }) (onCore core (fun k => { k with running := none }) (u [10, 15, 17]))
      let w := releaseAll s.disp.items.length v
      exec (.workItemComplete core busy) s = .next (settle (checkEnd (coreDone core
        (if x.bound = true then w else each x.rows layersDone w)))))
    ∧ (∀ core k i, s.core core = some k → k.running = some i → k.flagged = true → k.leaving = false →
      exec (.tileBoundaryPark core) s = .next (settle (coreDone core (orphanGone core (onCore core (fun k =>
        { k with running := none, flagged := false }) (onItem i (fun y => { y with state := .parked core }) (u [10, 17])))))))
    ∧ (∀ core k i, s.core core = some k → k.running = some i → k.flagged = true → k.leaving = true →
      exec (.tileBoundaryPark core) s = .next (settle (schedule (coreLeft core (u [10, 17])))))
    ∧ (∀ idx ns sb nb x i, s.sow.exec = some x → x.stack.find? (fun i => i.idx = idx) = some i →
      (s.stackHeld i = false → exec (.stackItemComplete idx ns sb nb) s = .next (settle (stackComplete idx ns sb nb (u [9, 15, 17]))))
      ∧ (s.stackHeld i = true → exec (.stackItemComplete idx ns sb nb) s = .next (settle (u [9, 15, 17]))))
    ∧ (∀ x, s.sow.exec = some x → x.coll ≠ 0 →
      let v := u [9, 15, 16]
      exec .collectiveComplete s = .next (settle (checkEnd (collsOver (progressNow
        { v with sow := { v.sow with exec := some { x with coll := x.coll - 1 } } })))))
    ∧ (∀ (l : PList), ((l.core = true ∧ s.wdog.fenced.contains l.unit = true) → exec (.partialList l) s = .next (settle (u [11, 17])))
      ∧ (s.laneOf l.row = none → ¬ (l.core = true ∧ s.wdog.fenced.contains l.unit = true) →
        exec (.partialList l) s = .next (settle (listMerges l (u [11, 17]))))
      ∧ ∀ k, s.laneOf l.row = some k → ¬ (l.core = true ∧ s.wdog.fenced.contains l.unit = true) →
        exec (.partialList l) s = .next (settle (drainLane k 17 (routeList l k (u [11, 17])))))
    ∧ ∀ (g : Guess) p, s.openRow g.row g.parity = some p → g.dpos.toNat ≤ p.d → g.heads.toNat ≤ 4 →
      (p.pos.getD g.dpos.toNat {}).guess = none → ¬ (g.core = true ∧ s.wdog.fenced.contains g.unit = true) →
      exec (.guessRecord g) s = .next (settle (checkEnd (progressNow (onPRow p.row (fun r =>
        { r with pos := lupd g.dpos.toNat (fun x => { x with guess := some (g.guesses.take g.heads.toNat) }) r.pos }) (u [11, 17])))))

/-- Bed contexts: a switch starts where R164 and R165 give one, its saves and its restores end, a torn-down context serves again
where it fits, and a joining core takes its first item. -/
def Obligations.ContextsSwitch : Prop :=
  ∀ s : State, Runs s →
    let u := ungate [10, 17] s
    (∀ (b : Fin 32) c m, (s.bed b.val).sw = none → switchIn s b.val = some c → (s.ctx b.val c).model = some m →
      exec (.contextSwitchStart b) s = .next (switchStart b.val (ungate [10] s)))
    ∧ (∀ (b : Fin 32) w, (s.bed b.val).sw = some w → w.phase = .save → exec (.swapSaveDone b) s
      = .next (settle (swapItems b.val (.restore b.val w.inc)
          (onBed b.val (fun x => { x with sw := some { w with phase := .restore, swaps := s.bedCores b.val } }) u))))
    ∧ (∀ (b : Fin 32) busy w, (s.bed b.val).sw = some w → w.phase = .restore → exec (.contextRearm b busy) s
      = .next (settle (rearm b.val (chargeSwap b.val w.inc (coreNs busy) u))))
    ∧ (∀ (b : Fin 32) (c : Fin 4) busy, (s.ctx b.val c.val).tearing = true →
      let v := onCtx b.val c.val (fun x => { x with tearing := false })
        (trace 5 0 0 none 0 (c.val + 65536 + 131072) 0 b.val (overhead (coreNs busy) u))
      let back : Prop := ∃ m, (v.ctx b.val c.val).model = some m ∧ v.slotUp m.toNat = true ∧ v.fits b.val [] m.toNat = true
      (back → exec (.teardownEnd b c busy) s = .next (settle (schedule (onCtx b.val c.val (fun x => { x with resident := true }) v))))
      ∧ (¬ back → exec (.teardownEnd b c busy) s = .next (settle (schedule v))))
    ∧ ∀ core k, s.core core = some k → k.joining = true → exec (.joiningCoreRestoreDone core) s
      = .next (settle (schedule (coreFree core (onCore core (fun k => { k with joining := false }) u))))

/-! ### Events: completions of the block's own work -/

/-- Copies from the host, spool tails, SELECT jobs and cold-frame moves end. A report that a gardener core takes is taken while that
core does not restart. -/
def Obligations.CopiesEnd : Prop :=
  ∀ s : State, Runs s →
    let on (p : Nat) := ungate (s.pageIslands p) s
    let cold := ungate [12, 17] s
    (∀ h toks r, s.gdnDown (s.page (hTenant h)).gardener.toNat = false → s.reqH h = some r → r.copied = false →
      toks.length = r.adm.promptLen.toNat →
      exec (.promptCopied h toks) s = .next (settle (promptCopied h toks (on (hTenant h)))))
    ∧ (∀ h toks r f, s.gdnDown (s.page (hTenant h)).gardener.toNat = false → s.reqH h = some r → s.extendOf h = some f →
      toks.length = f.count.toNat → (r.state = .paused ∨ r.state = .cold) →
      exec (.extendTokensCopied h toks) s = .next (settle (extendCopied h toks (on (hTenant h)))))
    ∧ (∀ (page : Fin 17) tag es f, s.gdnDown (s.page page.val).gardener.toNat = false → s.biasOf page.val tag = some f →
      es.length = f.biasCount.toNat →
      let v := putReads (s.biasReads page.val f) (on page.val)
      exec (.biasListCopied page tag es) s = .next (settle (match sumBias es [] with
        | some l => finishTag page.val tag Wait.isBias stOk [] (setProfile page.val f l v)
        | none => finishTag page.val tag Wait.isBias stBadField [] v)))
    ∧ (∀ (page : Fin 17) tag seen f, s.selectOf page.val tag = some f → seen.rows.length = f.rows.toNat → rowsFit f seen.rows = true →
      let u := ungate (11 :: s.pageIslands page.val) s
      (s.lanesFree = true → exec (.selectDone page tag seen) s = .next (settle (selectEnd page.val tag f seen.rows [] stOk u)))
      ∧ (s.lanesFree = false → exec (.selectDone page tag seen) s = .next (settle u)))
    ∧ exec .spoolTailPoll s = .next (tailPoll (ungate [14, 17] s))
    ∧ (∀ (t : Fin 16) (k : U16) (tail : U32) sp, s.spool t.val k.toNat = some sp → sp.broken = false →
      let v := tailGone t.val k.toNat (ungate [14, 17] s)
      let w := onSpool t.val k.toNat (fun sp => { sp with tail := tail }) v
      ((sp.head - tail).toNat ≤ 2 ^ sp.log2.toNat →
        (sp.owner = none → exec (.spoolTailRead t k tail) s = .next (settle w))
        ∧ ∀ h r, sp.owner = some h → w.reqH h = some r → exec (.spoolTailRead t k tail) s = .next (settle
            (if r.bufRecs ≠ [] && (r.newRecs = [] || w.mayRelease) then releaseReq h w else w)))
      ∧ (2 ^ sp.log2.toNat < (sp.head - tail).toNat → exec (.spoolTailRead t k tail) s = .next (settle
          (logErr { code := 0x0D, island := 14, origin := 3, tenant := some t.val, addr := sp.hdrAddr.toNat }
            (onPrn (fun q => { q with tailBad := satInc q.tailBad }) v)))))
    ∧ (∀ slot plot m, s.moveAt slot plot false = some m →
      exec (.spillMoveDone slot ⟨plot, false⟩) s = .next (settle (restores (flushDone (pumpMoves (spillDone m cold)))))
      ∧ exec (.spillMoveDone slot ⟨plot, true⟩) s = .next (settle (restores (flushDone (pumpMoves (spillFail m true (retirePlot m.frame
          (logErr { code := 0x12, scope := 0, island := 12, tenant := some (hTenant m.handle), handle := m.handle.toNat } cold))))))))
    ∧ (∀ slot plot m, s.moveAt slot plot true = some m →
      exec (.restoreMoveDone slot plot false) s = .next (settle (restores (pumpMoves (restoreDone m cold))))
      ∧ ∀ run, m.run = some run → exec (.restoreMoveDone slot plot true) s = .next (settle (restores (pumpMoves (restoreFail m
          (coldRefused m.handle (s.runAddr run) (decide (run.tier = .pool)) cold))))))
    ∧ ∀ r, (sortBy (fun (a b : Req) => decide (a.heldSeq < b.heldSeq)) ((s.reqs.map (fun e => e.2)).filter (fun r =>
        match r.restore with | some x => !x.running | none => false))).head? = some r →
      exec (.restoreStart r.handle) s = .next (startRestores 1 (ungate (12 :: s.pageIslands (hTenant r.handle)) s))

/-- Loads, reloads and removals of models and graft versions end or start, while gardener core 0 runs. -/
def Obligations.ModelWorkEnds : Prop :=
  ∀ s : State, Runs s → s.gdnDown 0 = false →
    let u := ungate [1, 17] s
    (∀ (m : Fin 32) (t : LoadTables) d, (s.slot m.val).state = .loading → s.desc m.val = some d → loadCause d t.regions t.tiles = 0 →
      let v := u.onSlot m.val (fun x => { x with regions := t.regions })
      exec (.modelLoadDone m ⟨some t, .ok⟩) s = .next (settle (retryTenants (schedule (each (List.range 32) (fun b s =>
        bringIn (fun c => (s.ctx b c).model = some (BitVec.ofNat 5 m.val)) b s) (linkCheck (ghEvent 1 0 m.val 0 0 0
          ((progressNow (copyModel m.val t.regions.length true none v)).onSlot m.val (fun x =>
            { x with state := .resident, taint := [], taintSteps := [], redo := 0 }))))))))
      ∧ ∀ r, exec (.modelLoadDone m ⟨some t, .refused r⟩) s
          = .next (settle (loadFail m.val 2 r (copyModel m.val (r + 1) false none v)))
        ∧ exec (.modelLoadDone m ⟨some t, .poisoned r⟩) s
          = .next (settle (loadFail m.val 3 r (copyModel m.val (r + 1) false none v)))
        ∧ exec (.modelLoadDone m ⟨some t, .badPart r⟩) s
          = .next (settle (loadFail m.val 5 r (progressNow (copyModel m.val (r + 1) false none v)))))
    ∧ (∀ (m : Fin 32) (t : LoadTables) d copy, (s.slot m.val).state = .loading → s.desc m.val = some d → loadCause d t.regions t.tiles ≠ 0 →
      exec (.modelLoadDone m ⟨some t, copy⟩) s = .next (settle (loadFail m.val (loadCause d t.regions t.tiles) 0 u)))
    ∧ (∀ g v seen x, s.gver g v = some x → x.state = .loading → x.walked = true →
      ((s.slot x.base.toNat).state ≠ .loading → exec (.graftLoadDone g v seen) s = .next (settle (graftLoaded g v seen none u)))
      ∧ ((s.slot x.base.toNat).state = .loading → exec (.graftLoadDone g v seen) s = .next (settle u)))
    ∧ (∀ m : Fin 32, (s.slot m.val).state = .tainted → (s.slot m.val).reloading = false → s.mayReload (s.slot m.val).taintStep = true →
      exec (.reloadStart (.model m)) s = .next (u.onSlot m.val (fun x => { x with reloading := true, copyAt := s.ctl.lcc })))
    ∧ (∀ (m : Fin 32) (seen : ReloadSeen), (s.slot m.val).state = .tainted → (s.slot m.val).reloading = true →
      let region := (s.slot m.val).taint.headD 0
      let again := each (List.range (s.slot m.val).redo) (fun _ => copyRegion m.val region none) u
      let v := (copiesBack (reloadCause seen) (copyParts m.val region (freshParts seen) none (copyRegion m.val region none again))).onSlot
        m.val (fun x => { x with redo := 0, fresh := addFresh region (freshParts seen) x.fresh })
      let w := ghEvent 4 0 m.val 0 region 0 v
      let next (x : Slot) : Slot := { x with taint := (s.slot m.val).taint.drop 1, taintSteps := x.taintSteps.drop 1, reloading := false }
      (reloadCause seen ≠ 0 → exec (.reloadDone (.model m) seen) s
        = .next (settle (pumpMoves (slotLost m.val (reloadCause seen) region v))))
      ∧ (reloadCause seen = 0 → (s.slot m.val).taint.drop 1 ≠ [] → exec (.reloadDone (.model m) seen) s
        = .next (settle (pumpMoves (w.onSlot m.val (fun x => { next x with state := .tainted })))))
      ∧ (reloadCause seen = 0 → (s.slot m.val).taint.drop 1 = [] → exec (.reloadDone (.model m) seen) s
        = .next (settle (pumpMoves (retryTenants (linkCheck (liftMirrors 1 (fun _ => w.teth.model.toNat = m.val)
            (liftHold 1 (ofModel m.val) (w.onSlot m.val (fun x => { next x with state := .resident }))))))))))
    ∧ (∀ g v x, s.gver g v = some x → x.state = .tainted →
      let region := x.taint.headD 0
      (x.reloading = false → s.mayReload x.taintStep = true → exec (.reloadStart (.graft g v)) s
        = .next (onGVer g v (fun x => { x with reloading := true, copyAt := s.ctl.lcc }) u))
      ∧ (x.reloading = true → ∀ seen : ReloadSeen,
        let again := each (List.range x.redo) (fun _ => copyDelta g v region (List.range 12) none) u
        let w := onGVer g v (fun x => { x with redo := 0, fresh := addFresh region (freshParts seen) x.fresh })
          (copiesBack (reloadCause seen) (copyDelta g v region (freshParts seen) none (copyDelta g v region (List.range 12) none again)))
        (reloadCause seen = 0 → exec (.reloadDone (.graft g v) seen) s = .next (settle (pumpMoves (graftBack g v w))))
        ∧ (reloadCause seen ≠ 0 →
          let lost := ghEvent 10 (reloadCause seen) x.base.toNat g region v.toNat (loadFailLog (reloadCause seen) x.srcAddr.toNat
            (onGVer g v (fun x => { x with state := .lost, reloading := false }) w))
          exec (.reloadDone (.graft g v) seen) s = .next (settle (pumpMoves (endAll (fun r =>
            usesVer g v r && !(r.row.isSome && (lost.followVer r).isSome)) 0x33 0x30 lost))))))
    ∧ ∀ g v, (∀ m : Fin 32, s.seed.walks.contains (.model (BitVec.ofNat 5 m.val)) = true →
        exec (.seedbedRemovalDone (some m) g v) s = .next (settle (evicted m.val (ungate [1, 13] s))))
      ∧ (s.seed.walks.contains (.graft (BitVec.ofNat 12 g) v) = true →
        exec (.seedbedRemovalDone none g v) s = .next (settle (graftWalked g v (ungate [1, 13] s))))

/-- The firmware's work for tenants: the admission of the request that is next, the expiry scan, the Ledger roll-up, a new budget
period, the Seedbed sweep and the end of a tenant reset. -/
def Obligations.TenantsProgress : Prop :=
  ∀ (t : Fin 16) (s : State), Runs s →
    let u (is : List Nat) := ungate is s
    let mine := s.pageIslands t.val
    (∀ r l q, s.sow.short = 0 → s.nextTenant = some t.val → s.queuedOf t.val = r :: l →
      let v := expireReq r.handle (u (13 :: mine))
      v.reqH r.handle = some q → q.state = .queued → v.graftUp q = true → v.slotUp q.model.toNat = true →
      let a := matchReserve (hSlot r.handle) v
      exec (.admissionAttempt t) s = .next (settle (match a.1 with
        | some ok => ok
        | none => a.2.onTen t.val (fun x => { x with passed := true }))))
    ∧ exec .expiryScan s = .next (settle (retryTenants (each ((s.reqs.filter (fun e =>
        !s.gdnDown (s.page (hTenant e.2.handle)).gardener.toNat)).map (fun e => e.2.handle)) expireReq (u gdnIslands))))
    ∧ (s.gdnDown (s.page t.val).gardener.toNat = false →
      exec (.ledgerRollup t) s = .next (each (s.tenRows t.val) rollUp (u (15 :: mine))))
    ∧ ((s.ten t.val).period ≠ 0 → (s.ten t.val).periodAt.toNat + (s.ten t.val).period.toNat * 1000000000 ≤ s.ctl.lcc.toNat →
      exec (.budgetPeriod t) s = .next ((u (15 :: mine)).onTen t.val (fun x =>
        { x with
          periodAt := x.periodAt + BitVec.ofNat 64 ((s.ten t.val).period.toNat * 1000000000)
          useNs := 0
          useBytes := 0
          useNj := 0
          warnT := false
          warnB := false
          warnE := false })))
    ∧ (∀ n, (s.seed.nodes.map (fun e => e.1)).find? (fun n => decide (s.seed.sweep ≤ n)) = some n →
      exec .seedbedSweep s = .next (restores (sweepNode n (onSeed (fun d => { d with sweep := (n + 1) % seedNodes }) (u [13])))))
    ∧ ∀ x refused, (s.page t.val).stopping = some x → x.due ≤ s.sow.comp → s.tenRows t.val = [] →
      exec (.tenantResetDone t refused) s = .next (settle (resetDone t.val refused (u mine)))

/-! ### Events: heat, watchdog and gardeners -/

/-- THERMAL_UPDATE, LADDER_MOVE, the sensor events and SAMPLES_SILENT, each where its condition holds. A sensor is read once at the start
of the model, at most every 10 ms while its node's estimate is within 5 °C of its limit, and in node order every 100 ms; in any other
state SENSOR_READ completes and reads nothing. -/
def Obligations.ThermalEvents : Prop :=
  ∀ s : State, Runs s →
    let u := ungate [1, 15] s
    (s.gdnDown 0 = false → s.pwr.lcc.toNat + 100000 ≤ s.ctl.lcc.toNat → ∃ t, exec .thermalUpdate s = .next t
      ∧ t.pwr.lcc = s.ctl.lcc ∧ t.pwr.budgets = s.budgetsNow
      ∧ (∀ i, i < 24 → (t.node i).est = match (s.node i).taken with
          | some x => x
          | none => thermalNext i (s.pwr.nodes.map (fun n => n.est)) (s.pwr.nodes.map (fun n => n.mean s.pwr.silent)) s.pwr.coolant)
      ∧ t.pages = s.pages ∧ t.reqs = s.reqs ∧ t.elog = s.elog)
    ∧ (∀ l : Fin 13, s.gdnDown 0 = false → s.pwr.lcc = s.ctl.lcc →
      let v := ungate [15] s
      let x := s.pwr.ladders.getD l.val {}
      ((s.over l.val = true ∨ s.pwr.silent = true) → x.rested 5 s.ctl.lcc = true → x.b ≠ 15 →
        exec (.ladderMove l) s = .next (slowStep l.val (setStep l.val (x.b + 1) v)))
      ∧ ∀ c, s.over l.val = false → s.coolNow l.val = true → s.pwr.silent = false → x.b ≠ 0 → x.rested 50 s.ctl.lcc = true →
        x.cool = some c → c.toNat + 50000000 ≤ s.ctl.lcc.toNat → exec (.ladderMove l) s = .next (setStep l.val (x.b - 1) v))
    ∧ (∀ l : Fin 13, (s.gdnDown 0 = true ∨ s.pwr.lcc ≠ s.ctl.lcc) → exec (.ladderMove l) s = .next (ungate [15] s))
    ∧ (∀ i : Fin 24, (s.node i.val).lastAsk = none → exec (.sensorRead i) s = .next (askSensor i.val u))
    ∧ (∀ (i : Fin 24) a, (s.node i.val).lastAsk = some a →
      let hot : Prop := s.limitOf i.val - 80 ≤ (s.node i.val).est ∧ a.toNat + 10000000 ≤ s.ctl.lcc.toNat
      let turn : Prop := s.pwr.turn = i.val ∧ s.pwr.turnAt.toNat + 100000000 ≤ s.ctl.lcc.toNat
      (hot → exec (.sensorRead i) s = .next (askSensor i.val u))
      ∧ (¬ hot → turn → exec (.sensorRead i) s = .next (askSensor i.val (onPwr (fun w =>
          { w with turn := (w.turn + 1) % 24, turnAt := s.ctl.lcc }) u)))
      ∧ (¬ hot → ¬ turn → exec (.sensorRead i) s = .next u))
    ∧ (∀ (i : Fin 24) (t : U16), (s.node i.val).asked = true →
      let x := readout i.val t
      let ok := s.plausible i.val x && (s.node i.val).inTime s.ctl.lcc
      let v := flagged (onNode i.val (fun n =>
        { n with
          asked := false
          sensorBad := !ok
          taken := if ok then some x else n.taken })) u
      exec (.sensorAnswer i t) s = .next (settle (if i.val < 12 then v
        else stackRead (i.val - 12) (if ok then BitVec.ofInt 8 (x / 16) else 0x80) v)))
    ∧ (∀ (i : Fin 24) a, (s.node i.val).asked = true → (s.node i.val).lastAsk = some a → a.toNat + 1000000 ≤ s.ctl.lcc.toNat →
      let v := flagged (onNode i.val (fun n => { n with asked := false, sensorBad := true })) u
      exec (.sensorTimeout i) s = .next (settle (if i.val < 12 then v else stackRead (i.val - 12) 0x80 v)))
    ∧ (s.pwr.silent = false → s.pwr.lastAt.toNat + 1000000 ≤ s.ctl.lcc.toNat → exec .samplesSilent s
      = .next (flagged (onPwr (fun w =>
          { w with
            silent := true
            modFlag := true
            nodes := w.nodes.map (fun n => { n with flagged := true }) })) u))

/-- Die nodes are held against the die limit, stack nodes against the stack limit, both with one hysteresis. -/
def Obligations.LimitsByNode : Prop :=
  ∀ s : State,
    (∀ i, i < 12 → s.limitOf i = (s.pwr.die.toNat : Int)) ∧ (∀ i, 12 ≤ i → i < 24 → s.limitOf i = (s.pwr.stackT.toNat : Int))
    ∧ ∀ l, l < 13 → let i := s.ladderNode l
      (i < 12 ↔ l = 0) ∧ (s.over l = true ↔ s.limitOf i < (s.node i).est)
        ∧ (s.coolNow l = true ↔ (s.node i).est ≤ s.limitOf i - (s.pwr.hyst.toNat : Int))

/-- The events of power and heat leave the requests, the tenants, the plots, the Seedbed, the models, the watchdog, the error log
and the arbiters as they were. -/
def Obligations.PowerFrame : Prop :=
  ∀ (p : Sample) (i : Fin 18) (n : Fin 24) (l : Fin 13) (c : Instr) (s t : State),
    (c = .powerSample p ∨ c = .droop i ∨ c = .thermalUpdate ∨ c = .ladderMove l ∨ c = .sensorRead n ∨ c = .samplesSilent) →
    exec c s = .next t →
    t.reqs = s.reqs ∧ t.gens = s.gens ∧ t.tens = s.tens ∧ t.plots = s.plots ∧ t.seed = s.seed ∧ t.gh = s.gh ∧ t.prn = s.prn
      ∧ t.disp = s.disp ∧ t.wdog = s.wdog ∧ t.elog = s.elog ∧ t.arbs = s.arbs ∧ t.trc = s.trc

/-- WDOG_BITE completes in every state in which the block runs. An armed watchdog without progress for longer than its limit records
the bite, counts it and raises vector 3, and the recovery steps follow: a stack engine that has not completed an item since the last
progress is fatal; where nothing is found stuck, hung, outstanding or missing, the island that the bite saw last is reset. Otherwise
nothing happens.
A gardener core that is neither restarting nor out restarts, and the restart is recorded and counted; after three restarts within
10 s it goes out of service: its partitions move to other cores, or, of the management core or the last tenant core, the fault is
fatal; a core that restarts takes up its tables again once its SRAM verifies, else the fault is fatal; what waited for it is then
taken (`takeWaits`). In any other state of the core these events change nothing else. -/
def Obligations.WatchdogAndGardeners : Prop :=
  (∀ (seen : BiteSeen) (s : State), Runs s →
    let u := ungate [] s
    let late := s.wdog.progress.toNat + s.wdog.limit.toNat * 1000 < s.ctl.lcc.toNat
    let bitten := vecEvent mgmt 3 (onWdog (fun w =>
      { w with
        bitten := true
        bites := satInc w.bites
        lastIsland := BitVec.ofNat 5 seen.island.val })
      (logErr { code := 0x20, island := seen.island, origin := seen.origin.toNat, unit := seen.unit } u))
    (¬ (s.armed = true ∧ late) → exec (.wdogBite seen) s = .next (settle u))
    ∧ (s.armed = true → late → exec (.wdogBite seen) s = .next (settle (wdogBite seen u)))
    ∧ (s.armed = true → late → s.stuck = [] → s.hung seen.hung = [] →
      (∀ x, s.sow.exec = some x → (∃ i ∈ x.stack, i.issued = true ∧ s.hasHung i.at_ = true) → exec (.wdogBite seen) s
        = .next (settle (setLast 0x09 (fatal 0x09 (logErr { code := 0x09, scope := 7, island := 10, origin := 2 } bitten)))))
      ∧ ((∀ x, s.sow.exec = some x → (∀ i ∈ x.stack, i.issued = false ∨ s.hasHung i.at_ = false)
            ∧ (s.grouped = true → x.coll = 0 ∨ s.hasHung x.start = false)) →
        s.copies = false → s.shortRows = [] → exec (.wdogBite seen) s = .next (settle (checkEnd (progressNow
          (let t := islandReset seen.island.val 0x20 true bitten
          setLast (if t.wdog.stalled = true then 0x24 else 0x21) t)))))))
  ∧ ∀ (c : Fin 8) (s : State), Runs s →
    let u := ungate [c.val + 1] s
    let bit := BitVec.ofNat 8 (2 ^ c.val)
    let back := onWdog (fun w => { w with gdnRestarting := w.gdnRestarting &&& ~~~bit }) u
    (∀ why, (s.gdnDown c.val = false →
        let times := ((mget c.val s.wdog.gdnTimes).getD []) ++ [s.ctl.lcc]
        exec (.gdnRestart c why) s = .next (vecEvent mgmt 6 (logErr
          { code := 0x22, scope := 5, island := 1 + c.val, unit := c.val } (onWdog (fun w =>
            { w with
              gdnRestarting := w.gdnRestarting ||| bit
              gdnRestarts := satInc w.gdnRestarts
              gdnTimes := mput c.val (times.drop (times.length - 3)) w.gdnTimes }) u))))
      ∧ (s.gdnDown c.val = true → exec (.gdnRestart c why) s = .next u))
    ∧ (s.wdog.gdnOut.getLsbD c.val = false → s.thrice c.val = true →
      let out := vecEvent mgmt 6 (logErr { code := 0x23, scope := 5, island := 1 + c.val, unit := c.val } (onWdog (fun w =>
        { w with
          gdnOut := w.gdnOut ||| bit
          gdnRestarting := w.gdnRestarting &&& ~~~bit }) u))
      let last : Prop := c = 0 ∨ ∀ i, 1 ≤ i → i < 8 → out.wdog.gdnOut.getLsbD i = true
      (last → exec (.gdnOut c) s = .next (settle (takeWaits (fatal 0x23 out))))
      ∧ (¬ last → exec (.gdnOut c) s = .next (settle (takeWaits (each ((List.range 16).filter (fun t =>
          (out.page t).isOpen && (out.page t).gardener.toNat = c.val)) (fun t s =>
            vecEvent t 4 (s.onPage t (fun g => { g with gardener := BitVec.ofNat 4 s.gardenerFor }))) out)))))
    ∧ (¬ (s.wdog.gdnOut.getLsbD c.val = false ∧ s.thrice c.val = true) → exec (.gdnOut c) s = .next (settle (takeWaits u)))
    ∧ (s.wdog.gdnRestarting.getLsbD c.val = true →
      exec (.gdnReattach c true) s = .next (settle (takeWaits (reattach c.val back)))
      ∧ exec (.gdnReattach c false) s = .next (settle (takeWaits (fatal 0x22 u))))
    ∧ ∀ ok, s.wdog.gdnRestarting.getLsbD c.val = false → exec (.gdnReattach c ok) s = .next (settle (takeWaits u))

/-! ### Events: arbiters -/

/-- A cycle of an arbiter, with the requests raised at its start. In an arbitration event the port goes to the requesting, unmasked
input with the highest position, whatever the inputs have waited; where every requesting input is masked it is free. Otherwise a
holder whose last beat has not come keeps the port and moves a beat, unless the debug port requests. A command that begins with this
cycle and goes on to more of them goes on from the state so reached. -/
def Obligations.HighestPositionWins : Prop :=
  ∀ (inst : Fin 4) (posts : List (Fin 32)) (beats : List Nat) (s : State), Runs s → Sizes s →
    let hold := s.ingestHeld inst.val
    let raised := postsOf posts beats
    let b := (arbPosts inst.val raised (ungate [arbIsland inst.val] s)).arb inst.val
    let r := b.rolled
    let may (i : Nat) : Prop := i < r.inputs ∧ r.requests i = true ∧ r.masked i = false
    ∃ t, exec (.arbitrationEvent inst posts [] beats) s = .next t
      ∧ (∀ more ps bs, exec (.arbitrationEvent inst ps (raised :: more) bs) s = exec (.arbitrationEvent inst ps more bs) t)
      ∧ (b.isEvent hold = true →
        (∀ i, (t.arb inst.val).holder = some i → may i ∧ ∀ j, may j → r.rank j ≤ r.rank i)
        ∧ ((t.arb inst.val).holder = none ↔ ∀ i, ¬ may i))
      ∧ (∀ h, b.holder = some h → b.free hold = false → (h = b.debug ∨ b.requests b.debug = false) →
        (t.arb inst.val).holder = some h ∧ (t.arb inst.val).left = b.left - 1)
      ∧ (∀ k, k ≠ inst.val → t.arb k = s.arb k) ∧ t.pages = s.pages ∧ t.reqs = s.reqs

/-- ARB_WINDOW_END: when the window's events are used up, the first event of the next window begins it under the settings written; a
cycle without an event leaves it due. DEBUG_REVOKE takes the port from another holder, in a cycle that is no event, and counts; the
holder's request stands again, for the beats it has not moved. The port goes to the debug port, which ranks highest, and the debug
network reads through it the plot's reference count or the Seedbed node that it asks for. -/
def Obligations.ArbiterEvents : Prop :=
  ∀ (inst : Fin 4) (s : State), Runs s → Sizes s →
    let a := s.arb inst.val
    let u := ungate [arbIsland inst.val] s
    (∀ posts, a.rollDue = false → exec (.arbWindowEnd ⟨inst, posts⟩) s = .next u)
    ∧ (∀ posts, a.rollDue = true →
      let b := (arbPosts inst.val posts u).arb inst.val
      ∃ t, exec (.arbWindowEnd ⟨inst, posts⟩) s = .next t
        ∧ (b.isEvent (s.ingestHeld inst.val) = true →
          (t.arb inst.val).winNow = a.window ∧ ∀ i, ((t.arb inst.val).input i).quotaNow = (a.input i).quota)
        ∧ (b.isEvent (s.ingestHeld inst.val) = false → (t.arb inst.val).rollDue = true ∧ (t.arb inst.val).winNow = a.winNow)
        ∧ (∀ k, k ≠ inst.val → t.arb k = s.arb k) ∧ t.pages = s.pages ∧ t.reqs = s.reqs)
    ∧ ∀ (use : DebugUse) h, a.holder = some h → h ≠ a.debug → a.free (s.ingestHeld inst.val) = false →
      a.debug < a.inp.length → h < a.inp.length → (a.egress = true → a.depth ≠ 0) →
      ∃ t, exec (.debugRevoke inst use) s = .next t
        ∧ (t.arb inst.val).revokes = satInc a.revokes
        ∧ (∀ k, k ≠ inst.val → t.arb k = s.arb k) ∧ t.pages = s.pages ∧ t.reqs = s.reqs
        ∧ (0 < a.inputs → (∀ i, i < a.inputs → i ≠ a.debug → a.rank i < a.rank a.debug) → (t.arb inst.val).holder = some a.debug
          ∧ ((t.arb inst.val).input h).queue.head? = some (a.left - 1)
          ∧ (∀ p, inst = 1 → use.ask = .refcount p → t.out.debug = s.out.debug ++ [.refcount (s.refOf p)])
          ∧ ∀ n, inst = 3 → use.ask = .node n → t.out.debug = s.out.debug ++ [.node (mget n s.seed.nodes)])

/-! ### Events: the Tether ring -/

/-- Frames that a member takes: MANIFEST and STEP_TOKEN on a follower, STATUS and SLOW on the leader, TOKENS, PROFILE and BREAK on
every member. Any other frame of another member is counted where it did not come whole or fails its CRC, and, but at its last hop, passed
on, a bad one and every one while a hold is forced as stomped; nothing of it is acted on: a stomped frame, though good, one of another
group or epoch, a second copy, and every frame on a stalled member. A frame of the member's own origin is its own, come round, a bad one
as stomped. -/
def Obligations.FramesTaken : Prop :=
  (∀ (m : FrameMeta) (s : State),
    (∀ es, TakesFrame (.manifest m es) s → s.leader = false →
      exec (.manifest m es) s = .next (settle (manifestIn m es (received (.manifest m es) s))))
    ∧ (∀ es, TakesFrame (.stepToken m es) s → s.leader = false →
      exec (.stepToken m es) s = .next (settle (stepTokenIn m es (received (.stepToken m es) s))))
    ∧ (∀ es, TakesFrame (.tokens m es) s → exec (.tokens m es) s = .next (settle (if s.leader
        then checkEnd (each es (leaderCommit m.step) (received (.tokens m es) s))
        else each es mirrorCommit (received (.tokens m es) s))))
    ∧ (∀ e, TakesFrame (.status m e) s → s.leader = true →
      exec (.status m e) s = .next (settle (statusIn m e (received (.status m e) s))))
    ∧ (∀ hot ballast, TakesFrame (.slow m hot ballast) s → s.leader = true →
      exec (.slow m hot ballast) s = .next (settle (slowIn m hot ballast (received (.slow m hot ballast) s))))
    ∧ (∀ (tenant : Fin 16) (f : ProfileF) bias, TakesFrame (.profile m tenant.val f bias) s →
      let key := (tenant.val, f.profile.toNat)
      let new : Prof := ⟨f, (sumBias bias []).getD []⟩
      exec (.profile m tenant f bias) s = .next (settle (onTeth (fun t =>
        { t with profiles := t.profiles.filter (fun e => e.1 ≠ key) ++ [(key, new)] })
          (received (.profile m tenant.val f bias) s))))
    ∧ (TakesFrame (.break_ m) s → exec (.break_ m) s = .next (settle (holdGroup 2 (received (.break_ m) s)))))
  ∧ (∀ (c : Instr) (f : FrameOut) (s : State), frameOf c = some f → Rings s → s.ringUp = true →
    let n := if f.mt.cut = true then max 1 f.mt.alien else f.mt.alien + (if f.crcGood = true then 0 else 1)
    let counted := onTeth (fun t => { t with crcErrors := satAdd t.crcErrors n }) (ungate [16] s)
    let sent := passOn f s.teth.forced
    (sent.mt.stomp = true ↔ f.mt.stomp = true ∨ f.good = false ∨ s.teth.forced = true)
    ∧ (f.mt.origin ≠ s.teth.index →
      (s.wdog.stalled = true ∨ f.good = false ∨ f.mt.stomp = true ∨ f.mt.group ≠ s.teth.id
        ∨ (f.kind ≠ 0x01 ∧ (f.mt.epoch ≠ s.teth.epoch ∨ s.teth.copyOf f.kind f.mt = true))) →
      exec c s = .next (settle (if f.mt.hops.toNat = s.teth.sizeM1.toNat then counted else putFrame sent counted)))
    ∧ (f.mt.origin = s.teth.index →
      (f.kind ≠ 0x01 → f.good = true → f.mt.alien = 0 → exec c s = exec (.ownFrameReturned f.kind f.mt.step f.mt.part f.mt.stomp) s)
      ∧ (f.good = false → exec c s = .next (settle (ownReturned f.kind f.mt.step f.mt.part true counted)))))

/-- Own frames and the roll call: a good own frame is stripped, a first stomped one is sent again, a second one or a loss holds the
group; a follower answers ROLLCALL, the leader repeats it after LOSS_US and restores the group when every member is present and its own
collectives are over; the leader gives up a hold at its limit; a lost lock holds the group, and a lock regained sends BREAK. -/
def Obligations.RingEvents : Prop :=
  ∀ s : State, Rings s →
    let u := ungate [16] s
    (∀ kind step part o, s.ringUp = true → s.ownFrame kind step part = some o →
      exec (.ownFrameReturned kind step part false) s = .next (settle (dropOwn o u))
      ∧ (o.again = true → exec (.ownFrameReturned kind step part true) s = .next (settle (holdGroup 1 (dropOwn o u))))
      ∧ (o.again = false → exec (.ownFrameReturned kind step part true) s = .next (settle (putFrame
        (o.frame.withMeta (fun m => { m with stomp := s.teth.forced })) (onTeth (fun t =>
          { t with
            resends := satInc t.resends
            own := t.own.map (fun (x : OwnFrame) => if x = o then { x with again := true, sent := s.ctl.lcc } else x) }) u))))
      ∧ (o.sent.toNat + s.teth.lossUs.toNat * 1000 ≤ s.ctl.lcc.toNat →
        exec (.frameLoss kind step part) s = .next (settle (holdGroup 1 (dropOwn o u)))))
    ∧ (∀ m id present intact, s.ringUp = true → m.origin ≠ s.teth.index → s.takes (.rollcall m id present intact) = true →
      s.wdog.stalled = false → s.leader = false → exec (.rollcall m id present intact) s
        = .next (settle (rollcallFollow m id present intact (crcCount (.rollcall m id present intact) u))))
    ∧ (∀ m id present intact, s.ringUp = true → m.origin = s.teth.index → s.leader = true → s.teth.formed = false →
      (FrameOut.rollcall m id present intact).good = true → m.stomp = false → m.group = s.teth.id → m.epoch = s.teth.epoch →
      s.wdog.stalled = false → (∀ i, i < s.teth.sizeM1.toNat + 1 → i ∈ present) →
      let v := onTeth (fun t => { t with own := t.own.filter (fun o => o.kind ≠ 0x01) }) (crcCount (.rollcall m id present intact) u)
      (s.colls = 0 → exec (.rollcall m id present intact) s = .next (settle (formGroup intact v)))
      ∧ (s.colls ≠ 0 → exec (.rollcall m id present intact) s = .next (settle v)))
    ∧ (s.calling = true → s.teth.rollAt.toNat + s.teth.lossUs.toNat * 1000 ≤ s.ctl.lcc.toNat →
      exec .rollcallResend s = .next (settle (callRoll u)))
    ∧ (s.grouped = true → s.leader = true → s.teth.held = true → s.teth.abandoned = false → s.teth.holdLimit ≠ 0 →
      s.teth.heldAt.toNat + s.teth.holdLimit.toNat * 10000000 < s.ctl.lcc.toNat →
      exec .groupAbandon s = .next (settle (endAll (fun r => r.model = s.teth.model) 0x30 0x30
        (logErr { code := 0x19, island := 16 } (onTeth (fun t => { t with abandoned := true }) u)))))
    ∧ (s.teth.lock = true → exec .lockLost s
      = .next (settle (holdGroup 3 (onTeth (fun t => { t with lock := false, brk := true }) u))))
    ∧ (s.teth.lock = false → s.out.tetherEn = true → s.grouped = true → exec .lockRegained s
      = .next (settle (
          let t := onTeth (fun t => { t with lock := true }) u
          let n := match s.sow.exec with
            | some x => if x.ended then x.num else x.num - 1
            | none => s.sow.step
          sendFrame 0x08 n 0 (.break_ (t.ownMeta n 0 true false false)) t)))
    ∧ (s.teth.lock = false → s.out.tetherEn = true → s.grouped = false →
      exec .lockRegained s = .next (settle (onTeth (fun t => { t with lock := true }) u)))

/-! ### The trace and the urgent slots -/

/-- A source records an event exactly when the trace is on, its class bit is set and its tenant, where it has one, is in scope; a
full buffer counts it as dropped. The record holds the LCC, the step, the class, the source, its gardener core, the tenant, the handle and
the three arguments. A buffered record goes to the slot that the head names, and a full ring counts it as dropped; the gardener cores'
input serves them in turn. -/
def Obligations.TraceRecords : Prop :=
  (∀ (cls source gdn : Nat) (tenant : Option Nat) (handle a0 a1 a2 : Nat) (s : State),
    let t := trace cls source gdn tenant handle a0 a1 a2 s
    let k := traceBuf source gdn
    let wanted := s.trc.en = true ∧ s.trc.events.getLsbD cls = true ∧ ∀ x, tenant = some x → s.trc.tenants.getLsbD x = true
    let full := 128 ≤ (s.trc.bufs.getD k []).length
    let r : TraceRec :=
      { lcc := s.ctl.lcc
        step := BitVec.ofNat 32 s.sow.step.toNat
        cls := BitVec.ofNat 5 cls
        source := BitVec.ofNat 2 source
        gdn := BitVec.ofNat 3 gdn
        tenant := tenant.map (BitVec.ofNat 4)
        handle := BitVec.ofNat 32 handle
        arg0 := BitVec.ofNat 32 a0
        arg1 := BitVec.ofNat 32 a1
        arg2 := BitVec.ofNat 32 a2 }
    (¬ wanted → t = s)
    ∧ (wanted → full → t = { s with trc := { s.trc with dropped := satInc s.trc.dropped } })
    ∧ (wanted → ¬ full → t = { s with trc := { s.trc with bufs := lupd k (fun b => b ++ [r]) s.trc.bufs } }))
  ∧ (∀ (k : Nat) (r : TraceRec) (l : List TraceRec) (s : State), s.trc.bufs.getD k [] = r :: l →
    let t := traceIssue k s
    let full := (s.trc.head - s.trc.tail).toNat = 2 ^ s.trc.log2.toNat
    t.trc.bufs.getD k [] = l ∧ t.pages = s.pages ∧ t.reqs = s.reqs ∧ t.trc.served = (if 3 ≤ k then k - 3 else s.trc.served)
    ∧ (full → t.trc.dropped = satInc s.trc.dropped ∧ t.trc.head = s.trc.head ∧ t.out = s.out)
    ∧ (¬ full → t.trc.head = s.trc.head + 1 ∧ t.trc.dropped = s.trc.dropped ∧ t.out = { s.out with host := s.out.host ++
        [⟨none, .trace (BitVec.ofNat 64 (s.trc.ring.toNat * 4096 + s.trc.head.toNat % 2 ^ s.trc.log2.toNat * 32)) r⟩] }))
  ∧ ∀ (s : State) (k : Nat), s.traceInput 7 = some k →
    ∃ n, n < 8 ∧ k = 3 + (s.trc.served + 1 + n) % 8 ∧ s.trc.bufs.getD k [] ≠ []
      ∧ ∀ j, j < n → s.trc.bufs.getD (3 + (s.trc.served + 1 + j) % 8) [] = []

/-- CANCEL and TIME_XCHG that a host writes into URG_MSG are read back as they were written, at every operand; their reserved
fields are told from zero by one bit. -/
def Obligations.UrgentRoundTrip : Prop :=
  ∀ (page : Fin 17) (slot : Fin 8) (irq : Bool) (h : Hdr),
    (∀ f : HandleF, urgMsg page slot irq (urgBits (.cancel page (.urgent slot irq h) f)) = .cancel page (.urgent slot irq h) f)
    ∧ ∀ f : TimeF, urgMsg page slot irq (urgBits (.timeXchg page (.urgent slot irq h) f)) = .timeXchg page (.urgent slot irq h) f
end

