-- ==== Sys2Proof/Laws/Kept.lean ====
section
/-! SUPPORT. What the shared operations leave as it was: the queue, the clock, the mark of a supply sag and the sizes of the
fixed tables. Each operation below has one lemma `kept_<operation>`, which later proofs cite in place of its text. -/

namespace Sys2Proof.Machine

/-- The queue, the clock, the mark of a supply sag and the sizes of the fixed tables are as before. -/
abbrev Kept (t s : State) : Prop :=
  t.pending = s.pending ∧ t.ctl.lcc = s.ctl.lcc ∧ t.ctl.sagged = s.ctl.sagged ∧ t.pages.length = s.pages.length
    ∧ t.tens.length = s.tens.length ∧ t.arbs.length = s.arbs.length ∧ t.gh.slots.length = s.gh.slots.length

theorem Kept.rfl' {s : State} : Kept s s := ⟨rfl, rfl, rfl, rfl, rfl, rfl, rfl⟩
theorem Kept.trans {a b c : State} (h : Kept a b) (k : Kept b c) : Kept a c :=
  ⟨h.1.trans k.1, h.2.1.trans k.2.1, h.2.2.1.trans k.2.2.1, h.2.2.2.1.trans k.2.2.2.1, h.2.2.2.2.1.trans k.2.2.2.2.1,
    h.2.2.2.2.2.1.trans k.2.2.2.2.2.1, h.2.2.2.2.2.2.trans k.2.2.2.2.2.2⟩

theorem length_lupd {α : Type} (i : Nat) (f : α → α) (l : List α) : (lupd i f l).length = l.length := by
  induction l generalizing i with
  | nil => simp [lupd]
  | cons a r ih => cases i <;> simp [lupd, ih]

theorem map_lupd {α β : Type} (i : Nat) (f : α → α) (m : α → β) (h : ∀ a, m (f a) = m a) (l : List α) :
    (lupd i f l).map m = l.map m := by
  induction l generalizing i with
  | nil => simp [lupd]
  | cons a r ih => cases i <;> simp [lupd, ih, h]

theorem kept_each {α : Type} (l : List α) (f : α → State → State) (s : State)
    (h : ∀ a s, Kept (f a s) s) : Kept (each l f s) s := by
  unfold each
  induction l generalizing s with
  | nil => exact Kept.rfl'
  | cons a l ih => exact Kept.trans (ih _) (h a s)

theorem kept_foldl {α β : Type} (g : β → State) (f : β → α → β) (h : ∀ b a, Kept (g (f b a)) (g b)) (l : List α) (b : β) :
    Kept (g (l.foldl f b)) (g b) := by
  induction l generalizing b with
  | nil => exact Kept.rfl'
  | cons a l ih => exact Kept.trans (ih _) (h b a)

theorem kIte (c : Prop) [Decidable c] (a b : State) :
    (if c then a else b).pending = (if c then a.pending else b.pending)
      ∧ (if c then a else b).ctl = (if c then a.ctl else b.ctl)
      ∧ (if c then a else b).pages = (if c then a.pages else b.pages)
      ∧ (if c then a else b).tens = (if c then a.tens else b.tens)
      ∧ (if c then a else b).arbs = (if c then a.arbs else b.arbs)
      ∧ (if c then a else b).gh = (if c then a.gh else b.gh) := by
  split <;> exact ⟨rfl, rfl, rfl, rfl, rfl, rfl⟩

theorem kIteCtl (c : Prop) [Decidable c] (a b : Ctl) :
    (if c then a else b).lcc = (if c then a.lcc else b.lcc) ∧ (if c then a else b).sagged = (if c then a.sagged else
      b.sagged) := by
  split <;> exact ⟨rfl, rfl⟩

theorem kIteLen {α : Type} (c : Prop) [Decidable c] (a b : List α) :
    (if c then a else b).length = (if c then a.length else b.length) := by
  split <;> rfl

theorem kIteGh (c : Prop) [Decidable c] (g h : Gh) : (if c then g else h).slots = (if c then g.slots else h.slots)
    := by
  split <;> rfl

theorem kMap {α β : Type} (l : List α) (f : α → β) : (l.map f).length = l.length := List.length_map ..

/-- The pages and the arbiters are as many as the block has (03 R59, 12 R313). -/
abbrev Sized (s : State) : Prop := s.pages.length = 17 ∧ s.arbs.length = 4

theorem Kept.sized {t s : State} (h : Kept t s) (hz : Sized s) : Sized t := ⟨h.2.2.2.1.trans hz.1, h.2.2.2.2.2.1.trans hz.2⟩

theorem kept_eachZ {α : Type} (l : List α) (f : α → State → State) (s : State) (hz : Sized s)
    (h : ∀ a s, Sized s → Kept (f a s) s) : Kept (each l f s) s := by
  unfold each
  induction l generalizing s with
  | nil => exact Kept.rfl'
  | cons a l ih => exact Kept.trans (ih _ ((h a s hz).sized hz)) (h a s hz)

theorem Kept.ite {c : Prop} [Decidable c] {a b s : State} (h : Kept a s) (k : Kept b s) : Kept (if c then a else b) s := by
  split
  · exact h
  · exact k

end Sys2Proof.Machine
end

