-- ==== Sys2Proof/Laws/Ops.lean ====
section
/-! SUPPORT. What the operations of Machine/Ops.lean leave as it was (Laws/Kept.lean). -/

namespace Sys2Proof.Machine

set_option linter.unusedSimpArgs false
set_option linter.unusedVariables false

theorem kept_onCtl (f : Ctl → Ctl) (s : State) (h : ∀ c,
    (f c).lcc = c.lcc ∧ (f c).sagged = c.sagged) : Kept (onCtl f s) s := by
  simp only [onCtl, Kept, h, and_self]

theorem kept_trace (cls : Nat) (source : Nat) (gdn : Nat) (tenant : Option Nat) (handle : Nat) (a0 : Nat) (a1 : Nat)
    (a2 : Nat) (s : State) : Kept (trace cls source gdn tenant handle a0 a1 a2 s) s := by
  simp only [trace, Kept, kIte, ite_self, and_self]

/-- A trace write changes the trace and the ports alone. -/
theorem traceIssue_form (k : Nat) (s : State) : ∃ tr o, traceIssue k s = { s with trc := tr, out := o } := by
  unfold traceIssue
  dsimp only
  repeat' split
  all_goals first | exact ⟨s.trc, s.out, rfl⟩ | exact ⟨_, s.out, rfl⟩ | exact ⟨_, _, rfl⟩

theorem traceGrant_form (i : Nat) (s : State) : ∃ tr o, traceGrant i s = { s with trc := tr, out := o } := by
  unfold traceGrant
  split
  · exact traceIssue_form _ s
  · exact ⟨s.trc, s.out, rfl⟩

theorem traceNext_form (s : State) : ∃ tr o, traceNext s = { s with trc := tr, out := o } := by
  unfold traceNext
  split
  · exact traceIssue_form _ s
  · exact ⟨s.trc, s.out, rfl⟩

theorem traceDrain_form (n : Nat) (s : State) : ∃ tr o, traceDrain n s = { s with trc := tr, out := o } := by
  induction n generalizing s with
  | zero => exact ⟨s.trc, s.out, rfl⟩
  | succ n ih =>
    obtain ⟨tr, o, h⟩ := traceNext_form s
    obtain ⟨tr', o', h'⟩ := ih (traceNext s)
    rw [h] at h'
    refine ⟨tr', o', ?_⟩
    rw [traceDrain, h, h']

theorem kept_traceIssue (k : Nat) (s : State) : Kept (traceIssue k s) s := by
  obtain ⟨_, _, e⟩ := traceIssue_form k s
  rw [e]
  exact Kept.rfl'

theorem kept_traceNext (s : State) : Kept (traceNext s) s := by
  obtain ⟨_, _, e⟩ := traceNext_form s
  rw [e]
  exact Kept.rfl'

theorem kept_traceDrain (n : Nat) (s : State) : Kept (traceDrain n s) s := by
  obtain ⟨_, _, e⟩ := traceDrain_form n s
  rw [e]
  exact Kept.rfl'

theorem kept_traceGrant (i : Nat) (s : State) : Kept (traceGrant i s) s := by
  obtain ⟨_, _, e⟩ := traceGrant_form i s
  rw [e]
  exact Kept.rfl'

theorem kept_onArb (i : ℕ) (f : Arb → Arb) (s : State) : Kept (onArb i f s) s := by
  simp only [onArb, Kept, length_lupd, and_self]

theorem kept_traceQuit (s : State) : Kept (traceQuit s) s := by
  simp only [traceQuit, Kept, kIte, kIteCtl, kIteLen, kIteGh, kMap, length_lupd, ite_self, and_self, implies_true, kept_each, kept_onArb]

theorem kept_traceFlush (s : State) : Kept (traceFlush s) s := by
  simp only [traceFlush, Kept, kIte, kIteCtl, kIteLen, kIteGh, kMap, length_lupd, ite_self, and_self, implies_true, kept_traceQuit, kept_traceDrain]

/-- The trace sources' queues alone change. -/
theorem traceQuit_form (s : State) : ∃ a, traceQuit s = { s with arbs := a } := ⟨_, rfl⟩

/-- Writing out the buffers changes the trace, the ports and the arbiters alone. -/
theorem traceFlush_form (s : State) : ∃ tr o a, traceFlush s = { s with trc := tr, out := o, arbs := a } := by
  obtain ⟨tr, o, h⟩ := traceDrain_form ((s.trc.bufs.map (fun b => b.length)).sum) s
  obtain ⟨a, k⟩ := traceQuit_form (traceDrain ((s.trc.bufs.map (fun b => b.length)).sum) s)
  refine ⟨tr, o, a, ?_⟩
  rw [traceFlush, k, h]

theorem kept_State_onReq (s : State) (slot : Nat) (f : Req → Req) : Kept (State.onReq s slot f) s := by
  simp only [State.onReq, Kept, and_self]

theorem kept_logQuiet (e : ErrIn) (s : State) : Kept (logQuiet e s) s := by
  simp only [logQuiet, Kept, and_self]

theorem kept_ungate (is : List ℕ) (s : State) : Kept (ungate is s) s := by
  simp only [ungate, Kept, kIte, kIteCtl, kIteLen, kIteGh, kMap, length_lupd, ite_self, and_self, implies_true, kept_onCtl]

theorem kept_progressNow (s : State) : Kept (progressNow s) s := by
  simp only [progressNow, Kept, and_self]

theorem kept_handOver (a0 : U32) (ev : RowEv) (s : State) : Kept (handOver a0 ev s) s := by
  simp only [handOver, Kept, and_self]

theorem kept_State_onPage (s : State) (p : Nat) (f : Page → Page) : Kept (State.onPage s p f) s := by
  simp only [State.onPage, Kept, length_lupd, and_self]

theorem kept_State_onTen (s : State) (t : Nat) (f : Ten → Ten) : Kept (State.onTen s t f) s := by
  simp only [State.onTen, Kept, length_lupd, and_self]

theorem kept_State_spend (s : State) : Kept (State.spend s) s := by
  simp only [State.spend, Kept, and_self]

theorem kept_startWait (p : Nat) (a1 : Hdr) (op : U8) (w : Wait) (s : State) : Kept (startWait p a1 op w s) s := by
  simp only [startWait, Kept, and_self, kept_State_onPage]

theorem kept_State_onSlot (s : State) (m : Nat) (f : Slot → Slot) : Kept (State.onSlot s m f) s := by
  simp only [State.onSlot, Kept, length_lupd, and_self]

theorem kept_vecEval (p : Nat) (v : Nat) (s : State) : Kept (vecEval p v s) s := by
  simp only [vecEval, Kept, kIte, kIteCtl, kIteLen, kIteGh, ite_self, and_self, kept_State_onPage]

theorem kept_State_onReqH (s : State) (a1 : U32) (f : Req → Req) : Kept (State.onReqH s a1 f) s := by
  simp only [State.onReqH, Kept, and_self, kept_State_onReq]

theorem kept_rollUp (a0 : U32) (s : State) : Kept (rollUp a0 s) s := by
  simp only [rollUp, Kept, and_self, kept_State_onTen, kept_State_onReqH]
  repeat' (first | with_reducible rfl | simp only [Kept, and_self, kept_State_onTen, kept_State_onReqH] | split)

theorem kept_vecEvent (p : Nat) (v : Nat) (s : State) : Kept (vecEvent p v s) s := by
  simp only [vecEvent, Kept, and_self, kept_State_onPage, kept_vecEval]

theorem kept_moveReq (a0 : U32) (st : RState) (s : State) : Kept (moveReq a0 st s) s := by
  simp only [moveReq, Kept, kIte, kIteCtl, kIteLen, kIteGh, ite_self, and_self, kept_State_onReqH, kept_vecEvent,
    kept_trace]
  repeat' (first | with_reducible rfl | simp only [Kept, kIte, kIteCtl, kIteLen, kIteGh, ite_self, and_self, kept_State_onReqH, kept_vecEvent, kept_trace] | split)

theorem kept_logErr (e : ErrIn) (s : State) : Kept (logErr e s) s := by
  simp only [logErr, Kept, and_self, kept_vecEvent, kept_logQuiet]

theorem kept_regRefused (off : Nat) (island : Nat) (s : State) : Kept (regRefused off island s) s := by
  simp only [regRefused, Kept, and_self, kept_logErr]

theorem kept_completeUrg (p : Nat) (slot : Nat) (irq : Bool) (st : Nat) (r0 : U64) (r1 : U64) (r2 : U64) (s : State)
    : Kept (completeUrg p slot irq st r0 r1 r2 s) s := by
  simp only [completeUrg, Kept, kIte, kIteCtl, kIteLen, kIteGh, ite_self, and_self, kept_State_onPage, kept_vecEvent]

theorem kept_fatal (code : Nat) (s : State) : Kept (fatal code s) s := by
  simp only [fatal, Kept, and_self, kept_vecEvent, kept_logErr]

theorem kept_budgetWarn (t : Nat) (s : State) : Kept (budgetWarn t s) s := by
  simp only [budgetWarn, Kept, kIte, kIteCtl, kIteLen, kIteGh, ite_self, and_self, kept_State_onTen, kept_vecEvent]

theorem kept_chargeUse (t : ℕ) (c : Ledg) (s : State) : Kept (chargeUse t c s) s := by
  simp only [chargeUse, Kept, kIte, kIteCtl, kIteLen, kIteGh, ite_self, and_self, kept_budgetWarn, kept_State_onTen]

theorem kept_pageError (p : Nat) (code : Nat) (addr : Nat) (s : State) : Kept (pageError p code addr s) s := by
  simp only [pageError, Kept, kIte, kIteCtl, kIteLen, kIteGh, ite_self, and_self, kept_State_onPage, kept_logErr,
    kept_vecEvent]

theorem kept_chargeTen (t : Nat) (n : Nat) (s : State) : Kept (chargeTen t n s) s := by
  simp only [chargeTen, Kept, kIte, kIteCtl, kIteLen, kIteGh, ite_self, and_self, kept_chargeUse, kept_State_onTen]

theorem kept_egress (i : ℕ) (n : ℕ) (s : State) : Kept (egress i n s) s := by
  simp only [egress, Kept, and_self, kept_onArb]

theorem kept_hostWrite (i : ℕ) (p : ℕ) (n : ℕ) (w : HostWr) (s : State) : Kept (hostWrite i p n w s) s := by
  simp only [hostWrite, Kept, and_self, kept_egress]

theorem kept_writeCqe (p : ℕ) (c : Cpl) (s : State) : Kept (writeCqe p c s) s := by
  simp only [writeCqe, Kept, kIte, kIteCtl, kIteLen, kIteGh, ite_self, and_self, kept_vecEvent, kept_State_onPage, kept_chargeTen, kept_hostWrite]

theorem kept_drainCq (p n : Nat) (s : State) : Kept (drainCq p n s) s := by
  induction n generalizing s with
  | zero => exact Kept.rfl'
  | succ n ih =>
    simp only [drainCq]
    repeat' split
    all_goals first | exact Kept.rfl' | exact (ih _).trans ((kept_writeCqe ..).trans (kept_State_onPage ..))

theorem kept_chargeReq (a0 : U32) (c : Ledg) (s : State) : Kept (chargeReq a0 c s) s := by
  simp only [chargeReq, Kept, kIte, kIteCtl, kIteLen, kIteGh, ite_self, and_self, kept_chargeUse, kept_State_onTen,
    kept_State_onReqH]
  repeat' (first | with_reducible rfl | simp only [Kept, kIte, kIteCtl, kIteLen, kIteGh, ite_self, and_self, kept_chargeUse, kept_State_onTen, kept_State_onReqH] | split)

theorem kept_traceMsg (p : ℕ) (op : U8) (st : ℕ) (tag : U16) (s : State) : Kept (traceMsg p op st tag s) s := by
  simp only [traceMsg, Kept, kIte, kIteCtl, kIteLen, kIteGh, kMap, length_lupd, ite_self, and_self, implies_true, kept_trace]

theorem kept_complete (p : ℕ) (c : Cpl) (s : State) : Kept (complete p c s) s := by
  simp only [complete, Kept, kIte, kIteCtl, kIteLen, kIteGh, kMap, length_lupd, ite_self, and_self, implies_true, kept_writeCqe, kept_traceMsg, kept_State_onPage]

theorem kept_replyVia (p : ℕ) (via : Via) (op : U8) (st : ℕ) (res : List (ℕ × ℕ)) (r0 : ℕ) (r1 : ℕ) (s : State) : Kept (replyVia p via op st res r0 r1 s) s := by
  simp only [replyVia, Kept, kIte, kIteCtl, kIteLen, kIteGh, kMap, length_lupd, ite_self, and_self, implies_true, kept_completeUrg, kept_complete, kept_traceMsg]
  repeat' (first | with_reducible rfl | simp only [Kept, kIte, kIteCtl, kIteLen, kIteGh, kMap, length_lupd, ite_self, and_self, implies_true, kept_completeUrg, kept_complete, kept_traceMsg] | split)

theorem kept_finish (p : Nat) (pick : Started → Option (Nat × List (Nat × Nat))) (s : State) : Kept (finish p pick
    s) s := by
  simp (disch := (intros; repeat' (first | with_reducible rfl | simp only [Kept, kIte, kIteCtl, kIteLen, kIteGh, kMap, length_lupd, ite_self, and_self, implies_true, kept_State_onPage, kept_each, kept_complete] | split))) only [finish, Kept, kIte, kIteCtl, kIteLen, kIteGh, kMap, length_lupd, ite_self, and_self, implies_true, kept_State_onPage, kept_each, kept_complete]
  repeat' (first | with_reducible rfl | simp (disch := (intros; repeat' (first | with_reducible rfl | simp only [Kept, kIte, kIteCtl, kIteLen, kIteGh, kMap, length_lupd, ite_self, and_self, implies_true, kept_State_onPage, kept_each, kept_complete] | split))) only [Kept, kIte, kIteCtl, kIteLen, kIteGh, kMap, length_lupd, ite_self, and_self, implies_true, kept_State_onPage, kept_each, kept_complete] | split)

theorem kept_reply (p : Nat) (a1 : Hdr) (op : U8) (st : Nat) (res : List (Nat × Nat)) (s : State) : Kept (reply p a1
    op st res s) s := by
  simp only [reply, Kept, and_self, kept_replyVia]

theorem kept_finishAll (pick : Nat → Started → Option (Nat × List (Nat × Nat))) (s : State) : Kept (finishAll pick
    s) s := by
  simp only [finishAll, Kept, and_self, implies_true, kept_each, kept_finish]

theorem kept_putReads (l : List HostRd) (s : State) : Kept (putReads l s) s := by
  simp only [putReads, Kept, and_self]

theorem kept_putCopy (i : ℕ) (c : CopyReq) (s : State) : Kept (putCopy i c s) s := by
  simp only [putCopy, Kept, and_self, kept_onArb]

theorem kept_gdnWrite (p : ℕ) (n : ℕ) (s : State) : Kept (gdnWrite p n s) s := by
  simp only [gdnWrite, Kept, kIte, kIteCtl, kIteLen, kIteGh, kMap, length_lupd, ite_self, and_self, implies_true, kept_egress]

end Sys2Proof.Machine
end

