-- ==== Sys2Proof/Laws/Plots.lean ====
section
/-! SUPPORT. What the operations of Machine/Plots.lean leave as it was (Laws/Kept.lean). -/

namespace Sys2Proof.Machine

set_option linter.unusedSimpArgs false
set_option linter.unusedVariables false

theorem kept_tellRestore (r : Req) (s : State) : Kept (tellRestore r s) s := by
  simp only [tellRestore, Kept, kIte, ite_self, and_self]

theorem kept_onMoves (f : List Move → List Move) (s : State) : Kept (onMoves f s) s := by
  simp only [onMoves, Kept, and_self]

theorem kept_addRun (r : ColdRun) (s : State) : Kept (addRun r s) s := by
  simp only [addRun, Kept, and_self]

theorem kept_queueSpill (slot : Nat) (cls : MoveFor) (s : State) : Kept (queueSpill slot cls s) s := by
  simp only [queueSpill, Kept, and_self, kept_onMoves]
  repeat' (first | with_reducible rfl | simp only [Kept, and_self, kept_onMoves] | split)

theorem kept_retryPassed (s : State) : Kept (retryPassed s) s := by
  simp only [retryPassed, Kept, kMap, and_self]

theorem kept_releaseFrame (p : ℕ) (s : State) : Kept (releaseFrame p s) s := by
  simp only [releaseFrame, Kept, kIte, kIteCtl, kIteLen, kIteGh, ite_self, and_self, kept_retryPassed]

theorem kept_freeRun (r : ColdRun) (s : State) : Kept (freeRun r s) s := by
  simp only [freeRun, Kept, and_self]

theorem kept_setRef (p : Nat) (c : Nat) (s : State) : Kept (setRef p c s) s := by
  simp only [setRef, Kept, and_self]

theorem kept_flushNote (s : State) : Kept (flushNote s) s := by
  simp only [flushNote, Kept, kMap, and_self]

theorem kept_enterPool (s : State) : Kept (enterPool s) s := by
  simp only [enterPool, Kept, and_self]

theorem kept_onMirror (a0 : U32) (f : Mirror → Mirror) (s : State) : Kept (onMirror a0 f s) s := by
  simp only [onMirror, Kept, and_self]

theorem kept_mirrorBack (a0 : U32) (j : Nat) (s : State) : Kept (mirrorBack a0 j s) s := by
  simp only [mirrorBack, Kept, kIte, ite_self, and_self, kept_onMirror]
  repeat' (first | with_reducible rfl | simp only [Kept, kIte, ite_self, and_self, kept_onMirror] | split)

theorem kept_offerBack (h : U32) (s : State) : Kept (offerBack h s) s := by
  simp only [offerBack, Kept, and_self, kept_State_onReqH]

theorem kept_restoreEnd (slot : ℕ) (s : State) : Kept (restoreEnd slot s) s := by
  simp only [restoreEnd, Kept, kIte, kIteCtl, kIteLen, kIteGh, ite_self, and_self, kept_offerBack, kept_State_onReq]
  repeat' (first | with_reducible rfl | simp only [Kept, kIte, kIteCtl, kIteLen, kIteGh, ite_self, and_self, kept_offerBack, kept_State_onReq] | split)

theorem kept_setEnt (slot : Nat) (j : Nat) (f : PlotEnt → PlotEnt) (s : State) : Kept (setEnt slot j f s) s := by
  simp only [setEnt, Kept, kIte, kIteCtl, kIteLen, kIteGh, ite_self, and_self, kept_State_onReq]

theorem kept_dropRef (p : Nat) (s : State) : Kept (dropRef p s) s := by
  simp only [dropRef, Kept, kIte, kIteCtl, kIteLen, kIteGh, ite_self, and_self, kept_releaseFrame, kept_setRef]

theorem kept_dropPlot (slot : Nat) (j : Nat) (s : State) : Kept (dropPlot slot j s) s := by
  simp only [dropPlot, Kept, and_self, kept_setEnt, kept_dropRef]
  repeat' (first | with_reducible rfl | simp only [Kept, and_self, kept_setEnt, kept_dropRef] | split)

theorem kept_cutTable (slot : ℕ) (j : ℕ) (s : State) : Kept (cutTable slot j s) s := by
  simp (disch := (intros; repeat' (first | with_reducible rfl | simp only [Kept, kIte, kIteCtl, kIteLen, kIteGh, kMap, length_lupd, ite_self, and_self, implies_true, kept_onMoves, kept_each, kept_freeRun, kept_State_onReq, kept_dropRef] | split))) only [cutTable, Kept, kIte, kIteCtl, kIteLen, kIteGh, kMap, length_lupd, ite_self, and_self, implies_true, kept_onMoves, kept_each, kept_freeRun, kept_State_onReq, kept_dropRef]
  repeat' (first | with_reducible rfl | simp (disch := (intros; repeat' (first | with_reducible rfl | simp only [Kept, kIte, kIteCtl, kIteLen, kIteGh, kMap, length_lupd, ite_self, and_self, implies_true, kept_onMoves, kept_each, kept_freeRun, kept_State_onReq, kept_dropRef] | split))) only [Kept, kIte, kIteCtl, kIteLen, kIteGh, kMap, length_lupd, ite_self, and_self, implies_true, kept_onMoves, kept_each, kept_freeRun, kept_State_onReq, kept_dropRef] | split)

theorem kept_freeBlock (m : ℕ) (n : ℕ) (s : State) : Kept (freeBlock m n s) s := by
  simp only [freeBlock, Kept, kIte, kIteCtl, kIteLen, kIteGh, kMap, length_lupd, ite_self, and_self, implies_true]

theorem kept_dropTable (slot : ℕ) (s : State) : Kept (dropTable slot s) s := by
  simp (disch := (intros; repeat' (first | with_reducible rfl | simp only [Kept, kIte, kIteCtl, kIteLen, kIteGh, kMap, length_lupd, ite_self, and_self, implies_true, kept_onMoves, kept_each, kept_freeRun, kept_freeBlock, kept_State_onReq, kept_dropRef] | split))) only [dropTable, Kept, kIte, kIteCtl, kIteLen, kIteGh, kMap, length_lupd, ite_self, and_self, implies_true, kept_onMoves, kept_each, kept_freeRun, kept_freeBlock, kept_State_onReq, kept_dropRef]
  repeat' (first | with_reducible rfl | simp (disch := (intros; repeat' (first | with_reducible rfl | simp only [Kept, kIte, kIteCtl, kIteLen, kIteGh, kMap, length_lupd, ite_self, and_self, implies_true, kept_onMoves, kept_each, kept_freeRun, kept_freeBlock, kept_State_onReq, kept_dropRef] | split))) only [Kept, kIte, kIteCtl, kIteLen, kIteGh, kMap, length_lupd, ite_self, and_self, implies_true, kept_onMoves, kept_each, kept_freeRun, kept_freeBlock, kept_State_onReq, kept_dropRef] | split)

theorem kept_restoreCut (slot : ℕ) (j : ℕ) (s : State) : Kept (restoreCut slot j s) s := by
  simp only [restoreCut, Kept, kIte, kIteCtl, kIteLen, kIteGh, kMap, length_lupd, ite_self, and_self, implies_true, kept_onMoves, kept_each, kept_restoreEnd, kept_cutTable, kept_State_onReq, kept_dropRef]

theorem kept_restoreFail (m : Move) (s : State) : Kept (restoreFail m s) s := by
  simp only [restoreFail, Kept, kIte, kIteCtl, kIteLen, kIteGh, kMap, length_lupd, ite_self, and_self, implies_true, kept_onMoves, kept_setEnt, kept_freeRun, kept_mirrorBack, kept_restoreCut, kept_dropRef]
  repeat' (first | with_reducible rfl | simp only [Kept, kIte, kIteCtl, kIteLen, kIteGh, kMap, length_lupd, ite_self, and_self, implies_true, kept_onMoves, kept_setEnt, kept_freeRun, kept_mirrorBack, kept_restoreCut, kept_dropRef] | split)

theorem kept_tableOut (slot : ℕ) (r : Req) (s : State) : Kept (tableOut slot r s) s := by
  simp only [tableOut, Kept, and_self, kept_addRun, kept_putCopy, kept_State_onReq]
  repeat' (first | with_reducible rfl | simp only [Kept, and_self, kept_addRun, kept_putCopy, kept_State_onReq] | split)

theorem kept_spillEnd (slot : ℕ) (s : State) : Kept (spillEnd slot s) s := by
  simp only [spillEnd, Kept, kIte, kIteCtl, kIteLen, kIteGh, ite_self, and_self, kept_moveReq, kept_tableOut]
  repeat' (first | with_reducible rfl | simp only [Kept, kIte, kIteCtl, kIteLen, kIteGh, ite_self, and_self, kept_moveReq, kept_tableOut] | split)

theorem kept_spillFail (m : Move) (poisoned : Bool) (s : State) : Kept (spillFail m poisoned s) s := by
  simp only [spillFail, Kept, kIte, kIteCtl, kIteLen, kIteGh, ite_self, and_self, kept_onMoves, kept_freeRun, kept_spillEnd, kept_dropPlot, kept_dropRef]
  repeat' (first | with_reducible rfl | simp only [Kept, kIte, kIteCtl, kIteLen, kIteGh, ite_self, and_self, kept_onMoves, kept_freeRun, kept_spillEnd, kept_dropPlot, kept_dropRef] | split)

theorem kept_moveCopy (m : Move) (run : ColdRun) (s : State) : Kept (moveCopy m run s) s := by
  simp only [moveCopy, Kept, and_self, kept_putCopy]

theorem kept_launchMove (m : Move) (run : ColdRun) (s : State) : Kept (launchMove m run s) s := by
  simp only [launchMove, Kept, and_self, kept_onMoves, kept_moveCopy]

theorem kept_startMoves (n : Nat) (s : State) : Kept (startMoves n s) s := by
  induction n generalizing s with
  | zero => exact Kept.rfl'
  | succ n ih =>
    simp only [startMoves]
    refine Kept.ite Kept.rfl' ?_
    split
    · exact Kept.rfl'
    · refine Kept.ite ((ih _).trans ?_) ?_
      · split
        · exact kept_launchMove ..
        · exact kept_onMoves ..
      · split
        · exact (ih _).trans ((kept_launchMove ..).trans (kept_addRun ..))
        · refine Kept.ite ((ih _).trans ((kept_spillEnd ..).trans ((kept_dropPlot ..).trans (kept_onMoves ..)))) ?_
          exact (ih _).trans (kept_onMoves ..)

theorem kept_coldCharge (a0 : U32) (t : Tier) (n : Nat) (s : State) : Kept (coldCharge a0 t n s) s := by
  simp only [coldCharge, Kept, and_self, kept_chargeReq]

theorem kept_pumpMoves (s : State) : Kept (pumpMoves s) s := by
  simp only [pumpMoves, Kept, and_self, kept_startMoves]

theorem kept_restoreDone (m : Move) (s : State) : Kept (restoreDone m s) s := by
  simp only [restoreDone, Kept, kIte, kIteCtl, kIteLen, kIteGh, kMap, length_lupd, ite_self, and_self, implies_true, kept_pumpMoves, kept_onMoves, kept_queueSpill, kept_setEnt, kept_freeRun, kept_restoreEnd, kept_coldCharge, kept_progressNow, kept_mirrorBack, kept_State_onReq, kept_dropRef]
  repeat' (first | with_reducible rfl | simp only [Kept, kIte, kIteCtl, kIteLen, kIteGh, kMap, length_lupd, ite_self, and_self, implies_true, kept_pumpMoves, kept_onMoves, kept_queueSpill, kept_setEnt, kept_freeRun, kept_restoreEnd, kept_coldCharge, kept_progressNow, kept_mirrorBack, kept_State_onReq, kept_dropRef] | split)

theorem kept_spillDone (m : Move) (s : State) : Kept (spillDone m s) s := by
  simp only [spillDone, Kept, kIte, kIteCtl, kIteLen, kIteGh, ite_self, and_self, kept_onMoves, kept_progressNow,
    kept_freeRun, kept_dropRef, kept_coldCharge, kept_setEnt, kept_spillEnd]
  repeat' (first | with_reducible rfl | simp only [Kept, kIte, kIteCtl, kIteLen, kIteGh, ite_self, and_self, kept_onMoves, kept_progressNow, kept_freeRun, kept_dropRef, kept_coldCharge, kept_setEnt, kept_spillEnd] | split)

theorem kept_startRestore (slot : ℕ) (s : State) : Kept (startRestore slot s) s := by
  simp (disch := (intros; repeat' (first | with_reducible rfl | simp only [Kept, kIte, kIteCtl, kIteLen, kIteGh, kMap, length_lupd, ite_self, and_self, implies_true, kept_pumpMoves, kept_onMoves, kept_each, kept_freeRun, kept_restoreEnd, kept_putCopy, kept_setRef, kept_cutTable, kept_tellRestore, kept_State_onReq] | split))) only [startRestore, Kept, kIte, kIteCtl, kIteLen, kIteGh, kMap, length_lupd, ite_self, and_self, implies_true, kept_pumpMoves, kept_onMoves, kept_each, kept_freeRun, kept_restoreEnd, kept_putCopy, kept_setRef, kept_cutTable, kept_tellRestore, kept_State_onReq]
  repeat' (first | with_reducible rfl | simp (disch := (intros; repeat' (first | with_reducible rfl | simp only [Kept, kIte, kIteCtl, kIteLen, kIteGh, kMap, length_lupd, ite_self, and_self, implies_true, kept_pumpMoves, kept_onMoves, kept_each, kept_freeRun, kept_restoreEnd, kept_putCopy, kept_setRef, kept_cutTable, kept_tellRestore, kept_State_onReq] | split))) only [Kept, kIte, kIteCtl, kIteLen, kIteGh, kMap, length_lupd, ite_self, and_self, implies_true, kept_pumpMoves, kept_onMoves, kept_each, kept_freeRun, kept_restoreEnd, kept_putCopy, kept_setRef, kept_cutTable, kept_tellRestore, kept_State_onReq] | split)

theorem kept_startRestores (n : Nat) (s : State) : Kept (startRestores n s) s := by
  induction n generalizing s with
  | zero => exact Kept.rfl'
  | succ n ih =>
    simp only [startRestores]
    repeat' split
    all_goals first | exact Kept.rfl' | exact (ih _).trans (kept_startRestore ..)

theorem kept_mirrorRestore (a0 : U32) (s : State) : Kept (mirrorRestore a0 s) s := by
  simp (disch := (intros; repeat' (first | with_reducible rfl | simp only [Kept, kIte, kIteCtl, kIteLen, kIteGh, kMap, length_lupd, ite_self, and_self, implies_true, kept_onMirror, kept_pumpMoves, kept_each, kept_setRef, kept_onMoves, kept_mirrorBack, kept_setEnt] | split))) only [mirrorRestore, Kept, kIte, kIteCtl, kIteLen, kIteGh, kMap, length_lupd, ite_self, and_self, implies_true, kept_onMirror, kept_pumpMoves, kept_each, kept_setRef, kept_onMoves, kept_mirrorBack, kept_setEnt]
  repeat' (first | with_reducible rfl | simp (disch := (intros; repeat' (first | with_reducible rfl | simp only [Kept, kIte, kIteCtl, kIteLen, kIteGh, kMap, length_lupd, ite_self, and_self, implies_true, kept_onMirror, kept_pumpMoves, kept_each, kept_setRef, kept_onMoves, kept_mirrorBack, kept_setEnt] | split))) only [Kept, kIte, kIteCtl, kIteLen, kIteGh, kMap, length_lupd, ite_self, and_self, implies_true, kept_onMirror, kept_pumpMoves, kept_each, kept_setRef, kept_onMoves, kept_mirrorBack, kept_setEnt] | split)

theorem kept_mirrorRestores (a0 : ℕ) (s : State) : Kept (mirrorRestores a0 s) s := by
  induction a0 generalizing s with
  | zero => exact Kept.rfl'
  | succ n ih =>
    simp only [mirrorRestores]
    split
    · exact (ih _).trans (kept_mirrorRestore ..)
    · exact Kept.rfl'

theorem kept_restores (s : State) : Kept (restores s) s := by
  simp only [restores, Kept, kIte, kIteCtl, kIteLen, kIteGh, kMap, length_lupd, ite_self, and_self, implies_true, kept_mirrorRestores, kept_startRestores]

theorem kept_flushDone (s : State) : Kept (flushDone s) s := by
  simp only [flushDone, Kept, and_self, kept_flushNote, kept_finishAll]

theorem kept_growBlock (a n : Nat) (s t : State) (h : growBlock a n s = some t) : Kept t s := by
  simp only [growBlock] at h
  repeat' split at h
  all_goals first
    | (cases h; done)
    | (cases h; exact Kept.rfl')
    | (cases h; exact (kept_freeBlock ..).trans (kept_State_onReq ..))

theorem kept_reserveOne (slot : Nat) (s t : State) (h : reserveOne slot s = some t) : Kept t s := by
  simp only [reserveOne] at h
  split at h
  · cases h
  · split at h
    · cases h
    · split at h
      · rename_i _ _ _ _ s1 _ _ h1 _
        cases h
        exact (kept_State_onReq ..).trans ((kept_setRef ..).trans (kept_growBlock _ _ _ _ h1))
      · cases h

theorem kept_reserveSome (slot n : Nat) (s : State) : Kept (reserveSome slot n s) s := by
  induction n generalizing s with
  | zero => exact Kept.rfl'
  | succ n ih =>
    simp only [reserveSome]
    split
    · rename_i h; exact (ih _).trans (kept_reserveOne _ _ _ h)
    · exact Kept.rfl'

theorem kept_coverSome (slot : ℕ) (n : ℕ) (s : State) : Kept (coverSome slot n s) s := by
  simp only [coverSome, Kept, and_self, kept_reserveSome]
  repeat' (first | with_reducible rfl | simp only [Kept, and_self, kept_reserveSome] | split)

theorem kept_reserveN (slot n : Nat) (s t : State) (h : reserveN slot n s = some t) : Kept t s := by
  induction n generalizing s with
  | zero => cases h; exact Kept.rfl'
  | succ n ih =>
    simp only [reserveN] at h
    split at h
    · rename_i h1; exact (ih _ h).trans (kept_reserveOne _ _ _ h1)
    · cases h

theorem kept_coverTo (slot n : Nat) (s t : State) (h : coverTo slot n s = some t) : Kept t s := by
  simp only [coverTo] at h
  split at h
  · exact kept_reserveN _ _ _ _ h
  · cases h

theorem kept_stopRestore (slot : ℕ) (s : State) : Kept (stopRestore slot s) s := by
  simp only [stopRestore, Kept, and_self, implies_true, kept_onMoves, kept_each, kept_dropRef]

theorem kept_tableFail (h : U32) (back : Bool) (s : State) : Kept (tableFail h back s) s := by
  simp only [tableFail, Kept, kIte, kIteCtl, kIteLen, kIteGh, kMap, length_lupd, ite_self, and_self, implies_true, kept_freeRun, kept_restoreCut, kept_State_onReqH]
  repeat' (first | with_reducible rfl | simp only [Kept, kIte, kIteCtl, kIteLen, kIteGh, kMap, length_lupd, ite_self, and_self, implies_true, kept_freeRun, kept_restoreCut, kept_State_onReqH] | split)

end Sys2Proof.Machine
end

