-- ==== Sys2Proof/Laws/Seedbed.lean ====
section
/-! SUPPORT. What the operations of Machine/Seedbed.lean leave as it was (Laws/Kept.lean). -/

namespace Sys2Proof.Machine

set_option linter.unusedSimpArgs false
set_option linter.unusedVariables false

theorem kept_onSeed (f : Seed → Seed) (s : State) : Kept (onSeed f s) s := by
  simp only [onSeed, Kept, and_self]

theorem kept_cacheTouch (n : Nat) (s : State) : Kept (cacheTouch n s) s := by
  simp only [cacheTouch, Kept, and_self, kept_onSeed]

theorem kept_setChildren (p : Option ℕ) (f : ℕ → ℕ) (s : State) : Kept (setChildren p f s) s := by
  simp only [setChildren, Kept, and_self, kept_onSeed, kept_cacheTouch]
  repeat' (first | with_reducible rfl | simp only [Kept, and_self, kept_onSeed, kept_cacheTouch] | split)

theorem kept_lessChild (p : Option ℕ) (s : State) : Kept (lessChild p s) s := by
  simp only [lessChild, Kept, and_self, kept_setChildren]

theorem kept_delNode (n : ℕ) (s : State) : Kept (delNode n s) s := by
  simp only [delNode, Kept, and_self, kept_onSeed, kept_cacheTouch]

theorem kept_putNode (n : Nat) (a1 : Node) (s : State) : Kept (putNode n a1 s) s := by
  simp only [putNode, Kept, and_self, kept_cacheTouch, kept_onSeed]

theorem kept_evictNode (n : Nat) (s : State) : Kept (evictNode n s) s := by
  simp only [evictNode, Kept, kIte, kIteCtl, kIteLen, kIteGh, ite_self, and_self, kept_lessChild, kept_delNode,
    kept_dropRef]
  repeat' (first | with_reducible rfl | simp only [Kept, kIte, kIteCtl, kIteLen, kIteGh, ite_self, and_self, kept_lessChild, kept_delNode, kept_dropRef] | split)

theorem kept_dropCands (s : State) : Kept (dropCands s) s := by
  simp only [dropCands, Kept, and_self, kept_onSeed]

theorem kept_pinNodes (up : Bool) (ns : List ℕ) (s : State) : Kept (pinNodes up ns s) s := by
  simp (disch := (intros; repeat' (first | with_reducible rfl | simp only [Kept, kIte, kIteCtl, kIteLen, kIteGh, kMap, length_lupd, ite_self, and_self, implies_true, kept_each, kept_dropCands, kept_putNode] | split))) only [pinNodes, Kept, kIte, kIteCtl, kIteLen, kIteGh, kMap, length_lupd, ite_self, and_self, implies_true, kept_each, kept_dropCands, kept_putNode]
  repeat' (first | with_reducible rfl | simp (disch := (intros; repeat' (first | with_reducible rfl | simp only [Kept, kIte, kIteCtl, kIteLen, kIteGh, kMap, length_lupd, ite_self, and_self, implies_true, kept_each, kept_dropCands, kept_putNode] | split))) only [Kept, kIte, kIteCtl, kIteLen, kIteGh, kMap, length_lupd, ite_self, and_self, implies_true, kept_each, kept_dropCands, kept_putNode] | split)

theorem kept_raiseRef (p : Nat) (s t : State) (h : raiseRef p s = some t) : Kept t s := by
  simp only [raiseRef] at h
  repeat' split at h
  all_goals first | (cases h; done) | (cases h; first | exact Kept.rfl' | exact kept_setRef ..)

theorem kept_raiseChain (slot : Nat) (l : List Nat) (s : State) : Kept (raiseChain slot l s).1 s := by
  induction l generalizing s with
  | nil => exact Kept.rfl'
  | cons n l ih =>
    simp only [raiseChain]
    split
    · exact Kept.rfl'
    · split
      · exact Kept.rfl'
      · split
        · exact Kept.rfl'
        · rename_i _ _ _ _ s1 h1 _ s2 h2
          exact (ih _).trans ((kept_putNode ..).trans ((kept_State_onReq ..).trans ((kept_raiseRef _ _ _ h2).trans
            (kept_growBlock _ _ _ _ h1))))

theorem kept_insertNode (slot j : Nat) (key : Key) (parent : Option Nat) (s : State) :
    Kept (insertNode slot j key parent s).1 s := by
  simp only [insertNode]
  split
  · exact Kept.rfl'
  · split
    · exact Kept.rfl'
    · split
      · exact kept_onSeed ..
      · split
        · exact kept_evictNode ..
        · rename_i _ _ _ _ _ _ _ _ _ _ _ h
          have := kept_raiseRef _ _ _ h
          simp only [Kept, kept_setEnt, kept_dropCands, kept_setChildren, kept_putNode, this, kept_evictNode, and_self]

theorem kept_sweepNode (n : Nat) (s : State) : Kept (sweepNode n s) s := by
  simp only [sweepNode, Kept, kIte, kIteCtl, kIteLen, kIteGh, ite_self, and_self, kept_evictNode, kept_onSeed]
  repeat' (first | with_reducible rfl | simp only [Kept, kIte, kIteCtl, kIteLen, kIteGh, ite_self, and_self, kept_evictNode, kept_onSeed] | split)

theorem kept_seedMatch (slot : ℕ) (s : State) : Kept (seedMatch slot s).1 s := by
  simp only [seedMatch, Kept, and_self, implies_true, kept_each, kept_onSeed, kept_cacheTouch, kept_dropCands, kept_raiseChain]
  repeat' (first | with_reducible rfl | simp only [Kept, and_self, implies_true, kept_each, kept_onSeed, kept_cacheTouch, kept_dropCands, kept_raiseChain] | split)

theorem kept_offer (slot : Nat) (j : Nat) (s : State) : Kept (offer slot j s) s := by
  simp only [offer, Kept, and_self, kept_putNode, kept_insertNode]
  repeat' (first | with_reducible rfl | simp only [Kept, and_self, kept_putNode, kept_insertNode] | split)

theorem kept_removeNodes (pick : Node → Bool) (s : State) : Kept (removeNodes pick s) s := by
  simp only [removeNodes, Kept, and_self, implies_true, kept_each, kept_pinNodes, kept_State_onTen, kept_lessChild,
    kept_delNode, kept_dropRef]

theorem kept_publish (slot : Nat) (key : Key) (l : List Nat) (parent : Option Nat) (s : State) :
    Kept (publish slot key l parent s).1 s := by
  induction l generalizing parent s with
  | nil => exact Kept.rfl'
  | cons j js ih =>
    simp only [publish]
    split
    · exact Kept.rfl'
    · split
      · exact ih ..
      · split
        · rename_i h
          have := kept_insertNode slot j key parent s
          rw [h] at this
          exact (ih ..).trans this
        · rename_i h
          have := kept_insertNode slot j key parent s
          rw [h] at this
          exact this

theorem kept_offerAll (slot : Nat) (written : Nat) (s : State) : Kept (offerAll slot written s) s := by
  simp only [offerAll, Kept, kIte, kIteCtl, kIteLen, kIteGh, ite_self, and_self, implies_true, kept_each,
    kept_offer, kept_State_onReq]
  repeat' (first | with_reducible rfl | simp only [Kept, kIte, kIteCtl, kIteLen, kIteGh, ite_self, and_self, implies_true, kept_each, kept_offer, kept_State_onReq] | split)

theorem kept_sweepStep (s : State) : Kept (sweepStep s) s := by
  simp only [sweepStep, Kept, and_self, kept_sweepNode, kept_onSeed]
  repeat' (first | with_reducible rfl | simp only [Kept, and_self, kept_sweepNode, kept_onSeed] | split)

end Sys2Proof.Machine
end

