-- ==== Sys2Proof/Laws/Dispatcher.lean ====
section
/-! SUPPORT. What the operations of Machine/Dispatcher.lean leave as it was (Laws/Kept.lean). -/

namespace Sys2Proof.Machine

set_option linter.unusedSimpArgs false
set_option linter.unusedVariables false

theorem kept_onDisp (f : Disp → Disp) (s : State) : Kept (onDisp f s) s := by
  simp only [onDisp, Kept, and_self]

theorem kept_chargeRows (rows : List (BitVec 13 × ℕ)) (ns : ℕ) (mk : ℕ → Ledg) (s : State) : Kept (chargeRows rows ns mk s) s := by
  simp only [chargeRows, Kept, kIte, kIteCtl, kIteLen, kIteGh, kMap, length_lupd, ite_self, and_self, implies_true]

theorem kept_chargeStep (prefill : Bool) (rows : List (BitVec 13)) (ns : ℕ) (mk : ℕ → Ledg) (s : State) : Kept (chargeStep prefill rows ns mk s) s := by
  simp only [chargeStep, Kept, and_self, kept_chargeRows]

theorem kept_onCore (c : Nat) (f : Core → Core) (s : State) : Kept (onCore c f s) s := by
  simp only [onCore, Kept, and_self, kept_onDisp]

theorem kept_onBed (b : Nat) (f : Bed → Bed) (s : State) : Kept (onBed b f s) s := by
  simp only [onBed, Kept, and_self, kept_onDisp]

theorem kept_onCtx (b : Nat) (c : Nat) (f : Ctx → Ctx) (s : State) : Kept (onCtx b c f s) s := by
  simp only [onCtx, Kept, and_self, kept_onBed]

theorem kept_onItem (i : Nat) (f : Item → Item) (s : State) : Kept (onItem i f s) s := by
  simp only [onItem, Kept, and_self, kept_onDisp]

theorem kept_swapItems (b : ℕ) (mk : InboxItem) (s : State) : Kept (swapItems b mk s) s := by
  simp only [swapItems, Kept, and_self]

theorem kept_startRestoring (b : ℕ) (s : State) : Kept (startRestoring b s) s := by
  simp only [startRestoring, Kept, and_self, kept_swapItems, kept_onBed]
  repeat' (first | with_reducible rfl | simp only [Kept, and_self, kept_swapItems, kept_onBed] | split)

theorem kept_drained (b : ℕ) (s : State) : Kept (drained b s) s := by
  simp only [drained, Kept, kIte, kIteCtl, kIteLen, kIteGh, ite_self, and_self, implies_true, kept_startRestoring, kept_swapItems, kept_onBed, kept_each]
  repeat' (first | with_reducible rfl | simp only [Kept, kIte, kIteCtl, kIteLen, kIteGh, ite_self, and_self, implies_true, kept_startRestoring, kept_swapItems, kept_onBed, kept_each] | split)

theorem kept_drainCheck (b : ℕ) (s : State) : Kept (drainCheck b s) s := by
  simp only [drainCheck, Kept, kIte, kIteCtl, kIteLen, kIteGh, ite_self, and_self, kept_drained]
  repeat' (first | with_reducible rfl | simp only [Kept, kIte, kIteCtl, kIteLen, kIteGh, ite_self, and_self, kept_drained] | split)

theorem kept_removeItems (pick : Item → Bool) (s : State) : Kept (removeItems pick s) s := by
  simp only [removeItems, Kept, and_self, kept_onDisp]

theorem kept_dropItem (i : Nat) (s : State) : Kept (dropItem i s) s := by
  simp only [dropItem, Kept, and_self, kept_onDisp]

theorem kept_wakeItems (s : State) : Kept (wakeItems s) s := by
  simp only [wakeItems, Kept, and_self, kept_onDisp]

theorem kept_releaseItem (i : Item) (core : Nat) (busy : Nat) (s : State) : Kept (releaseItem i core busy s) s := by
  simp only [releaseItem, Kept, and_self, kept_dropItem, kept_trace, kept_onDisp, kept_onBed, kept_onCtx,
    kept_chargeStep, kept_progressNow]
  repeat' (first | with_reducible rfl | simp only [Kept, and_self, kept_dropItem, kept_trace, kept_onDisp, kept_onBed, kept_onCtx, kept_chargeStep, kept_progressNow] | split)

theorem kept_bringIn (pick : ℕ → Bool) (b : ℕ) (s : State) : Kept (bringIn pick b s) s := by
  simp (disch := (intros; repeat' (first | with_reducible rfl | simp only [Kept, kIte, kIteCtl, kIteLen, kIteGh, kMap, length_lupd, ite_self, and_self, implies_true, kept_onCtx, kept_each] | split))) only [bringIn, Kept, kIte, kIteCtl, kIteLen, kIteGh, kMap, length_lupd, ite_self, and_self, implies_true, kept_onCtx, kept_each]
  repeat' (first | with_reducible rfl | simp (disch := (intros; repeat' (first | with_reducible rfl | simp only [Kept, kIte, kIteCtl, kIteLen, kIteGh, kMap, length_lupd, ite_self, and_self, implies_true, kept_onCtx, kept_each] | split))) only [Kept, kIte, kIteCtl, kIteLen, kIteGh, kMap, length_lupd, ite_self, and_self, implies_true, kept_onCtx, kept_each] | split)

theorem kept_tracePreempt (i : ℕ) (c : ℕ) (waiting : Option ℕ) (s : State) : Kept (tracePreempt i c waiting s) s := by
  simp only [tracePreempt, Kept, and_self, kept_trace]

theorem kept_flagCore (c : ℕ) (waiting : Option ℕ) (s : State) : Kept (flagCore c waiting s) s := by
  simp only [flagCore, Kept, and_self, kept_tracePreempt, kept_onCore]
  repeat' (first | with_reducible rfl | simp only [Kept, and_self, kept_tracePreempt, kept_onCore] | split)

theorem kept_switchStart (b : ℕ) (s : State) : Kept (switchStart b s) s := by
  simp only [switchStart, Kept, kIte, kIteCtl, kIteLen, kIteGh, ite_self, and_self, implies_true, kept_onCtx, kept_onBed, kept_each, kept_flagCore, kept_trace, kept_drainCheck]
  repeat' (first | with_reducible rfl | simp only [Kept, kIte, kIteCtl, kIteLen, kIteGh, ite_self, and_self, implies_true, kept_onCtx, kept_onBed, kept_each, kept_flagCore, kept_trace, kept_drainCheck] | split)

theorem kept_preempt (b : ℕ) (s : State) : Kept (preempt b s) s := by
  simp (disch := (intros; repeat' (first | with_reducible rfl | simp only [Kept, kIte, kIteCtl, kIteLen, kIteGh, kMap, length_lupd, ite_self, and_self, implies_true, kept_each, kept_flagCore] | split))) only [preempt, Kept, kIte, kIteCtl, kIteLen, kIteGh, kMap, length_lupd, ite_self, and_self, implies_true, kept_each, kept_flagCore]
  repeat' (first | with_reducible rfl | simp (disch := (intros; repeat' (first | with_reducible rfl | simp only [Kept, kIte, kIteCtl, kIteLen, kIteGh, kMap, length_lupd, ite_self, and_self, implies_true, kept_each, kept_flagCore] | split))) only [Kept, kIte, kIteCtl, kIteLen, kIteGh, kMap, length_lupd, ite_self, and_self, implies_true, kept_each, kept_flagCore] | split)

theorem kept_releaseAll (n : Nat) (s : State) : Kept (releaseAll n s) s := by
  induction n generalizing s with
  | zero => exact Kept.rfl'
  | succ n ih =>
    simp only [releaseAll]
    repeat' split
    all_goals first | exact Kept.rfl' | exact (ih _).trans (kept_releaseItem ..)

theorem kept_placeItem (i : Nat) (c : Nat) (s : State) : Kept (placeItem i c s) s := by
  simp only [placeItem, Kept, and_self, kept_onDisp, kept_onItem]

theorem kept_reissue (i : Nat) (s : State) : Kept (reissue i s) s := by
  simp only [reissue, Kept, and_self, kept_trace, kept_onItem]
  repeat' (first | with_reducible rfl | simp only [Kept, and_self, kept_trace, kept_onItem] | split)

theorem kept_placeReady (b : Nat) (s : State) : Kept (placeReady b s) s := by
  simp (disch := (intros; repeat' (first | with_reducible rfl | simp only [Kept, kIte, kIteCtl, kIteLen, kIteGh, kMap, length_lupd, ite_self, and_self, implies_true, kept_each, kept_placeItem] | split))) only [placeReady, Kept, kIte, kIteCtl, kIteLen, kIteGh, kMap, length_lupd, ite_self, and_self, implies_true, kept_each, kept_placeItem]
  repeat' (first | with_reducible rfl | simp (disch := (intros; repeat' (first | with_reducible rfl | simp only [Kept, kIte, kIteCtl, kIteLen, kIteGh, kMap, length_lupd, ite_self, and_self, implies_true, kept_each, kept_placeItem] | split))) only [Kept, kIte, kIteCtl, kIteLen, kIteGh, kMap, length_lupd, ite_self, and_self, implies_true, kept_each, kept_placeItem] | split)

theorem kept_coreFree (c : ℕ) (s : State) : Kept (coreFree c s) s := by
  simp only [coreFree, Kept, kIte, kIteCtl, kIteLen, kIteGh, ite_self, and_self, kept_wakeItems, kept_onItem, kept_onCore, kept_placeItem]
  repeat' (first | with_reducible rfl | simp only [Kept, kIte, kIteCtl, kIteLen, kIteGh, ite_self, and_self, kept_wakeItems, kept_onItem, kept_onCore, kept_placeItem] | split)

theorem kept_holdCarried (new : Option Nat) (s : State) : Kept (holdCarried new s) s := by
  simp only [holdCarried, Kept, and_self, kept_onDisp]

theorem kept_schedule (s : State) : Kept (schedule s) s := by
  simp only [schedule, Kept, and_self, implies_true, kept_preempt, kept_wakeItems, kept_each, kept_placeReady, kept_drainCheck, kept_holdCarried]

theorem kept_orphanGone (c : ℕ) (s : State) : Kept (orphanGone c s) s := by
  simp only [orphanGone, Kept, kIte, kIteCtl, kIteLen, kIteGh, ite_self, and_self, kept_trace, kept_onCore]
  repeat' (first | with_reducible rfl | simp only [Kept, kIte, kIteCtl, kIteLen, kIteGh, ite_self, and_self, kept_trace, kept_onCore] | split)

theorem kept_returnItems (c : ℕ) (s : State) : Kept (returnItems c s) s := by
  simp only [returnItems, Kept, and_self, implies_true, kept_reissue, kept_each, kept_onCore, kept_onDisp, kept_orphanGone]
  repeat' (first | with_reducible rfl | simp only [Kept, and_self, implies_true, kept_reissue, kept_each, kept_onCore, kept_onDisp, kept_orphanGone] | split)

theorem kept_teardownCtx (b : Nat) (c : Nat) (s : State) : Kept (teardownCtx b c s) s := by
  simp only [teardownCtx, Kept, and_self, kept_trace, kept_onCtx, kept_onBed, kept_removeItems]

theorem kept_rearm (b : Nat) (s : State) : Kept (rearm b s) s := by
  simp only [rearm, Kept, and_self, implies_true, kept_trace, kept_onCtx, kept_onBed, kept_schedule, kept_each,
    kept_coreFree]
  repeat' (first | with_reducible rfl | simp only [Kept, and_self, implies_true, kept_trace, kept_onCtx, kept_onBed, kept_schedule, kept_each, kept_coreFree] | split)

theorem kept_dropRowItems (row : BitVec 13) (flow : Option (BitVec 12)) (s : State) : Kept (dropRowItems row flow s) s := by
  simp only [dropRowItems, Kept, and_self, kept_removeItems, kept_onDisp]
  repeat' (first | with_reducible rfl | simp only [Kept, and_self, kept_removeItems, kept_onDisp] | split)

theorem kept_dropChunk (h : U32) (s : State) : Kept (dropChunk h s) s := by
  simp only [dropChunk, Kept, and_self, kept_dropRowItems, kept_onMirror, kept_State_onReqH]
  repeat' (first | with_reducible rfl | simp only [Kept, and_self, kept_dropRowItems, kept_onMirror, kept_State_onReqH] | split)

theorem kept_coreLeft (c : Nat) (s : State) : Kept (coreLeft c s) s := by
  simp only [coreLeft, Kept, and_self, kept_onDisp, kept_returnItems]
  repeat' (first | with_reducible rfl | simp only [Kept, and_self, kept_onDisp, kept_returnItems] | split)

theorem kept_leaveBed (c : ℕ) (s : State) : Kept (leaveBed c s) s := by
  simp only [leaveBed, Kept, kIte, kIteCtl, kIteLen, kIteGh, ite_self, and_self, implies_true, kept_coreLeft, kept_reissue, kept_each, kept_flagCore, kept_onCore]
  repeat' (first | with_reducible rfl | simp only [Kept, kIte, kIteCtl, kIteLen, kIteGh, ite_self, and_self, implies_true, kept_coreLeft, kept_reissue, kept_each, kept_flagCore, kept_onCore] | split)

theorem kept_applyBed (first : Bool) (f : BedF) (s : State) : Kept (applyBed first f s) s := by
  simp (disch := (intros; repeat' (first | with_reducible rfl | simp only [Kept, kIte, kIteCtl, kIteLen, kIteGh, kMap, length_lupd, ite_self, and_self, implies_true, kept_leaveBed, kept_onCtx, kept_onBed, kept_each, kept_bringIn, kept_schedule, kept_onCore, kept_onDisp] | split))) only [applyBed, Kept, kIte, kIteCtl, kIteLen, kIteGh, kMap, length_lupd, ite_self, and_self, implies_true, kept_leaveBed, kept_onCtx, kept_onBed, kept_each, kept_bringIn, kept_schedule, kept_onCore, kept_onDisp]
  repeat' (first | with_reducible rfl | simp (disch := (intros; repeat' (first | with_reducible rfl | simp only [Kept, kIte, kIteCtl, kIteLen, kIteGh, kMap, length_lupd, ite_self, and_self, implies_true, kept_leaveBed, kept_onCtx, kept_onBed, kept_each, kept_bringIn, kept_schedule, kept_onCore, kept_onDisp] | split))) only [Kept, kIte, kIteCtl, kIteLen, kIteGh, kMap, length_lupd, ite_self, and_self, implies_true, kept_leaveBed, kept_onCtx, kept_onBed, kept_each, kept_bringIn, kept_schedule, kept_onCore, kept_onDisp] | split)

theorem kept_fence (c : Nat) (s : State) : Kept (fence c s) s := by
  simp only [fence, Kept, and_self, kept_returnItems, kept_onBed, kept_onDisp]
  repeat' (first | with_reducible rfl | simp only [Kept, and_self, kept_returnItems, kept_onBed, kept_onDisp] | split)

theorem kept_issueStack (s : State) : Kept (issueStack s) s := by
  simp only [issueStack, Kept, and_self]
  repeat' (first | with_reducible rfl | simp only [Kept, and_self] | split)

end Sys2Proof.Machine
end

