-- ==== Sys2Proof/Laws/Requests.lean ====
section
/-! SUPPORT. What the operations of Machine/Requests.lean leave as it was (Laws/Kept.lean). -/

namespace Sys2Proof.Machine

set_option linter.unusedSimpArgs false
set_option linter.unusedVariables false

theorem kept_askTail (t : ℕ) (k : ℕ) (s : State) : Kept (askTail t k s) s := by
  simp only [askTail, Kept, kIte, kIteCtl, kIteLen, kIteGh, ite_self, and_self, kept_putReads]

theorem kept_closeOpen (pick : U32 → Bool) (s : State) : Kept (closeOpen pick s) s := by
  simp only [closeOpen, Kept, kIte, kIteCtl, kIteLen, kIteGh, kMap, length_lupd, ite_self, and_self, implies_true, kept_issueStack]

theorem kept_discardRows (hs : List U32) (s : State) : Kept (discardRows hs s) s := by
  simp only [discardRows, Kept, and_self, kept_closeOpen]

theorem kept_onSpool (t : Nat) (k : Nat) (f : Spool → Spool) (s : State) : Kept (onSpool t k f s) s := by
  simp only [onSpool, Kept, and_self, kept_State_onTen]

theorem kept_budgetRow (a0 : U32) (s : State) : Kept (budgetRow a0 s) s := by
  simp only [budgetRow, Kept, kIte, kIteCtl, kIteLen, kIteGh, ite_self, and_self, kept_State_onReqH, kept_handOver]
  repeat' (first | with_reducible rfl | simp only [Kept, kIte, kIteCtl, kIteLen, kIteGh, ite_self, and_self, kept_State_onReqH, kept_handOver] | split)

theorem kept_leaveRow (a0 : U32) (s : State) : Kept (leaveRow a0 s) s := by
  simp only [leaveRow, Kept, and_self, kept_dropChunk, kept_rollUp, kept_State_onReqH]
  repeat' (first | with_reducible rfl | simp only [Kept, and_self, kept_dropChunk, kept_rollUp, kept_State_onReqH] | split)

theorem kept_quotaCheck (t : Nat) (s : State) : Kept (quotaCheck t s) s := by
  simp only [quotaCheck, Kept, kIte, kIteCtl, kIteLen, kIteGh, ite_self, and_self, kept_State_onTen, kept_vecEvent]

theorem kept_ghEvent (kind : Nat) (cause : Nat) (model : Nat) (slot : Nat) (region : Nat) (ver : Nat) (s : State) :
    Kept (ghEvent kind cause model slot region ver s) s := by
  simp only [ghEvent, Kept, kIteGh, ite_self, and_self, kept_vecEvent]

theorem kept_gleanGrafts (s : State) : Kept (gleanGrafts s) s := by
  simp only [gleanGrafts, Kept, and_self, implies_true, kept_each, kept_ghEvent]

theorem kept_freeReq (a0 : U32) (s : State) : Kept (freeReq a0 s) s := by
  simp only [freeReq, Kept, and_self, kept_onSpool, kept_quotaCheck]
  repeat' (first | with_reducible rfl | simp only [Kept, and_self, kept_onSpool, kept_quotaCheck] | split)

theorem kept_releaseReq (a0 : U32) (s : State) : Kept (releaseReq a0 s) s := by
  have h0 (u : State) (f : Req → Req) (n : Nat) : Kept { u.onReqH a0 f with seq := n } u := (kept_State_onReqH u a0 f : Kept (u.onReqH a0 f) u)
  simp only [releaseReq]
  split
  · exact Kept.rfl'
  · refine Kept.ite Kept.rfl' ?_
    split
    · exact Kept.ite ((kept_freeReq ..).trans (h0 ..)) (h0 ..)
    · have h4 (l : List Rec) (i n : Nat) (u : State) : Kept (each l (fun _ => egress i n) u) u :=
        kept_each _ _ _ (fun _ _ => kept_egress ..)
      have h1 (c : Prop) [Decidable c] (t k : Nat) (f : Req → Req) (n : Nat) (l : List Rec) (i b : Nat) :
          Kept (each l (fun _ => egress i b) { (if c then askTail t k s else s).onReqH a0 f with seq := n }) s :=
        (h4 ..).trans ((h0 ..).trans (Kept.ite (kept_askTail ..) Kept.rfl'))
      refine Kept.ite (h1 ..) ?_
      have h2 (l : List Rec) (t : Nat) (u : State) : Kept (each l (fun _ s => vecEvent t 2 s) u) u :=
        kept_each _ _ _ (fun _ _ => kept_vecEvent ..)
      have h3 (l : List HostWr) (i t n : Nat) (u : State) : Kept (each l (fun w s => hostWrite i t n w s) u) u :=
        kept_each _ _ _ (fun _ _ => kept_hostWrite ..)
      refine Kept.ite ((kept_freeReq ..).trans ?_) ?_ <;>
      exact (h2 ..).trans ((kept_budgetRow ..).trans ((kept_chargeReq ..).trans ((kept_onSpool ..).trans ((h3 ..).trans (h1 ..)))))

theorem kept_releaseAllRecs (s : State) : Kept (releaseAllRecs s) s := by
  simp only [releaseAllRecs, Kept, kIte, kIteCtl, kIteLen, kIteGh, ite_self, and_self, implies_true, kept_each,
    kept_releaseReq]

theorem kept_endWaits (a0 : U32) (st : U8) (s : State) : Kept (endWaits a0 st s) s := by
  simp only [endWaits, Kept, and_self, kept_flushDone, kept_finishAll]

theorem kept_endReq (a0 : U32) (st : U8) (s : State) : Kept (endReq a0 st s) s := by
  simp only [endReq, Kept, kIte, kIteCtl, kIteLen, kIteGh, ite_self, and_self, kept_State_onReqH, kept_moveReq,
    kept_dropTable, kept_leaveRow, kept_gleanGrafts, kept_endWaits]
  repeat' (first | with_reducible rfl | simp only [Kept, kIte, kIteCtl, kIteLen, kIteGh, ite_self, and_self, kept_State_onReqH, kept_moveReq, kept_dropTable, kept_leaveRow, kept_gleanGrafts, kept_endWaits] | split)

theorem kept_endNow (h : U32) (st : U8) (s : State) : Kept (endNow h st s) s := by
  simp only [endNow, Kept, kIte, kIteCtl, kIteLen, kIteGh, ite_self, and_self, kept_restores, kept_endReq, kept_releaseReq, kept_State_onReqH]
  repeat' (first | with_reducible rfl | simp only [Kept, kIte, kIteCtl, kIteLen, kIteGh, ite_self, and_self, kept_restores, kept_endReq, kept_releaseReq, kept_State_onReqH] | split)

theorem kept_expireReq (a0 : U32) (s : State) : Kept (expireReq a0 s) s := by
  simp only [expireReq, Kept, kIte, kIteCtl, kIteLen, kIteGh, ite_self, and_self, kept_endNow]
  repeat' (first | with_reducible rfl | simp only [Kept, kIte, kIteCtl, kIteLen, kIteGh, ite_self, and_self, kept_endNow] | split)

theorem kept_endCause (a0 : U32) (st : U8) (s : State) : Kept (endCause a0 st s) s := by
  simp only [endCause, Kept, kIte, kIteCtl, kIteLen, kIteGh, ite_self, and_self, kept_handOver, kept_endNow]
  repeat' (first | with_reducible rfl | simp only [Kept, kIte, kIteCtl, kIteLen, kIteGh, ite_self, and_self, kept_handOver, kept_endNow] | split)

theorem kept_tornEnds (h : U32) (row : BitVec 13) (bed : ℕ) (s : State) : Kept (tornEnds h row bed s) s := by
  simp only [tornEnds, Kept, kIte, kIteCtl, kIteLen, kIteGh, ite_self, and_self, kept_trace, kept_onDisp]

theorem kept_teardownReq (h : U32) (s : State) : Kept (teardownReq h s) s := by
  simp only [teardownReq, Kept, kIte, kIteCtl, kIteLen, kIteGh, ite_self, and_self, kept_endCause, kept_dropChunk, kept_schedule, kept_removeItems, kept_trace, kept_closeOpen, kept_tornEnds]
  repeat' (first | with_reducible rfl | simp only [Kept, kIte, kIteCtl, kIteLen, kIteGh, ite_self, and_self, kept_endCause, kept_dropChunk, kept_schedule, kept_removeItems, kept_trace, kept_closeOpen, kept_tornEnds] | split)

theorem kept_tailGone (t : ℕ) (k : ℕ) (s : State) : Kept (tailGone t k s) s := by
  simp only [tailGone, Kept, kIte, kIteCtl, kIteLen, kIteGh, kMap, length_lupd, ite_self, and_self, implies_true]

end Sys2Proof.Machine
end

