-- ==== Sys2Proof/Laws/Sower.lean ====
section
/-! SUPPORT. What the operations of Machine/Sower.lean leave as it was (Laws/Kept.lean). -/

namespace Sys2Proof.Machine

set_option linter.unusedSimpArgs false
set_option linter.unusedVariables false

theorem kept_supplyBy (step need idle : Nat) (act : U32 → State → State × Nat) (l : List U32) (n : Nat) (s : State)
    (h : ∀ u s, Kept (act u s).1 s) : Kept (supplyBy step need idle act l n s).1 s := by
  induction l generalizing n s with
  | nil => exact Kept.rfl'
  | cons u us ih =>
    simp only [supplyBy]
    split
    · exact Kept.rfl'
    · exact (ih ..).trans ((kept_trace ..).trans (h ..))

theorem kept_supplySeed (need idle : Nat) (l : List (Nat × U32)) (k : Nat) (s : State) : Kept (supplySeed need idle l k s).1 s := by
  induction l generalizing k s with
  | nil => exact Kept.rfl'
  | cons e l ih =>
    simp only [supplySeed]
    repeat' split
    all_goals first | exact Kept.rfl' | exact (ih ..).trans ((kept_trace ..).trans (kept_evictNode ..)) | exact ih ..

theorem kept_returnAdmitted (a0 : U32) (s : State) : Kept (returnAdmitted a0 s) s := by
  simp only [returnAdmitted, Kept, and_self, kept_moveReq, kept_dropTable, kept_State_onReqH]

theorem kept_warnReq (a0 : U32) (s : State) : Kept (warnReq a0 s) s := by
  simp only [warnReq, Kept, kIte, kIteCtl, kIteLen, kIteGh, ite_self, and_self, kept_State_onReqH, kept_State_onTen,
    kept_vecEvent]
  repeat' (first | with_reducible rfl | simp only [Kept, kIte, kIteCtl, kIteLen, kIteGh, ite_self, and_self, kept_State_onReqH, kept_State_onTen, kept_vecEvent] | split)

theorem kept_reserveFb (slot m n : Nat) (s t : State) (l : List PlotEnt) (h : reserveFb slot m n s = some (t,
    l)) : Kept t s := by
  induction n generalizing t l with
  | zero => simp only [reserveFb] at h; cases h; exact Kept.rfl'
  | succ n ih =>
    simp only [reserveFb] at h
    split at h
    · cases h
    · rename_i h1
      simp only [Option.map_eq_some_iff] at h
      obtain ⟨a, -, h⟩ := h
      cases h
      exact (kept_setRef ..).trans (ih _ _ h1)

theorem kept_fallbackRow (a : U32) (s : State) : Kept (fallbackRow a s).1 s := by
  delta fallbackRow
  split
  · exact Kept.rfl'
  · extract_lets m f last ok
    split
    · exact Kept.rfl'
    · split
      · rename_i h
        split at h
        · simp only [Kept, kept_State_onReqH, kept_reserveFb _ _ _ _ _ _ h, and_self]
        · cases h
      · simp only [Kept, kept_warnReq, and_self]

theorem kept_Lay_gen (cyc : Bool) (a : U32) (l : Lay) : Kept (l.gen cyc a).st l.st := by
  simp only [Lay.gen]
  repeat' split
  all_goals first | exact Kept.rfl' | (rename_i h; exact kept_coverTo _ _ _ _ h)

theorem kept_Lay_deeper (i : Nat) (l m : Lay) (h : l.deeper i = some m) : Kept m.st l.st := by
  simp only [Lay.deeper] at h
  repeat' split at h
  all_goals first
    | (cases h; done)
    | (simp only [Option.map_eq_some_iff] at h; obtain ⟨t, h1, h2⟩ := h; cases h2; exact kept_coverTo _ _ _ _ h1)

theorem kept_Lay_deepest (i n : Nat) (l : Lay) : Kept (l.deepest i n).st l.st := by
  induction n generalizing l with
  | zero => exact Kept.rfl'
  | succ n ih =>
    simp only [Lay.deepest]
    split
    · rename_i h; exact (ih _).trans (kept_Lay_deeper _ _ _ h)
    · exact Kept.rfl'

theorem kept_Lay_round (is : List Nat) (n : Nat) (l : Lay) : Kept (l.round is n).1.st l.st := by
  delta Lay.round
  apply kept_foldl (fun a : Lay × Nat => a.1.st)
  intro a i
  split
  · exact Kept.rfl'
  · split
    · rename_i h; exact kept_Lay_deeper _ _ _ h
    · exact Kept.rfl'

theorem kept_Lay_rounds (is : List Nat) (k n : Nat) (l : Lay) : Kept (Lay.rounds is k n l).st l.st := by
  induction k generalizing n l with
  | zero => exact Kept.rfl'
  | succ k ih => exact (ih ..).trans (kept_Lay_round ..)

theorem kept_Lay_chunks (m : Nat) (b : Bool) (num : U64) (hot : List Nat) (cap : Nat) (hs : List U32) (p n : Nat)
    (used : List (Nat × Nat)) (l : Lay) : Kept (l.chunks m b num hot cap hs p n used).st l.st := by
  induction hs generalizing p n used l with
  | nil => exact Kept.rfl'
  | cons a hs ih =>
    simp only [Lay.chunks]
    repeat' split
    all_goals first
      | exact Kept.rfl'
      | exact ih ..
      | (rename_i h; exact (ih ..).trans (kept_coverTo _ _ _ _ h))

theorem kept_Lay_fillModel (num : U64) (m : Nat) (l : Lay) : Kept (l.fillModel num m).st l.st := by
  delta Lay.fillModel
  exact kept_Lay_chunks ..

theorem kept_layFold {α : Type} (f : Lay → α → Lay) (h : ∀ l a, Kept (f l a).st l.st) (as : List α) (l : Lay) :
    Kept (as.foldl f l).st l.st := kept_foldl Lay.st f h as l

theorem kept_takeFallbacks (hs : List U32) (s : State) : Kept (takeFallbacks hs s).1 s :=
  kept_foldl (fun a : State × List U32 => a.1) _ (fun a h => kept_fallbackRow h a.1) hs (s, [])

theorem kept_layReturning (s : State) (hs : List U32) (l : Lay) : Kept (layReturning s hs l).st l.st := by
  delta layReturning
  apply kept_layFold
  intro l a
  repeat' split
  all_goals first | exact Kept.rfl' | exact kept_Lay_gen ..

theorem kept_layGens (b : Bool) (rs : List Req) (l : Lay) :
    Kept (rs.foldl (fun l r => l.gen b r.handle) l).st l.st :=
  kept_layFold (fun (l : Lay) (r : Req) => l.gen b r.handle) (fun l r => kept_Lay_gen b r.handle l) rs l

theorem kept_layDeep (is : List Nat) (l : Lay) : Kept (is.foldl (fun l i => l.deepest i 4) l).st l.st :=
  kept_layFold (fun (l : Lay) (i : Nat) => l.deepest i 4) (fun l i => kept_Lay_deepest i 4 l) is l

theorem kept_layFill (num : U64) (ms : List Nat) (l : Lay) : Kept (ms.foldl (fun l m => l.fillModel num m) l).st
    l.st :=
  kept_layFold (fun (l : Lay) (m : Nat) => l.fillModel num m) (fun l m => kept_Lay_fillModel num m l) ms l

theorem kept_layCyclic (n : Nat) (rs : List Req) (l : Lay) : Kept (layCyclic n rs l).1.st l.st := by
  delta layCyclic
  refine kept_foldl (fun a : Lay × List U32 => a.1.st) _ (fun a r => ?_) rs (l, [])
  split
  · exact Kept.rfl'
  · exact kept_Lay_gen ..

theorem kept_layGroup1 (s : State) (gens : List Req) (l : Lay) : Kept (layGroup1 s gens l).1.st l.st := by
  delta layGroup1
  split
  · exact kept_layCyclic ..
  · exact Kept.rfl'

theorem kept_layRows (num : U64) (hs : List U32) (s : State) : Kept (layRows num hs s).st s := by
  delta layRows
  extract_lets carried waiting l0 gens g1 l1 own cycN rest want l2 l3 l4 first left l5 l6 models
  have h0 : Kept l0.st s := Kept.rfl'
  have h1 : Kept g1.1.st l0.st := kept_layGroup1 s gens l0
  clear_value g1 l0 gens
  have h2 : Kept l2.st l1.st := kept_layGens false want l1
  have h3 : Kept l3.st l2.st := kept_layGens false (s.shareOrder _) l2
  clear_value l3 l2
  have h4 : Kept l4.st l3.st := kept_layReturning s s.sow.returning l3
  clear_value l4
  have h5 : Kept l5.st l4.st := kept_Lay_rounds _ 4 left l4
  clear_value l5
  have h6 : Kept l6.st l5.st := kept_layDeep _ l5
  clear_value l6 models
  exact (kept_layFill num models l6).trans (h6.trans (h5.trans (h4.trans (h3.trans (h2.trans (h1.trans h0))))))

theorem kept_supply (m : ℕ) (need : ℕ) (idle : ℕ) (s : State) : Kept (supply m need idle s) s := by
  simp only [supply, Kept, kIte, kIteCtl, kIteLen, kIteGh, kMap, length_lupd, ite_self, and_self, implies_true, kept_supplyBy, kept_pumpMoves, kept_queueSpill, kept_returnAdmitted, kept_supplySeed]

theorem kept_supplyAll (idle : Nat) (l : List (Nat × Nat)) (s : State) : Kept (l.foldl (fun s e => supply e.1 e.2 idle s) s) s := by
  induction l generalizing s with
  | nil => exact Kept.rfl'
  | cons e l ih => exact Kept.trans (ih _) (kept_supply e.1 e.2 idle s)

theorem kept_layOut (s : State) : Kept (layOut s).1 s := by
  delta layOut
  extract_lets evs _ s1 a num l total idle s2 s3 s4 _ s5
  have h1 : Kept s1 s := ⟨rfl, rfl, rfl, rfl, rfl, rfl, rfl⟩
  have h2 : Kept a.1 s1 := kept_takeFallbacks evs s1
  have h3 : Kept l.st a.1 := kept_layRows num a.2 a.1
  have h4 : Kept s2 l.st := Kept.ite (kept_trace ..) Kept.rfl'
  have h5 : Kept s3 s2 := Kept.ite (kept_trace ..) Kept.rfl'
  have h6 : Kept s4 s3 := kept_supplyAll idle l.short s3
  have h7 : Kept s5 s4 := ⟨rfl, rfl, rfl, rfl, rfl, rfl, rfl⟩
  exact (kept_trace ..).trans (h7.trans (h6.trans (h5.trans (h4.trans (h3.trans (h2.trans h1))))))

end Sys2Proof.Machine
end

