-- ==== Sys2Proof/Laws/Ledger.lean ====
section
/-! SUPPORT. What the operations of Machine/Ledger.lean leave as it was (Laws/Kept.lean). -/

namespace Sys2Proof.Machine

set_option linter.unusedSimpArgs false
set_option linter.unusedVariables false

theorem kept_estimates_onTeth' (p : U64 × Nat × Bool × Nat) (s : State) : Kept (estimates.onTeth' p s) s := by
  simp only [estimates.onTeth', Kept, and_self]

theorem kept_meanEngine (a0 : Step) (s : State) : Kept (meanEngine a0 s) s := by
  simp only [meanEngine, Kept, and_self]

theorem kept_splitEnergy (a0 : Step) (s : State) : Kept (splitEnergy a0 s) s := by
  simp only [splitEnergy, Kept, kIte, ite_self, and_self]

theorem kept_satLed (f : Led → Led) (s : State) : Kept (satLed f s) s := by
  simp only [satLed, Kept, and_self]

theorem kept_moveEst (m : Nat) (small : Bool) (t : Nat) (s : State) : Kept (moveEst m small t s) s := by
  simp only [moveEst, Kept, and_self]

theorem kept_estimates (a0 : Step) (s : State) : Kept (estimates a0 s) s := by
  simp only [estimates, Kept, kIte, kIteCtl, kIteLen, kIteGh, ite_self, and_self, implies_true, kept_each,
    kept_estimates_onTeth', kept_moveEst]
  repeat' (first | with_reducible rfl | simp only [Kept, kIte, kIteCtl, kIteLen, kIteGh, ite_self, and_self, implies_true, kept_each, kept_estimates_onTeth', kept_moveEst] | split)

theorem kept_zeroDeficits (s : State) : Kept (zeroDeficits s) s := by
  simp only [zeroDeficits, Kept, kIte, kIteCtl, kIteLen, kIteGh, ite_self, and_self, implies_true, kept_each,
    kept_State_onTen]

theorem kept_deficits (a0 : Step) (s : State) : Kept (deficits a0 s) s := by
  simp only [deficits, Kept, and_self, implies_true, kept_each, kept_State_onTen]

theorem kept_evalRow (a0 : Step) (a1 : U32) (s : State) : Kept (evalRow a0 a1 s) s := by
  simp only [evalRow, Kept, kIte, kIteCtl, kIteLen, kIteGh, ite_self, and_self, kept_State_onReqH, kept_trace,
    kept_warnReq, kept_handOver, kept_satLed]
  repeat' (first | with_reducible rfl | simp only [Kept, kIte, kIteCtl, kIteLen, kIteGh, ite_self, and_self, kept_State_onReqH, kept_trace, kept_warnReq, kept_handOver, kept_satLed] | split)

theorem kept_monitor (a0 : Step) (s : State) : Kept (monitor a0 s) s := by
  simp only [monitor, Kept, kIte, kIteCtl, kIteLen, kIteGh, ite_self, and_self, implies_true, kept_each, kept_evalRow]

theorem kept_postPositions (a0 : Step) (s : State) : Kept (postPositions a0 s) s := by
  simp only [postPositions, Kept, and_self, implies_true, kept_each, kept_chargeReq]

theorem kept_postTime (a0 : Step) (s : State) : Kept (postTime a0 s) s := by
  simp only [postTime, Kept, kIte, kIteCtl, kIteLen, kIteGh, ite_self, and_self, implies_true, kept_each,
    kept_chargeReq]

theorem kept_postEnergy (s : State) : Kept (postEnergy s) s := by
  simp only [postEnergy, Kept, and_self, implies_true, kept_each, kept_chargeReq]

theorem kept_estReady (s : State) : Kept (estReady s) s := by
  simp only [estReady, Kept, kIte, kIteCtl, kIteLen, kIteGh, ite_self, and_self, implies_true, kept_each, kept_moveEst]

theorem kept_closeLedger (x : Step) (s : State) : Kept (closeLedger x s) s := by
  simp only [closeLedger, Kept, and_self, kept_meanEngine, kept_estReady, kept_deficits, kept_splitEnergy, kept_postPositions, kept_postEnergy, kept_postTime, kept_estimates]

end Sys2Proof.Machine
end

