-- ==== Sys2Proof/Laws/Frames.lean ====
section
/-! SUPPORT. What the operations of Machine/Frames.lean leave as it was (Laws/Kept.lean). -/

namespace Sys2Proof.Machine

set_option linter.unusedSimpArgs false
set_option linter.unusedVariables false

theorem kept_onTeth (f : Teth → Teth) (s : State) : Kept (onTeth f s) s := by
  simp only [onTeth, Kept, and_self]

theorem kept_sendFrame (kind : U8) (step : U64) (part : Nat) (f : FrameOut) (s : State) : Kept (sendFrame kind step
    part f s) s := by
  simp only [sendFrame, Kept, and_self, kept_onTeth]

theorem kept_callRoll (s : State) : Kept (callRoll s) s := by
  simp only [callRoll, Kept, and_self, kept_onTeth, kept_sendFrame]

theorem kept_sendSlow (hot : BitVec 12) (ballast : BitVec 4) (s : State) : Kept (sendSlow hot ballast s) s := by
  simp only [sendSlow, Kept, kIte, kIteCtl, kIteLen, kIteGh, ite_self, and_self, kept_sendFrame, kept_onTeth]

theorem kept_sendStatus (num : U64) (slow : Bool) (s : State) : Kept (sendStatus num slow s) s := by
  simp only [sendStatus, Kept, kIte, kIteCtl, kIteLen, kIteGh, ite_self, and_self, kept_onTeth, kept_sendFrame]

theorem kept_dropWork (s : State) : Kept (dropWork s) s := by
  simp only [dropWork, Kept, and_self, implies_true, kept_discardRows, kept_removeItems, kept_each, kept_dropChunk,
    kept_onDisp, kept_onTeth]

theorem kept_dropUnfinished (s : State) : Kept (dropUnfinished s) s := by
  simp only [dropUnfinished, Kept, kIte, kIteCtl, kIteLen, kIteGh, kMap, length_lupd, ite_self, and_self, implies_true, kept_dropWork, kept_discardRows]

theorem kept_holdGroup (detail : ℕ) (s : State) : Kept (holdGroup detail s) s := by
  simp only [holdGroup, Kept, kIte, kIteCtl, kIteLen, kIteGh, ite_self, and_self, implies_true, kept_logErr, kept_onTeth, kept_each, kept_handOver, kept_callRoll, kept_vecEvent, kept_dropUnfinished]

theorem kept_forceHold (s : State) : Kept (forceHold s) s := by
  simp only [forceHold, Kept, kIte, kIteCtl, kIteLen, kIteGh, ite_self, and_self, kept_holdGroup, kept_onTeth]

theorem kept_tetherOn (s : State) : Kept (tetherOn s) s := by
  simp only [tetherOn, Kept, kIte, kIteCtl, kIteLen, kIteGh, kMap, length_lupd, ite_self, and_self, implies_true, kept_holdGroup, kept_callRoll]

end Sys2Proof.Machine
end

