-- ==== Sys2Proof/Laws/Pruner.lean ====
section
/-! SUPPORT. What the operations of Machine/Pruner.lean leave as it was (Laws/Kept.lean). -/

namespace Sys2Proof.Machine

set_option linter.unusedSimpArgs false
set_option linter.unusedVariables false

theorem kept_onPrn (f : Prn → Prn) (s : State) : Kept (onPrn f s) s := by
  simp only [onPrn, Kept, and_self]

theorem kept_openManifest (rows : List PRow) (s : State) : Kept (openManifest rows s) s := by
  simp only [openManifest, Kept, and_self, kept_onPrn]

theorem kept_onPRow (row : BitVec 13) (f : PRow → PRow) (s : State) : Kept (onPRow row f s) s := by
  simp only [onPRow, Kept, and_self, kept_onPrn]

theorem kept_guessArrives (g : Guess) (s : State) : Kept (guessArrives g s) s := by
  simp only [guessArrives, Kept, kIte, kIteCtl, kIteLen, kIteGh, ite_self, and_self, kept_onPrn, kept_progressNow,
    kept_onPRow]
  repeat' (first | with_reducible rfl | simp only [Kept, kIte, kIteCtl, kIteLen, kIteGh, ite_self, and_self, kept_onPrn, kept_progressNow, kept_onPRow] | split)

theorem kept_checkEnd (s : State) : Kept (checkEnd s) s := by
  simp only [checkEnd, Kept, kIte, kIteCtl, kIteLen, kIteGh, ite_self, and_self, kept_sendStatus]
  repeat' (first | with_reducible rfl | simp only [Kept, kIte, kIteCtl, kIteLen, kIteGh, ite_self, and_self, kept_sendStatus] | split)

theorem kept_closeRow (row : BitVec 13) (s : State) : Kept (closeRow row s) s := by
  simp only [closeRow, Kept, and_self, kept_issueStack, kept_onPRow]

theorem kept_sampleEmpty (p : PRow) (s : State) : Kept (sampleEmpty p s) s := by
  simp only [sampleEmpty, Kept, and_self, kept_onPrn, kept_logErr]

theorem kept_sendTokens (e : CommitE) (s : State) : Kept (sendTokens e s) s := by
  simp only [sendTokens, Kept, kIte, kIteCtl, kIteLen, kIteGh, ite_self, and_self, kept_sendFrame]

theorem kept_finaliseRow (p : PRow) (s : State) : Kept (finaliseRow p s) s := by
  simp only [finaliseRow, Kept, kIte, kIteCtl, kIteLen, kIteGh, ite_self, and_self, kept_issueStack, kept_onPRow, kept_teardownReq, kept_onPrn, kept_schedule, kept_trace, kept_sendTokens, kept_sampleEmpty]

theorem kept_tellTorn (row : BitVec 13) (s : State) : Kept (tellTorn row s) s := by
  simp only [tellTorn, Kept, and_self, kept_sendTokens, kept_closeRow]
  repeat' (first | with_reducible rfl | simp only [Kept, and_self, kept_sendTokens, kept_closeRow] | split)

theorem kept_teardownMirror (m : Mirror) (row : BitVec 13) (s : State) : Kept (teardownMirror m row s) s := by
  simp only [teardownMirror, Kept, and_self, kept_discardRows, kept_tellTorn, kept_dropChunk, kept_schedule, kept_removeItems, kept_trace, kept_tornEnds]

theorem kept_tearRow (h : U32) (s : State) : Kept (tearRow h s) s := by
  simp only [tearRow, Kept, and_self, kept_teardownReq, kept_teardownMirror]
  repeat' (first | with_reducible rfl | simp only [Kept, and_self, kept_teardownReq, kept_teardownMirror] | split)

theorem kept_malformed (row : BitVec 13) (h : U32) (core : Bool) (unit : ℕ) (addr : ℕ) (s : State) : Kept (malformed row h core unit addr s) s := by
  simp only [malformed, Kept, and_self, kept_logErr, kept_tearRow, kept_onPrn, kept_sendTokens, kept_closeRow]
  repeat' (first | with_reducible rfl | simp only [Kept, and_self, kept_logErr, kept_tearRow, kept_onPrn, kept_sendTokens, kept_closeRow] | split)

theorem kept_finaliseReady (s : State) : Kept (finaliseReady s) s := by
  simp only [finaliseReady, Kept, kIte, kIteCtl, kIteLen, kIteGh, ite_self, and_self, implies_true, kept_each,
    kept_finaliseRow, kept_malformed]

theorem kept_onLane (k : ℕ) (f : Lane → Lane) (s : State) : Kept (onLane k f s) s := by
  simp only [onLane, Kept, and_self, kept_onPrn]

theorem kept_routeList (l : PList) (k : ℕ) (s : State) : Kept (routeList l k s) s := by
  simp only [routeList, Kept, kIte, kIteCtl, kIteLen, kIteGh, ite_self, and_self, kept_onPrn, kept_onLane]

theorem kept_listMerges (l : PList) (s : State) : Kept (listMerges l s) s := by
  simp only [listMerges, Kept, kIte, kIteCtl, kIteLen, kIteGh, ite_self, and_self, kept_onPRow, kept_onPrn, kept_trace, kept_progressNow, kept_checkEnd, kept_malformed, kept_finaliseReady]
  repeat' (first | with_reducible rfl | simp only [Kept, kIte, kIteCtl, kIteLen, kIteGh, ite_self, and_self, kept_onPRow, kept_onPrn, kept_trace, kept_progressNow, kept_checkEnd, kept_malformed, kept_finaliseReady] | split)

theorem kept_drainLane (k n : Nat) (s : State) : Kept (drainLane k n s) s := by
  induction n generalizing s with
  | zero => exact Kept.rfl'
  | succ n ih =>
    simp only [drainLane]
    split
    · exact Kept.rfl'
    · refine (ih _).trans ((kept_listMerges ..).trans ?_)
      split
      · exact Kept.ite ((kept_routeList ..).trans ((kept_onPrn ..).trans (kept_onLane ..))) (kept_onLane ..)
      · exact kept_onLane ..

theorem kept_listArrives (l : PList) (s : State) : Kept (listArrives l s) s := by
  simp only [listArrives, Kept, and_self, kept_routeList, kept_listMerges, kept_drainLane]
  repeat' (first | with_reducible rfl | simp only [Kept, and_self, kept_routeList, kept_listMerges, kept_drainLane] | split)

theorem kept_teardownBed (b : ℕ) (c : ℕ) (s : State) : Kept (teardownBed b c s) s := by
  simp only [teardownBed, Kept, kIte, kIteCtl, kIteLen, kIteGh, ite_self, and_self, implies_true, kept_teardownCtx, kept_each, kept_discardRows, kept_tellTorn, kept_handOver, kept_dropChunk, kept_schedule]

theorem kept_fenceCore (c : Nat) (s : State) : Kept (fenceCore c s) s := by
  simp only [fenceCore, Kept, kIte, kIteCtl, kIteLen, kIteGh, ite_self, and_self, implies_true, kept_fence,
    kept_schedule, kept_each, kept_teardownBed]
  repeat' (first | with_reducible rfl | simp only [Kept, kIte, kIteCtl, kIteLen, kIteGh, ite_self, and_self, implies_true, kept_fence, kept_schedule, kept_each, kept_teardownBed] | split)

end Sys2Proof.Machine
end

