-- ==== Sys2Proof/Laws/Seal.lean ====
section
/-! SUPPORT. What the operations of Machine/Seal.lean leave as it was (Laws/Kept.lean). -/

namespace Sys2Proof.Machine

set_option linter.unusedSimpArgs false
set_option linter.unusedVariables false

theorem kept_sendStepToken (num : U64) (laid : List Member) (members : List Member) (rows : List (U32 × BitVec 13)) (s : State) : Kept (sendStepToken num laid members rows s) s := by
  simp only [sendStepToken, Kept, kIte, kIteCtl, kIteLen, kIteGh, ite_self, and_self, kept_sendFrame]

theorem kept_submit (num : U64) (i : ItemIn) (s : State) : Kept (submit num i s) s := by
  simp only [submit, Kept, kIte, kIteCtl, kIteLen, kIteGh, ite_self, and_self, kept_onDisp, kept_onCtx]
  repeat' (first | with_reducible rfl | simp only [Kept, kIte, kIteCtl, kIteLen, kIteGh, ite_self, and_self, kept_onDisp, kept_onCtx] | split)

theorem kept_sendProfiles (num : U64) (l : Laid) (s : State) : Kept (sendProfiles num l s) s := by
  simp (disch := (intros; repeat' (first | with_reducible rfl | simp only [Kept, kIte, kIteCtl, kIteLen, kIteGh, kMap, length_lupd, ite_self, and_self, implies_true, kept_each, kept_sendFrame, kept_onTeth] | split))) only [sendProfiles, Kept, kIte, kIteCtl, kIteLen, kIteGh, kMap, length_lupd, ite_self, and_self, implies_true, kept_each, kept_sendFrame, kept_onTeth]
  repeat' (first | with_reducible rfl | simp (disch := (intros; repeat' (first | with_reducible rfl | simp only [Kept, kIte, kIteCtl, kIteLen, kIteGh, kMap, length_lupd, ite_self, and_self, implies_true, kept_each, kept_sendFrame, kept_onTeth] | split))) only [Kept, kIte, kIteCtl, kIteLen, kIteGh, kMap, length_lupd, ite_self, and_self, implies_true, kept_each, kept_sendFrame, kept_onTeth] | split)

theorem kept_closeChunk (a0 : U32) (s : State) : Kept (closeChunk a0 s) s := by
  simp only [closeChunk, Kept, and_self, kept_onDisp, kept_State_onReqH]
  repeat' (first | with_reducible rfl | simp only [Kept, and_self, kept_onDisp, kept_State_onReqH] | split)

theorem kept_forgetHolds (h : U32) (ks : List (Fin 5)) (s : State) : Kept (forgetHolds h ks s) s := by
  simp only [forgetHolds, Kept, kIte, kIteCtl, kIteLen, kIteGh, kMap, length_lupd, ite_self, and_self, implies_true]

theorem kept_followReq (sw : List (U32 × BitVec 12 × U16)) (h : U32) (s : State) : Kept (followReq sw h s) s := by
  simp only [followReq, Kept, and_self, kept_forgetHolds, kept_State_onReqH]
  repeat' (first | with_reducible rfl | simp only [Kept, and_self, kept_forgetHolds, kept_State_onReqH] | split)

theorem kept_freshGates (is : List ItemIn) (s : State) : Kept (freshGates is s) s := by
  simp only [freshGates, Kept, kIte, kIteCtl, kIteLen, kIteGh, ite_self, and_self, implies_true, kept_each,
    kept_onDisp]

theorem kept_issueChunk (num : U64) (h : U32) (c : Chunk) (flow : Option (BitVec 12)) (s : State) : Kept (issueChunk num h c flow s) s := by
  simp only [issueChunk, Kept, kIte, kIteCtl, kIteLen, kIteGh, and_self, kept_State_onReqH, kept_onDisp]
  repeat' (first | with_reducible rfl | simp only [Kept, kIte, kIteCtl, kIteLen, kIteGh, and_self, kept_State_onReqH, kept_onDisp] | split)

theorem kept_sendManifest (num : U64) (l : Laid) (s : State) : Kept (sendManifest num l s) s := by
  simp only [sendManifest, Kept, kIte, kIteCtl, kIteLen, kIteGh, ite_self, and_self, implies_true,
    kept_sendProfiles, kept_onTeth, kept_each, kept_State_onReqH, kept_sendFrame]

theorem kept_applyOutcome (a0 : U32) (o : Outcome) (s : State) : Kept (applyOutcome a0 o s) s := by
  simp only [applyOutcome, Kept, kIte, kIteCtl, kIteLen, kIteGh, ite_self, and_self, kept_onMirror,
    kept_State_onReqH, kept_State_onTen]

theorem kept_dispatchStep (w : StepWork) (s : State) : Kept (dispatchStep w s) s := by
  simp only [dispatchStep, Kept, kIte, kIteCtl, kIteLen, kIteGh, ite_self, and_self, implies_true, kept_restores, kept_enterPool, kept_issueStack, kept_submit, kept_each, kept_schedule, kept_checkEnd, kept_freshGates]
  repeat' (first | with_reducible rfl | simp only [Kept, kIte, kIteCtl, kIteLen, kIteGh, ite_self, and_self, implies_true, kept_restores, kept_enterPool, kept_issueStack, kept_submit, kept_each, kept_schedule, kept_checkEnd, kept_freshGates] | split)

theorem kept_advance (a0 : U32) (c : Chunk) (s : State) : Kept (advance a0 c s) s := by
  simp only [advance, Kept, kIte, kIteCtl, kIteLen, kIteGh, ite_self, and_self, kept_closeChunk, kept_moveReq,
    kept_State_onReqH]
  repeat' (first | with_reducible rfl | simp only [Kept, kIte, kIteCtl, kIteLen, kIteGh, ite_self, and_self, kept_closeChunk, kept_moveReq, kept_State_onReqH] | split)

theorem kept_prefillEnds (a0 : U32) (s : State) : Kept (prefillEnds a0 s) s := by
  simp only [prefillEnds, Kept, and_self, kept_moveReq, kept_State_onReqH, kept_closeChunk]

theorem kept_pauseRow (a0 : U32) (ttl : U32) (s : State) : Kept (pauseRow a0 ttl s) s := by
  simp only [pauseRow, Kept, and_self, kept_State_onReqH, kept_moveReq, kept_leaveRow]

theorem kept_enterFallback (h : U32) (s : State) : Kept (enterFallback h s) s := by
  simp only [enterFallback, Kept, kIte, kIteCtl, kIteLen, kIteGh, ite_self, and_self, implies_true, kept_moveReq, kept_endCause, kept_each, kept_dropChunk, kept_forgetHolds, kept_freeBlock, kept_dropRef, kept_State_onReqH]
  repeat' (first | with_reducible rfl | simp only [Kept, kIte, kIteCtl, kIteLen, kIteGh, ite_self, and_self, implies_true, kept_moveReq, kept_endCause, kept_each, kept_dropChunk, kept_forgetHolds, kept_freeBlock, kept_dropRef, kept_State_onReqH] | split)

theorem kept_closeCarried (s : State) : Kept (closeCarried s) s := by
  simp (disch := (intros; repeat' (first | with_reducible rfl | simp only [Kept, kIte, kIteCtl, kIteLen, kIteGh, kMap, length_lupd, ite_self, and_self, implies_true, kept_advance, kept_each, kept_State_onReqH] | split))) only [closeCarried, Kept, kIte, kIteCtl, kIteLen, kIteGh, kMap, length_lupd, ite_self, and_self, implies_true, kept_advance, kept_each, kept_State_onReqH]
  repeat' (first | with_reducible rfl | simp (disch := (intros; repeat' (first | with_reducible rfl | simp only [Kept, kIte, kIteCtl, kIteLen, kIteGh, kMap, length_lupd, ite_self, and_self, implies_true, kept_advance, kept_each, kept_State_onReqH] | split))) only [Kept, kIte, kIteCtl, kIteLen, kIteGh, kMap, length_lupd, ite_self, and_self, implies_true, kept_advance, kept_each, kept_State_onReqH] | split)

theorem kept_applySetting (first : Bool) (x : Setting) (s : State) : Kept (applySetting first x s) s := by
  simp only [applySetting, Kept, and_self, kept_applyBed, kept_State_onTen]
  repeat' (first | with_reducible rfl | simp only [Kept, and_self, kept_applyBed, kept_State_onTen] | split)

theorem kept_turnEnd (a0 : U32) (st : U8) (ttl : Option U32) (s : State) : Kept (turnEnd a0 st ttl s) s := by
  simp only [turnEnd, Kept, and_self, kept_State_onReqH, kept_pauseRow]
  repeat' (first | with_reducible rfl | simp only [Kept, and_self, kept_State_onReqH, kept_pauseRow] | split)

theorem kept_applyMember (a0 : Step) (m : Member) (s : State) : Kept (applyMember a0 m s) s := by
  simp only [applyMember, Kept, kIte, kIteCtl, kIteLen, kIteGh, ite_self, and_self, kept_dropChunk,
    kept_State_onReqH, kept_applyOutcome, kept_advance, kept_prefillEnds]
  repeat' (first | with_reducible rfl | simp only [Kept, kIte, kIteCtl, kIteLen, kIteGh, ite_self, and_self, kept_dropChunk, kept_State_onReqH, kept_applyOutcome, kept_advance, kept_prefillEnds] | split)

theorem kept_writeTrellis (s : State) : Kept (writeTrellis s) s := by
  simp only [writeTrellis, Kept, and_self]

theorem kept_composeAfter (s : State) : Kept (composeAfter s) s := by
  simp only [composeAfter, Kept, and_self, implies_true, kept_zeroDeficits, kept_budgetRow, kept_each, kept_gleanGrafts, kept_writeTrellis, kept_retryPassed]

theorem kept_putArgs (num : U64) (rows : List ArgRow) (s : State) : Kept (putArgs num rows s) s := by
  simp only [putArgs, Kept, and_self, kept_egress]

theorem kept_beginStep (num : U64) (l : Laid) (ms : List Member) (lowered : ℕ) (rows : List (U32 × BitVec 13)) (s : State) : Kept (beginStep num l ms lowered rows s) s := by
  simp only [beginStep, Kept, and_self, implies_true, kept_openManifest, kept_State_spend, kept_each, kept_monitor, kept_trace, kept_composeAfter, kept_holdCarried, kept_State_onSlot, kept_sendStepToken, kept_putArgs]

theorem kept_preemptRow (a0 : U32) (s : State) : Kept (preemptRow a0 s) s := by
  simp only [preemptRow, Kept, and_self, kept_moveReq, kept_leaveRow, kept_State_onReqH, kept_pumpMoves,
    kept_queueSpill]

theorem kept_applySettings (k : ℕ) (s : State) : Kept (applySettings k s) s := by
  simp only [applySettings, Kept, and_self, implies_true, kept_each, kept_applySetting, kept_finishAll]

theorem kept_resumed (a0 : U32) (s : State) : Kept (resumed a0 s) s := by
  simp only [resumed, Kept, and_self, kept_finishAll]

theorem kept_takeIn (sw : List (U32 × BitVec 12 × U16)) (num : U64) (m : Member) (s : State) : Kept (takeIn sw num m s).1 s := by
  simp only [takeIn, Kept, and_self, kept_moveReq, kept_resumed, kept_State_onReqH]
  repeat' (first | with_reducible rfl | simp only [Kept, and_self, kept_moveReq, kept_resumed, kept_State_onReqH] | split)

theorem kept_layoutOp (s : State) : Kept (layoutOp s) s := by
  simp only [layoutOp, Kept, kIte, kIteCtl, kIteLen, kIteGh, ite_self, and_self, kept_layOut, kept_restores,
    kept_sendManifest]

theorem kept_returnRow (h : U32) (s : State) : Kept (returnRow h s) s := by
  simp only [returnRow, Kept, kIte, kIteCtl, kIteLen, kIteGh, ite_self, and_self, kept_moveReq]
  repeat' (first | with_reducible rfl | simp only [Kept, kIte, kIteCtl, kIteLen, kIteGh, ite_self, and_self, kept_moveReq] | split)

theorem kept_takeOrKeep (sw : List (U32 × BitVec 12 × U16)) (num : U64) (m : Member) (s : State) : Kept (takeOrKeep sw num m s).1 s := by
  simp only [takeOrKeep, Kept, and_self, kept_returnRow, kept_issueChunk, kept_takeIn]
  repeat' (first | with_reducible rfl | simp only [Kept, and_self, kept_returnRow, kept_issueChunk, kept_takeIn] | split)

theorem kept_pauseNow (h : U32) (ttl : U32) (s : State) : Kept (pauseNow h ttl s) s := by
  simp only [pauseNow, Kept, kIte, kIteCtl, kIteLen, kIteGh, ite_self, and_self, kept_moveReq, kept_stopRestore, kept_State_onReqH]
  repeat' (first | with_reducible rfl | simp only [Kept, kIte, kIteCtl, kIteLen, kIteGh, ite_self, and_self, kept_moveReq, kept_stopRestore, kept_State_onReqH] | split)

theorem kept_composeReq (sw : List (U32 × (BitVec 12 × U16))) (x : Option Step) (evs : List RowEv) (h : U32) (s : State) :
    Kept (composeReq sw x evs h s) s := by
  simp only [composeReq]
  split
  · exact Kept.rfl'
  · refine Kept.ite Kept.rfl' (Kept.ite (Kept.ite ?_ ?_) ?_)
    · split
      · exact (kept_endReq ..).trans ((kept_turnEnd ..).trans (kept_State_onReqH ..))
      · exact (kept_turnEnd ..).trans (kept_State_onReqH ..)
    · exact (kept_endReq ..).trans (kept_State_onReqH ..)
    · split
      · exact (kept_endReq ..).trans (kept_State_onReqH ..)
      · refine Kept.ite ?_ (Kept.ite ?_ ?_)
        · split
          · exact (kept_pauseNow ..).trans (kept_State_onReqH ..)
          · exact kept_State_onReqH ..
        · split
          · exact (kept_State_onReqH ..).trans ((kept_moveReq ..).trans ((kept_preemptRow ..).trans ((kept_followReq ..).trans
              (kept_State_onReqH ..))))
          · exact (kept_preemptRow ..).trans ((kept_followReq ..).trans (kept_State_onReqH ..))
        · split
          · exact (kept_pauseRow ..).trans ((kept_followReq ..).trans (kept_State_onReqH ..))
          · split
            · exact (kept_moveReq ..).trans ((kept_followReq ..).trans (kept_State_onReqH ..))
            · exact (kept_followReq ..).trans (kept_State_onReqH ..)

theorem kept_sealMembers (num : U64) (l : Laid) (s : State) : Kept (sealMembers num l s).1 s :=
  kept_foldl (fun a : State × List Member => a.1) _ (fun a m => kept_takeOrKeep l.switches num m a.1) l.members (s, [])

theorem kept_noteAffinity (s : State) : Kept (noteAffinity s) s := by
  simp only [noteAffinity, Kept, and_self]

theorem kept_noteLeaves (before : List Req) (s : State) : Kept (noteLeaves before s) s := by
  simp only [noteLeaves, Kept, kIte, ite_self, and_self]

theorem kept_composeCommon (l : Laid) (s : State) : Kept (composeCommon l s) s := by
  simp only [composeCommon, Kept, kIte, ite_self, and_self, implies_true, kept_composeReq, kept_enterFallback, kept_each, kept_noteAffinity, kept_onPrn, kept_closeLedger, kept_applyMember, kept_applySettings, kept_postEnergy, kept_closeCarried, kept_progressNow, kept_offerAll, kept_noteLeaves]
  repeat' (first | with_reducible rfl | simp only [Kept, kIte, ite_self, and_self, implies_true, kept_composeReq, kept_enterFallback, kept_each, kept_noteAffinity, kept_onPrn, kept_closeLedger, kept_applyMember, kept_applySettings, kept_postEnergy, kept_closeCarried, kept_progressNow, kept_offerAll, kept_noteLeaves] | split)

theorem kept_allIdle (s : State) : Kept (allIdle s) s := by
  simp only [allIdle, Kept, and_self]

theorem kept_sealNoStep (s : State) : Kept (sealNoStep s) s := by
  simp only [sealNoStep, Kept, kIte, kIteCtl, kIteLen, kIteGh, ite_self, and_self, implies_true, kept_composeCommon, kept_returnRow, kept_enterPool, kept_each, kept_releaseAllRecs, kept_composeAfter, kept_allIdle]

theorem kept_emptyStep (num : U64) (l : Laid) (rows : List (U32 × BitVec 13)) (s : State) : Kept (emptyStep num l rows s) s := by
  simp only [emptyStep, Kept, kIte, kIteCtl, kIteLen, kIteGh, kMap, length_lupd, ite_self, and_self, implies_true, kept_enterPool, kept_releaseAllRecs, kept_composeAfter, kept_sendStepToken, kept_allIdle]
  repeat' (first | with_reducible rfl | simp only [Kept, kIte, kIteCtl, kIteLen, kIteGh, kMap, length_lupd, ite_self, and_self, implies_true, kept_enterPool, kept_releaseAllRecs, kept_composeAfter, kept_sendStepToken, kept_allIdle] | split)

theorem kept_rowsFreed (num : ℕ) (s : State) : Kept (rowsFreed num s) s := by
  simp only [rowsFreed, Kept, kIte, kIteCtl, kIteLen, kIteGh, kMap, length_lupd, ite_self, and_self, implies_true]

theorem kept_sealStep (s : State) : Kept (sealStep s) s := by
  simp only [sealStep, Kept, kIte, kIteCtl, kIteLen, kIteGh, ite_self, and_self, implies_true, kept_beginStep, kept_composeCommon, kept_returnRow, kept_each, kept_sealMembers, kept_rowsFreed, kept_onPrn, kept_emptyStep]
  repeat' (first | with_reducible rfl | simp only [Kept, kIte, kIteCtl, kIteLen, kIteGh, ite_self, and_self, implies_true, kept_beginStep, kept_composeCommon, kept_returnRow, kept_each, kept_sealMembers, kept_rowsFreed, kept_onPrn, kept_emptyStep] | split)

theorem kept_sealNoStepOp (s : State) : Kept (sealNoStepOp s) s := by
  simp only [sealNoStepOp, Kept, kIte, kIteCtl, kIteLen, kIteGh, ite_self, and_self, implies_true, kept_onCtl,
    kept_each, kept_dropChunk, kept_restores, kept_sealNoStep]

theorem kept_sealOp (s : State) : Kept (sealOp s) s := by
  simp only [sealOp, Kept, kIte, kIteCtl, kIteLen, kIteGh, ite_self, and_self, kept_sealStep]

end Sys2Proof.Machine
end

