-- ==== Sys2Proof/Laws/Greenhouse.lean ====
section
/-! SUPPORT. What the operations of Machine/Greenhouse.lean leave as it was (Laws/Kept.lean). -/

namespace Sys2Proof.Machine

set_option linter.unusedSimpArgs false
set_option linter.unusedVariables false

theorem kept_acceptGraft (f : GraftF) (v : U16) (d : GraftDesc) (s : State) : Kept (acceptGraft f v d s) s := by
  simp only [acceptGraft, Kept, and_self, kept_onSeed]

theorem kept_retryTenants (s : State) : Kept (retryTenants s) s := by
  simp only [retryTenants, Kept, kIte, kIteLen, kMap, ite_self, and_self]

theorem kept_onGVer (g : Nat) (v : U16) (f : GVer → GVer) (s : State) : Kept (onGVer g v f s) s := by
  simp only [onGVer, Kept, and_self]

theorem kept_dropPool (m : Nat) (s : State) : Kept (dropPool m s) s := by
  simp only [dropPool, Kept, and_self]

theorem kept_acceptEvict (m : Nat) (s : State) : Kept (acceptEvict m s) s := by
  simp only [acceptEvict, Kept, kMap, and_self, kept_State_onSlot, kept_onSeed]

theorem kept_copyParts (m : ℕ) (i : ℕ) (qs : List ℕ) (stop : Option ℕ) (s : State) : Kept (copyParts m i qs stop s) s := by
  simp only [copyParts, Kept, kIte, kIteCtl, kIteLen, kIteGh, ite_self, and_self, implies_true, kept_each, kept_putCopy]
  repeat' (first | with_reducible rfl | simp only [Kept, kIte, kIteCtl, kIteLen, kIteGh, ite_self, and_self, implies_true, kept_each, kept_putCopy] | split)

theorem kept_copyRegion (m : ℕ) (i : ℕ) (stop : Option ℕ) (s : State) : Kept (copyRegion m i stop s) s := by
  simp only [copyRegion, Kept, and_self, kept_copyParts]

theorem kept_copyDelta (g : ℕ) (v : U16) (region : ℕ) (qs : List ℕ) (stop : Option ℕ) (s : State) : Kept (copyDelta g v region qs stop s) s := by
  simp only [copyDelta, Kept, kIte, kIteCtl, kIteLen, kIteGh, ite_self, and_self, implies_true, kept_each, kept_putCopy]
  repeat' (first | with_reducible rfl | simp only [Kept, kIte, kIteCtl, kIteLen, kIteGh, ite_self, and_self, implies_true, kept_each, kept_putCopy] | split)

theorem kept_reloadStarts (t : ReloadOf) (s : State) : Kept (reloadStarts t s) s := by
  simp only [reloadStarts, Kept, kIte, kIteCtl, kIteLen, kIteGh, ite_self, and_self, kept_copyRegion, kept_onGVer, kept_copyDelta, kept_State_onSlot]
  repeat' (first | with_reducible rfl | simp only [Kept, kIte, kIteCtl, kIteLen, kIteGh, ite_self, and_self, kept_copyRegion, kept_onGVer, kept_copyDelta, kept_State_onSlot] | split)

theorem kept_holdRows (k : Fin 5) (pick : Req → Bool) (mirrored : Mirror → Bool) (s : State) : Kept (holdRows k pick mirrored s) s := by
  simp (disch := (intros; repeat' (first | with_reducible rfl | simp only [Kept, kIte, kIteCtl, kIteLen, kIteGh, kMap, length_lupd, ite_self, and_self, implies_true, kept_each, kept_handOver, kept_dropChunk, kept_onMirror] | split))) only [holdRows, Kept, kIte, kIteCtl, kIteLen, kIteGh, kMap, length_lupd, ite_self, and_self, implies_true, kept_each, kept_handOver, kept_dropChunk, kept_onMirror]
  repeat' (first | with_reducible rfl | simp (disch := (intros; repeat' (first | with_reducible rfl | simp only [Kept, kIte, kIteCtl, kIteLen, kIteGh, kMap, length_lupd, ite_self, and_self, implies_true, kept_each, kept_handOver, kept_dropChunk, kept_onMirror] | split))) only [Kept, kIte, kIteCtl, kIteLen, kIteGh, kMap, length_lupd, ite_self, and_self, implies_true, kept_each, kept_handOver, kept_dropChunk, kept_onMirror] | split)

theorem kept_copiesBack (cause : Nat) (s : State) : Kept (copiesBack cause s) s := by
  simp only [copiesBack, Kept, kIte, kIteCtl, kIteLen, kIteGh, ite_self, and_self, kept_progressNow]

theorem kept_loadFailLog (cause : Nat) (addr : Nat) (s : State) : Kept (loadFailLog cause addr s) s := by
  simp only [loadFailLog, Kept, and_self, kept_logErr]

theorem kept_graftWalked (g : Nat) (v : U16) (s : State) : Kept (graftWalked g v s) s := by
  simp only [graftWalked, Kept, kIte, kIteCtl, kIteLen, kIteGh, ite_self, and_self, kept_onSeed, kept_removeNodes,
    kept_onGVer]

theorem kept_linkCheck (s : State) : Kept (linkCheck s) s := by
  simp (disch := (intros; repeat' (first | with_reducible rfl | simp only [Kept, kIte, kIteCtl, kIteLen, kIteGh, kMap, length_lupd, ite_self, and_self, implies_true, kept_each, kept_ghEvent, kept_State_onSlot] | split))) only [linkCheck, Kept, kIte, kIteCtl, kIteLen, kIteGh, kMap, length_lupd, ite_self, and_self, implies_true, kept_each, kept_ghEvent, kept_State_onSlot]
  repeat' (first | with_reducible rfl | simp (disch := (intros; repeat' (first | with_reducible rfl | simp only [Kept, kIte, kIteCtl, kIteLen, kIteGh, kMap, length_lupd, ite_self, and_self, implies_true, kept_each, kept_ghEvent, kept_State_onSlot] | split))) only [Kept, kIte, kIteCtl, kIteLen, kIteGh, kMap, length_lupd, ite_self, and_self, implies_true, kept_each, kept_ghEvent, kept_State_onSlot] | split)

theorem kept_poisonStep (p : Poison) (hs : List U32) (s : State) : Kept (poisonStep p hs s) s := by
  simp only [poisonStep, Kept, kIte, kIteCtl, kIteLen, kIteGh, ite_self, and_self, kept_discardRows, kept_dropChunk, kept_schedule]
  repeat' (first | with_reducible rfl | simp only [Kept, kIte, kIteCtl, kIteLen, kIteGh, ite_self, and_self, kept_discardRows, kept_dropChunk, kept_schedule] | split)

theorem kept_poisonWeights (m : ℕ) (region : ℕ) (p : Poison) (s : State) : Kept (poisonWeights m region p s) s := by
  simp only [poisonWeights, Kept, kIte, kIteCtl, kIteLen, kIteGh, ite_self, and_self, kept_holdRows, kept_logErr, kept_poisonStep, kept_schedule, kept_ghEvent, kept_State_onSlot]

theorem kept_liftHold (k : Fin 5) (pick : Req → Bool) (s : State) : Kept (liftHold k pick s) s := by
  simp only [liftHold, Kept, and_self]

theorem kept_poisonGraft (g : ℕ) (v : U16) (region : ℕ) (p : Poison) (s : State) : Kept (poisonGraft g v region p s) s := by
  simp only [poisonGraft, Kept, kIte, kIteCtl, kIteLen, kIteGh, ite_self, and_self, kept_holdRows, kept_logErr, kept_poisonStep, kept_onGVer, kept_schedule, kept_ghEvent]
  repeat' (first | with_reducible rfl | simp only [Kept, kIte, kIteCtl, kIteLen, kIteGh, ite_self, and_self, kept_holdRows, kept_logErr, kept_poisonStep, kept_onGVer, kept_schedule, kept_ghEvent] | split)

theorem kept_acceptLoad (f : ModelLoadF) (d : ModelDesc) (base : Nat) (s : State) : Kept (acceptLoad f d base s) s
    := by
  simp only [acceptLoad, Kept, and_self, kept_linkCheck, kept_State_onSlot]

theorem kept_graftRetire (g : Nat) (s : State) : Kept (graftRetire g s) s := by
  simp only [graftRetire, Kept, and_self, kept_gleanGrafts]

theorem kept_liftMirrors (k : Fin 5) (mirrored : Mirror → Bool) (s : State) : Kept (liftMirrors k mirrored s) s := by
  simp only [liftMirrors, Kept, and_self]

theorem kept_graftBack (g : ℕ) (v : U16) (s : State) : Kept (graftBack g v s) s := by
  simp only [graftBack, Kept, kIte, kIteCtl, kIteLen, kIteGh, ite_self, and_self, kept_liftHold, kept_onGVer, kept_gleanGrafts, kept_ghEvent, kept_liftMirrors]
  repeat' (first | with_reducible rfl | simp only [Kept, kIte, kIteCtl, kIteLen, kIteGh, ite_self, and_self, kept_liftHold, kept_onGVer, kept_gleanGrafts, kept_ghEvent, kept_liftMirrors] | split)

theorem kept_evicted (m : Nat) (s : State) : Kept (evicted m s) s := by
  simp only [evicted, Kept, kIte, kIteCtl, kIteLen, kIteGh, ite_self, and_self, kept_onSeed, kept_removeNodes,
    kept_State_onSlot, kept_dropPool, kept_finishAll]

theorem kept_endAll (pick : Req → Bool) (rowSt : U8) (st : U8) (s : State) : Kept (endAll pick rowSt st s) s := by
  simp (disch := (intros; repeat' (first | with_reducible rfl | simp only [Kept, kIte, kIteCtl, kIteLen, kIteGh, kMap, length_lupd, ite_self, and_self, implies_true, kept_each, kept_endCause] | split))) only [endAll, Kept, kIte, kIteCtl, kIteLen, kIteGh, kMap, length_lupd, ite_self, and_self, implies_true, kept_each, kept_endCause]
  repeat' (first | with_reducible rfl | simp (disch := (intros; repeat' (first | with_reducible rfl | simp only [Kept, kIte, kIteCtl, kIteLen, kIteGh, kMap, length_lupd, ite_self, and_self, implies_true, kept_each, kept_endCause] | split))) only [Kept, kIte, kIteCtl, kIteLen, kIteGh, kMap, length_lupd, ite_self, and_self, implies_true, kept_each, kept_endCause] | split)

theorem kept_slotLost (m : Nat) (cause : Nat) (region : Nat) (s : State) : Kept (slotLost m cause region s) s := by
  simp only [slotLost, Kept, and_self, kept_State_onSlot, kept_ghEvent, kept_loadFailLog, kept_endAll]

theorem kept_reloaded (t : ReloadOf) (seen : ReloadSeen) (stop : Option ℕ) (s : State) : Kept (reloaded t seen stop s) s := by
  simp only [reloaded, Kept, kIte, kIteCtl, kIteLen, kIteGh, ite_self, and_self, implies_true, kept_pumpMoves, kept_linkCheck, kept_copyRegion, kept_retryTenants, kept_endAll, kept_copiesBack, kept_liftHold, kept_each, kept_onGVer, kept_graftBack, kept_copyParts, kept_copyDelta, kept_ghEvent, kept_loadFailLog, kept_liftMirrors, kept_State_onSlot, kept_slotLost]
  repeat' (first | with_reducible rfl | simp only [Kept, kIte, kIteCtl, kIteLen, kIteGh, ite_self, and_self, implies_true, kept_pumpMoves, kept_linkCheck, kept_copyRegion, kept_retryTenants, kept_endAll, kept_copiesBack, kept_liftHold, kept_each, kept_onGVer, kept_graftBack, kept_copyParts, kept_copyDelta, kept_ghEvent, kept_loadFailLog, kept_liftMirrors, kept_State_onSlot, kept_slotLost] | split)

theorem kept_loadFail (m : Nat) (cause : Nat) (region : Nat) (s : State) : Kept (loadFail m cause region s) s := by
  simp only [loadFail, Kept, and_self, kept_loadFailLog, kept_State_onSlot, kept_dropPool, kept_ghEvent, kept_endAll]

theorem kept_graftFail (g : Nat) (v : U16) (cause : Nat) (region : Nat) (s : State) : Kept (graftFail g v cause
    region s) s := by
  simp only [graftFail, Kept, and_self, kept_ghEvent, kept_loadFailLog, kept_endAll]
  repeat' (first | with_reducible rfl | simp only [Kept, and_self, kept_ghEvent, kept_loadFailLog, kept_endAll] | split)

theorem kept_copyModel (m : ℕ) (n : ℕ) (ok : Bool) (stop : Option ℕ) (s : State) : Kept (copyModel m n ok stop s) s := by
  simp only [copyModel, Kept, kIte, kIteCtl, kIteLen, kIteGh, ite_self, and_self, implies_true, kept_copyRegion, kept_State_spend, kept_each, kept_putReads, kept_putCopy]
  repeat' (first | with_reducible rfl | simp only [Kept, kIte, kIteCtl, kIteLen, kIteGh, ite_self, and_self, implies_true, kept_copyRegion, kept_State_spend, kept_each, kept_putReads, kept_putCopy] | split)

theorem kept_modelLoaded (m : ℕ) (seen : LoadSeen) (stop : Option ℕ) (s : State) : Kept (modelLoaded m seen stop s) s := by
  simp only [modelLoaded, Kept, kIte, kIteCtl, kIteLen, kIteGh, ite_self, and_self, implies_true, kept_linkCheck, kept_retryTenants, kept_copyModel, kept_copiesBack, kept_each, kept_bringIn, kept_putReads, kept_schedule, kept_loadFail, kept_ghEvent, kept_State_onSlot]
  repeat' (first | with_reducible rfl | simp only [Kept, kIte, kIteCtl, kIteLen, kIteGh, ite_self, and_self, implies_true, kept_linkCheck, kept_retryTenants, kept_copyModel, kept_copiesBack, kept_each, kept_bringIn, kept_putReads, kept_schedule, kept_loadFail, kept_ghEvent, kept_State_onSlot] | split)

theorem kept_copyGraft (g : ℕ) (v : U16) (n : ℕ) (stop : Option ℕ) (s : State) : Kept (copyGraft g v n stop s) s := by
  simp only [copyGraft, Kept, and_self, implies_true, kept_State_spend, kept_each, kept_putReads, kept_copyDelta]
  repeat' (first | with_reducible rfl | simp only [Kept, and_self, implies_true, kept_State_spend, kept_each, kept_putReads, kept_copyDelta] | split)

theorem kept_graftLoaded (g : ℕ) (v : U16) (seen : GraftSeen) (stop : Option ℕ) (s : State) : Kept (graftLoaded g v seen stop s) s := by
  simp only [graftLoaded, Kept, kIte, kIteCtl, kIteLen, kIteGh, ite_self, and_self, implies_true, kept_copyGraft, kept_graftFail, kept_retryTenants, kept_copiesBack, kept_each, kept_putReads, kept_onGVer, kept_gleanGrafts, kept_ghEvent]
  repeat' (first | with_reducible rfl | simp only [Kept, kIte, kIteCtl, kIteLen, kIteGh, ite_self, and_self, implies_true, kept_copyGraft, kept_graftFail, kept_retryTenants, kept_copiesBack, kept_each, kept_putReads, kept_onGVer, kept_gleanGrafts, kept_ghEvent] | split)

end Sys2Proof.Machine
end

