-- ==== Sys2Proof/Laws/Mail.lean ====
section
/-! SUPPORT. What the operations of Machine/Mail.lean leave as it was (Laws/Kept.lean). -/

namespace Sys2Proof.Machine

set_option linter.unusedSimpArgs false
set_option linter.unusedVariables false

theorem kept_selectPiece (f : SelectF) (k : Nat) (r : State × Nat) (x : Nat × List U32) : Kept (selectPiece f k r x).1 r.1 := by
  simp only [selectPiece, Kept, kIte, kIteCtl, kIteLen, kIteGh, ite_self, and_self, kept_onLane, kept_State_spend]

theorem kept_selectRow (f : SelectF) (row : List U32) (s : State) : Kept (selectRow f row s).2.1 s :=
  (kept_onLane ..).trans (kept_foldl (fun a : State × Nat => a.1) _ (fun a x => kept_selectPiece f s.jobLane a x) (piecesOf row) (s, 0))

theorem kept_selectRows (p : Nat) (f : SelectF) (rows : List (List U32)) (i n : Nat) (s : State) :
    Kept (selectRows p f rows i n s).1 s := by
  induction rows generalizing i n s with
  | nil => exact Kept.rfl'
  | cons r rs ih => exact (ih ..).trans ((kept_hostWrite ..).trans (kept_selectRow ..))

theorem kept_askSensor (i : Nat) (s : State) : Kept (askSensor i s) s := by
  simp only [askSensor, Kept, and_self]

theorem kept_tailPoll (s : State) : Kept (tailPoll s) s := by
  simp (disch := (intros; repeat' (first | with_reducible rfl | simp only [Kept, kIte, kIteCtl, kIteLen, kIteGh, kMap, length_lupd, ite_self, and_self, implies_true, kept_each, kept_askTail] | split))) only [tailPoll, Kept, kIte, kIteCtl, kIteLen, kIteGh, kMap, length_lupd, ite_self, and_self, implies_true, kept_each, kept_askTail]
  repeat' (first | with_reducible rfl | simp (disch := (intros; repeat' (first | with_reducible rfl | simp only [Kept, kIte, kIteCtl, kIteLen, kIteGh, kMap, length_lupd, ite_self, and_self, implies_true, kept_each, kept_askTail] | split))) only [Kept, kIte, kIteCtl, kIteLen, kIteGh, kMap, length_lupd, ite_self, and_self, implies_true, kept_each, kept_askTail] | split)

theorem kept_budgetPeriod (t : Nat) (s : State) : Kept (budgetPeriod t s) s := by
  simp only [budgetPeriod, Kept, kIte, kIteCtl, kIteLen, kIteGh, ite_self, and_self, kept_State_onTen]

theorem kept_setProfile (t : ℕ) (f : ProfileF) (bias : List (ℕ × U32)) (s : State) : Kept (setProfile t f bias s) s := by
  simp only [setProfile, Kept, kIte, kIteCtl, kIteLen, kIteGh, kMap, length_lupd, ite_self, and_self, implies_true, kept_gdnWrite, kept_State_onTen]

theorem kept_urgStart (p : ℕ) (u : ℕ) (i : Instr) (s : State) : Kept (urgStart p u i s) s := by
  simp only [urgStart, Kept, kIte, kIteCtl, kIteLen, kIteGh, kMap, length_lupd, ite_self, and_self, implies_true, kept_State_onPage, kept_onCtl]

theorem kept_hSetting (a0 : Hdr) (op : U8) (a2 : Setting) (s : State) : Kept (hSetting a0 op a2 s) s := by
  simp only [hSetting, Kept, and_self, kept_startWait]

theorem kept_rollUpTen (t : Nat) (s : State) : Kept (rollUpTen t s) s := by
  simp only [rollUpTen, Kept, kIte, kIteCtl, kIteLen, kIteGh, ite_self, and_self, implies_true, kept_each,
    kept_rollUp]

theorem kept_unoffer (h : U32) (s : State) : Kept (unoffer h s) s := by
  simp only [unoffer, Kept, kIte, kIteCtl, kIteLen, kIteGh, kMap, length_lupd, ite_self, and_self, implies_true, kept_stopRestore, kept_State_onReqH]
  repeat' (first | with_reducible rfl | simp only [Kept, kIte, kIteCtl, kIteLen, kIteGh, kMap, length_lupd, ite_self, and_self, implies_true, kept_stopRestore, kept_State_onReqH] | split)

theorem kept_flushOne (h : U32) (s : State) : Kept (flushOne h s) s := by
  simp only [flushOne, Kept, kIte, kIteCtl, kIteLen, kIteGh, kMap, length_lupd, ite_self, and_self, implies_true, kept_queueSpill, kept_unoffer, kept_spillEnd]

theorem kept_matchReserve (slot : Nat) (s : State) :
    (∀ t, (matchReserve slot s).1 = some t → Kept t s) ∧ Kept (matchReserve slot s).2 s := by
  have hf (n : Nat) (u : State) (hu : Kept u s) : Kept { dropTable slot (coverSome slot n u) with tens := s.tens } s := by
    have := (kept_dropTable slot (coverSome slot n u)).trans ((kept_coverSome slot n u).trans hu)
    exact ⟨this.1, this.2.1, this.2.2.1, this.2.2.2.1, rfl, this.2.2.2.2.2.1, this.2.2.2.2.2.2⟩
  simp only [matchReserve]
  split
  · exact ⟨fun _ h => (nomatch h), Kept.rfl'⟩
  · have hm := kept_seedMatch slot s
    split
    · exact ⟨fun _ h => (nomatch h), hf _ _ hm⟩
    · rename_i h
      refine ⟨fun t ht => ?_, hf _ _ hm⟩
      cases ht
      simp only [Kept, kept_trace, kept_moveReq, kept_State_onReq, kept_coverTo _ _ _ _ h, hm, and_self]

theorem kept_hostFault (p : Nat) (detail : Nat) (addr : Nat) (handle : Nat) (s : State) : Kept (hostFault p detail
    addr handle s) s := by
  simp only [hostFault, Kept, kIte, kIteCtl, kIteLen, kIteGh, ite_self, and_self, kept_logErr]

theorem kept_admitAccept (t : ℕ) (h : Hdr) (f : AdmitF) (s : State) : Kept (admitAccept t h f s) s := by
  simp only [admitAccept, Kept, kIte, kIteCtl, kIteLen, kIteGh, kMap, length_lupd, ite_self, and_self, implies_true, kept_onSpool, kept_startWait, kept_gdnWrite, kept_quotaCheck]

theorem kept_finishTag (p : Nat) (tag : U16) (pick : Wait → Bool) (st : Nat) (res : List (Nat × Nat)) (s : State) :
    Kept (finishTag p tag pick st res s) s := by
  simp only [finishTag, Kept, kIte, kIteCtl, kIteLen, kIteGh, ite_self, and_self, kept_State_onPage, kept_complete]
  repeat' (first | with_reducible rfl | simp only [Kept, kIte, kIteCtl, kIteLen, kIteGh, ite_self, and_self, kept_State_onPage, kept_complete] | split)

theorem kept_biasCopied (p : ℕ) (tag : U16) (es : List Bias) (s : State) : Kept (biasCopied p tag es s) s := by
  simp only [biasCopied, Kept, kIte, kIteCtl, kIteLen, kIteGh, kMap, length_lupd, ite_self, and_self, implies_true, kept_putReads, kept_setProfile, kept_finishTag]
  repeat' (first | with_reducible rfl | simp only [Kept, kIte, kIteCtl, kIteLen, kIteGh, kMap, length_lupd, ite_self, and_self, implies_true, kept_putReads, kept_setProfile, kept_finishTag] | split)

theorem kept_tailRead (t : ℕ) (k : ℕ) (tail : U32) (s : State) : Kept (tailRead t k tail s) s := by
  simp only [tailRead, Kept, kIte, kIteCtl, kIteLen, kIteGh, kMap, length_lupd, ite_self, and_self, implies_true, kept_logErr, kept_onSpool, kept_onPrn, kept_tailGone, kept_releaseReq]
  repeat' (first | with_reducible rfl | simp only [Kept, kIte, kIteCtl, kIteLen, kIteGh, kMap, length_lupd, ite_self, and_self, implies_true, kept_logErr, kept_onSpool, kept_onPrn, kept_tailGone, kept_releaseReq] | split)

theorem kept_selectEnd (p : ℕ) (tag : U16) (f : SelectF) (rows : List (List U32)) (failed : List HostRd) (st : ℕ) (s : State) : Kept (selectEnd p tag f rows failed st s) s := by
  simp only [selectEnd, Kept, kIte, kIteCtl, kIteLen, kIteGh, kMap, length_lupd, ite_self, and_self, implies_true, kept_putReads, kept_finishTag, kept_selectRows, kept_chargeTen]

theorem kept_selectDone (p : ℕ) (tag : U16) (rows : List (List U32)) (s : State) : Kept (selectDone p tag rows s) s := by
  simp only [selectDone, Kept, kIte, kIteCtl, kIteLen, kIteGh, kMap, length_lupd, ite_self, and_self, implies_true, kept_selectEnd]
  repeat' (first | with_reducible rfl | simp only [Kept, kIte, kIteCtl, kIteLen, kIteGh, kMap, length_lupd, ite_self, and_self, implies_true, kept_selectEnd] | split)

theorem kept_promptCopied (hd : U32) (toks : List U32) (s : State) : Kept (promptCopied hd toks s) s := by
  simp only [promptCopied, Kept, kIte, kIteCtl, kIteLen, kIteGh, kMap, length_lupd, ite_self, and_self, implies_true, kept_finish, kept_chargeReq, kept_endNow, kept_putReads, kept_gdnWrite, kept_State_onReqH, kept_State_onTen]
  repeat' (first | with_reducible rfl | simp only [Kept, kIte, kIteCtl, kIteLen, kIteGh, kMap, length_lupd, ite_self, and_self, implies_true, kept_finish, kept_chargeReq, kept_endNow, kept_putReads, kept_gdnWrite, kept_State_onReqH, kept_State_onTen] | split)

theorem kept_hTimeXchg (p : Nat) (via : Via) (f : TimeF) (s : State) : Kept (hTimeXchg p via f s) s := by
  simp only [hTimeXchg, Kept, and_self, kept_replyVia]

theorem kept_selectFail (p : ℕ) (tag : U16) (rows : List (List U32)) (addr : ℕ) (s : State) : Kept (selectFail p tag rows addr s) s := by
  simp only [selectFail, Kept, kIte, kIteCtl, kIteLen, kIteGh, kMap, length_lupd, ite_self, and_self, implies_true, kept_selectEnd]
  repeat' (first | with_reducible rfl | simp only [Kept, kIte, kIteCtl, kIteLen, kIteGh, kMap, length_lupd, ite_self, and_self, implies_true, kept_selectEnd] | split)

theorem kept_flushEnds (t : ℕ) (refused : List (U16 × U64)) (s : State) : Kept (flushEnds t refused s) s := by
  simp (disch := (intros; repeat' (first | with_reducible rfl | simp only [Kept, kIte, kIteCtl, kIteLen, kIteGh, kMap, length_lupd, ite_self, and_self, implies_true, kept_each, kept_pageError, kept_releaseReq, kept_freeReq, kept_State_onReqH, kept_hostFault] | split))) only [flushEnds, Kept, kIte, kIteCtl, kIteLen, kIteGh, kMap, length_lupd, ite_self, and_self, implies_true, kept_each, kept_pageError, kept_releaseReq, kept_freeReq, kept_State_onReqH, kept_hostFault]
  repeat' (first | with_reducible rfl | simp (disch := (intros; repeat' (first | with_reducible rfl | simp only [Kept, kIte, kIteCtl, kIteLen, kIteGh, kMap, length_lupd, ite_self, and_self, implies_true, kept_each, kept_pageError, kept_releaseReq, kept_freeReq, kept_State_onReqH, kept_hostFault] | split))) only [Kept, kIte, kIteCtl, kIteLen, kIteGh, kMap, length_lupd, ite_self, and_self, implies_true, kept_each, kept_pageError, kept_releaseReq, kept_freeReq, kept_State_onReqH, kept_hostFault] | split)

theorem kept_hGraftRetire (a0 : Hdr) (f : RetireF) (s : State) : Kept (hGraftRetire a0 f s) s := by
  simp only [hGraftRetire, Kept, kIte, kIteCtl, kIteLen, kIteGh, ite_self, and_self, kept_reply, kept_graftRetire]

theorem kept_takeLoad (a0 : Hdr) (f : ModelLoadF) (d : ModelDesc) (room : Option Nat) (s : State) : Kept (takeLoad
    a0 f d room s) s := by
  simp only [takeLoad, Kept, and_self, kept_reply, kept_acceptLoad]
  repeat' (first | with_reducible rfl | simp only [Kept, and_self, kept_reply, kept_acceptLoad] | split)

theorem kept_hModelEvict (a0 : Hdr) (f : EvictF) (s : State) : Kept (hModelEvict a0 f s) s := by
  simp only [hModelEvict, Kept, kIte, kIteCtl, kIteLen, kIteGh, ite_self, and_self, kept_reply, kept_acceptEvict,
    kept_startWait]

theorem kept_hSetBudget (a0 : Hdr) (f : BudgetF) (s : State) : Kept (hSetBudget a0 f s) s := by
  simp only [hSetBudget, Kept, and_self, kept_State_onTen, kept_reply, kept_quotaCheck]

theorem kept_hSetCyclic (a0 : Hdr) (f : CyclicF) (s : State) : Kept (hSetCyclic a0 f s) s := by
  simp only [hSetCyclic, Kept, kIte, kIteCtl, kIteLen, kIteGh, ite_self, and_self, kept_reply, kept_hSetting]

theorem kept_resetDone (t : ℕ) (refused : List (U16 × U64)) (s : State) : Kept (resetDone t refused s) s := by
  simp only [resetDone, Kept, kIte, kIteCtl, kIteLen, kIteGh, kMap, length_lupd, ite_self, and_self, implies_true, kept_finish, kept_each, kept_vecEvent, kept_flushEnds, kept_State_onPage, kept_pinNodes, kept_State_onTen]
  repeat' (first | with_reducible rfl | simp only [Kept, kIte, kIteCtl, kIteLen, kIteGh, kMap, length_lupd, ite_self, and_self, implies_true, kept_finish, kept_each, kept_vecEvent, kept_flushEnds, kept_State_onPage, kept_pinNodes, kept_State_onTen] | split)

theorem kept_hTraceConfig (a0 : Hdr) (f : TraceF) (s : State) : Kept (hTraceConfig a0 f s) s := by
  simp only [hTraceConfig, Kept, kIte, kIteCtl, kIteLen, kIteGh, ite_self, and_self, kept_reply, kept_traceFlush]

theorem kept_hOpenSpool (t : ℕ) (h : Hdr) (f : SpoolF) (refused : Bool) (s : State) : Kept (hOpenSpool t h f refused s) s := by
  simp only [hOpenSpool, Kept, kIte, kIteCtl, kIteLen, kIteGh, kMap, length_lupd, ite_self, and_self, implies_true, kept_tailGone, kept_hostFault, kept_reply, kept_State_onTen, kept_hostWrite]
  repeat' (first | with_reducible rfl | simp only [Kept, kIte, kIteCtl, kIteLen, kIteGh, kMap, length_lupd, ite_self, and_self, implies_true, kept_tailGone, kept_hostFault, kept_reply, kept_State_onTen, kept_hostWrite] | split)

theorem kept_hSeedbedUnpin (p : Nat) (a1 : Hdr) (f : UnpinF) (s : State) : Kept (hSeedbedUnpin p a1 f s) s := by
  simp only [hSeedbedUnpin, Kept, and_self, kept_reply, kept_pinNodes, kept_State_onTen]
  repeat' (first | with_reducible rfl | simp only [Kept, and_self, kept_reply, kept_pinNodes, kept_State_onTen] | split)

theorem kept_hGraftLoad (h : Hdr) (f : GraftF) (desc : Option GraftDesc) (s : State) : Kept (hGraftLoad h f desc s) s := by
  simp only [hGraftLoad, Kept, kIte, kIteCtl, kIteLen, kIteGh, kMap, length_lupd, ite_self, and_self, implies_true, kept_putReads, kept_acceptGraft, kept_hostFault, kept_reply]
  repeat' (first | with_reducible rfl | simp only [Kept, kIte, kIteCtl, kIteLen, kIteGh, kMap, length_lupd, ite_self, and_self, implies_true, kept_putReads, kept_acceptGraft, kept_hostFault, kept_reply] | split)

theorem kept_hBedConfig (a0 : Hdr) (f : BedF) (s : State) : Kept (hBedConfig a0 f s) s := by
  simp only [hBedConfig, Kept, and_self, kept_reply, kept_hSetting]
  repeat' (first | with_reducible rfl | simp only [Kept, and_self, kept_reply, kept_hSetting] | split)

theorem kept_hSelect (p : Nat) (a1 : Hdr) (f : SelectF) (s : State) : Kept (hSelect p a1 f s) s := by
  simp only [hSelect, Kept, kIte, kIteCtl, kIteLen, kIteGh, ite_self, and_self, kept_reply, kept_startWait]

theorem kept_hTenantOpen (a0 : Hdr) (f : TenantOpenF) (s : State) : Kept (hTenantOpen a0 f s) s := by
  simp only [hTenantOpen, Kept, kIte, kIteCtl, kIteLen, kIteGh, ite_self, and_self, kept_reply, kept_State_onPage,
    kept_State_onTen]

theorem kept_hAdmit (t : Nat) (a1 : Hdr) (f : AdmitF) (s : State) : Kept (hAdmit t a1 f s) s := by
  simp only [hAdmit, Kept, and_self, kept_reply, kept_trace, kept_admitAccept]
  repeat' (first | with_reducible rfl | simp only [Kept, and_self, kept_reply, kept_trace, kept_admitAccept] | split)

theorem kept_hThermalQuery (a0 : Hdr) (f : ThermF) (s : State) : Kept (hThermalQuery a0 f s) s := by
  simp only [hThermalQuery, Kept, kIte, kIteCtl, kIteLen, kIteGh, ite_self, and_self, implies_true, kept_reply,
    kept_startWait, kept_each, kept_askSensor]

theorem kept_hGraftReplace (h : Hdr) (f : GraftF) (desc : Option GraftDesc) (s : State) : Kept (hGraftReplace h f desc s) s := by
  simp only [hGraftReplace, Kept, kIte, kIteCtl, kIteLen, kIteGh, kMap, length_lupd, ite_self, and_self, implies_true, kept_putReads, kept_acceptGraft, kept_hostFault, kept_reply]
  repeat' (first | with_reducible rfl | simp only [Kept, kIte, kIteCtl, kIteLen, kIteGh, kMap, length_lupd, ite_self, and_self, implies_true, kept_putReads, kept_acceptGraft, kept_hostFault, kept_reply] | split)

theorem kept_hSetProfile (t : Nat) (a1 : Hdr) (f : ProfileF) (s : State) : Kept (hSetProfile t a1 f s) s := by
  simp only [hSetProfile, Kept, kIte, kIteCtl, kIteLen, kIteGh, ite_self, and_self, kept_reply, kept_setProfile,
    kept_startWait]

theorem kept_hFwInfo (a0 : Hdr) (s : State) : Kept (hFwInfo a0 s) s := by
  simp only [hFwInfo, Kept, and_self, kept_reply]

theorem kept_hModelLoad (h : Hdr) (f : ModelLoadF) (desc : Option ModelDesc) (s : State) : Kept (hModelLoad h f desc s) s := by
  simp only [hModelLoad, Kept, kIte, kIteCtl, kIteLen, kIteGh, kMap, length_lupd, ite_self, and_self, implies_true, kept_takeLoad, kept_putReads, kept_hostFault, kept_reply]
  repeat' (first | with_reducible rfl | simp only [Kept, kIte, kIteCtl, kIteLen, kIteGh, kMap, length_lupd, ite_self, and_self, implies_true, kept_takeLoad, kept_putReads, kept_hostFault, kept_reply] | split)

theorem kept_bringBack (h : U32) (s : State) : Kept (bringBack h s) s := by
  simp only [bringBack, Kept, kIte, kIteCtl, kIteLen, kIteGh, kMap, length_lupd, ite_self, and_self, implies_true, kept_restores, kept_onMoves, kept_offerBack, kept_State_onReqH]
  repeat' (first | with_reducible rfl | simp only [Kept, kIte, kIteCtl, kIteLen, kIteGh, kMap, length_lupd, ite_self, and_self, implies_true, kept_restores, kept_onMoves, kept_offerBack, kept_State_onReqH] | split)

theorem kept_extendCopied (hd : U32) (toks : List U32) (s : State) : Kept (extendCopied hd toks s) s := by
  simp only [extendCopied, Kept, kIte, kIteCtl, kIteLen, kIteGh, kMap, length_lupd, ite_self, and_self, implies_true, kept_bringBack, kept_finish, kept_chargeReq, kept_putReads, kept_gdnWrite, kept_State_onReqH, kept_State_onTen]
  repeat' (first | with_reducible rfl | simp only [Kept, kIte, kIteCtl, kIteLen, kIteGh, kMap, length_lupd, ite_self, and_self, implies_true, kept_bringBack, kept_finish, kept_chargeReq, kept_putReads, kept_gdnWrite, kept_State_onReqH, kept_State_onTen] | split)

theorem kept_expiryScan (s : State) : Kept (expiryScan s) s := by
  simp only [expiryScan, Kept, and_self, implies_true, kept_retryTenants, kept_each, kept_expireReq]

theorem kept_matchFail (slot : Nat) (s t : State) (o : Option State) (h : matchReserve slot s = (o,
    t)) : Kept t s := by
  have := (kept_matchReserve slot s).2
  rw [h] at this
  exact this

theorem kept_admissionAttempt (t : Nat) (s : State) : Kept (admissionAttempt t s) s := by
  simp only [admissionAttempt]
  split
  · exact Kept.rfl'
  · split
    · exact Kept.rfl'
    · split
      · exact kept_expireReq ..
      · split
        · exact kept_expireReq ..
        · split
          · exact (kept_State_onTen ..).trans (kept_expireReq ..)
          · split
            · rename_i h
              exact ((kept_matchReserve _ _).1 _ (by rw [h])).trans (kept_expireReq ..)
            · rename_i h
              exact (kept_State_onTen ..).trans
                ((kept_matchFail _ _ _ _ h).trans (kept_expireReq ..))

theorem kept_startReset (t : Nat) (close : Bool) (s : State) : Kept (startReset t close s) s := by
  simp (disch := (intros; repeat' (first | with_reducible rfl | simp only [Kept, kIte, kIteCtl, kIteLen, kIteGh, kMap, length_lupd, ite_self, and_self, implies_true, kept_State_onPage, kept_each, kept_freeReq, kept_State_onReqH, kept_endCause] | split))) only [startReset, Kept, kIte, kIteCtl, kIteLen, kIteGh, kMap, length_lupd, ite_self, and_self, implies_true, kept_State_onPage, kept_each, kept_freeReq, kept_State_onReqH, kept_endCause]
  repeat' (first | with_reducible rfl | simp (disch := (intros; repeat' (first | with_reducible rfl | simp only [Kept, kIte, kIteCtl, kIteLen, kIteGh, kMap, length_lupd, ite_self, and_self, implies_true, kept_State_onPage, kept_each, kept_freeReq, kept_State_onReqH, kept_endCause] | split))) only [Kept, kIte, kIteCtl, kIteLen, kIteGh, kMap, length_lupd, ite_self, and_self, implies_true, kept_State_onPage, kept_each, kept_freeReq, kept_State_onReqH, kept_endCause] | split)

theorem kept_State_named (s : State) (p : Nat) (a2 : U32) : Kept (State.named s p a2).1 s := by
  simp only [State.named, Kept, and_self, kept_expireReq]
  repeat' (first | with_reducible rfl | simp only [Kept, and_self, kept_expireReq] | split)

theorem kept_hCancel (p : Nat) (via : Via) (f : HandleF) (s : State) : Kept (hCancel p via f s) s := by
  simp only [hCancel, Kept, kIte, kIteCtl, kIteLen, kIteGh, ite_self, and_self, kept_State_named, kept_replyVia,
    kept_endNow, kept_State_onReqH, kept_handOver, kept_startWait]
  repeat' (first | with_reducible rfl | simp only [Kept, kIte, kIteCtl, kIteLen, kIteGh, ite_self, and_self, kept_State_named, kept_replyVia, kept_endNow, kept_State_onReqH, kept_handOver, kept_startWait] | split)

theorem kept_hQueryReq (p : Nat) (a1 : Hdr) (f : HandleF) (s : State) : Kept (hQueryReq p a1 f s) s := by
  simp only [hQueryReq, Kept, and_self, kept_State_named, kept_reply]
  repeat' (first | with_reducible rfl | simp only [Kept, and_self, kept_State_named, kept_reply] | split)

theorem kept_hSeedbedPin (p : ℕ) (h : Hdr) (f : PinF) (s : State) : Kept (hSeedbedPin p h f s) s := by
  simp only [hSeedbedPin, Kept, kIte, kIteCtl, kIteLen, kIteGh, kMap, length_lupd, ite_self, and_self, implies_true, kept_restores, kept_onSeed, kept_publish, kept_pinNodes, kept_reply, kept_State_named, kept_State_onTen]
  repeat' (first | with_reducible rfl | simp only [Kept, kIte, kIteCtl, kIteLen, kIteGh, kMap, length_lupd, ite_self, and_self, implies_true, kept_restores, kept_onSeed, kept_publish, kept_pinNodes, kept_reply, kept_State_named, kept_State_onTen] | split)

theorem kept_hResume (p : Nat) (a1 : Hdr) (f : HandleF) (s : State) : Kept (hResume p a1 f s) s := by
  simp only [hResume, Kept, kIte, kIteCtl, kIteLen, kIteGh, ite_self, and_self, kept_State_named, kept_reply,
    kept_startWait, kept_bringBack]
  repeat' (first | with_reducible rfl | simp only [Kept, kIte, kIteCtl, kIteLen, kIteGh, ite_self, and_self, kept_State_named, kept_reply, kept_startWait, kept_bringBack] | split)

theorem kept_hExtend (p : Nat) (a1 : Hdr) (f : ExtendF) (s : State) : Kept (hExtend p a1 f s) s := by
  simp only [hExtend, Kept, kIte, kIteCtl, kIteLen, kIteGh, ite_self, and_self, kept_State_named, kept_reply,
    kept_startWait]
  repeat' (first | with_reducible rfl | simp only [Kept, kIte, kIteCtl, kIteLen, kIteGh, ite_self, and_self, kept_State_named, kept_reply, kept_startWait] | split)

theorem kept_hPause (p : ℕ) (h : Hdr) (f : HandleF) (s : State) : Kept (hPause p h f s) s := by
  simp only [hPause, Kept, kIte, kIteCtl, kIteLen, kIteGh, kMap, length_lupd, ite_self, and_self, implies_true, kept_handOver, kept_pauseNow, kept_startWait, kept_State_onReqH, kept_reply, kept_State_named]
  repeat' (first | with_reducible rfl | simp only [Kept, kIte, kIteCtl, kIteLen, kIteGh, kMap, length_lupd, ite_self, and_self, implies_true, kept_handOver, kept_pauseNow, kept_startWait, kept_State_onReqH, kept_reply, kept_State_named] | split)

theorem kept_hQueryLedger (p : ℕ) (h : Hdr) (f : LedgerF) (refused : Bool) (s : State) : Kept (hQueryLedger p h f refused s) s := by
  simp only [hQueryLedger, Kept, kIte, kIteCtl, kIteLen, kIteGh, kMap, length_lupd, ite_self, and_self, implies_true, kept_hostFault, kept_chargeTen, kept_reply, kept_State_named, kept_hostWrite]
  repeat' (first | with_reducible rfl | simp only [Kept, kIte, kIteCtl, kIteLen, kIteGh, kMap, length_lupd, ite_self, and_self, implies_true, kept_hostFault, kept_chargeTen, kept_reply, kept_State_named, kept_hostWrite] | split)

theorem kept_hTenantReset (p : Nat) (a1 : Hdr) (f : TenantResetF) (s : State) : Kept (hTenantReset p a1 f s) s := by
  simp only [hTenantReset, Kept, kIte, kIteCtl, kIteLen, kIteGh, ite_self, and_self, kept_reply, kept_startWait,
    kept_State_onPage, kept_startReset]
  repeat' (first | with_reducible rfl | simp only [Kept, kIte, kIteCtl, kIteLen, kIteGh, ite_self, and_self, kept_reply, kept_startWait, kept_State_onPage, kept_startReset] | split)

theorem kept_hColdFlush (p : Nat) (a1 : Hdr) (f : FlushF) (s : State) : Kept (hColdFlush p a1 f s) s := by
  simp only [hColdFlush, Kept, kIte, kIteCtl, kIteLen, kIteGh, ite_self, and_self, implies_true, kept_flushDone,
    kept_pumpMoves, kept_each, kept_flushOne, kept_startWait, kept_State_named, kept_reply]
  repeat' (first | with_reducible rfl | simp only [Kept, kIte, kIteCtl, kIteLen, kIteGh, ite_self, and_self, implies_true, kept_flushDone, kept_pumpMoves, kept_each, kept_flushOne, kept_startWait, kept_State_named, kept_reply] | split)

theorem kept_handle (p : Nat) (via : Via) (i : Instr) (addr : Nat) (s : State) : Kept (handle p via i addr s) s := by
  simp only [handle, Kept, kIte, kIteCtl, kIteLen, kIteGh, ite_self, and_self, kept_pageError, kept_replyVia,
    kept_hAdmit, kept_hCancel, kept_hPause, kept_hResume, kept_hExtend, kept_hSetProfile, kept_hOpenSpool,
      kept_hQueryReq, kept_hTimeXchg, kept_hSelect, kept_hTenantOpen, kept_hTenantReset, kept_hQueryLedger,
      kept_hSeedbedPin, kept_hSeedbedUnpin, kept_hColdFlush, kept_hModelLoad, kept_hModelEvict, kept_hGraftLoad,
      kept_hGraftReplace, kept_hGraftRetire, kept_hBedConfig, kept_hSetting, kept_hSetBudget, kept_hSetCyclic,
      kept_hTraceConfig, kept_hThermalQuery, kept_hFwInfo]
  repeat' (first | with_reducible rfl | simp only [Kept, kIte, kIteCtl, kIteLen, kIteGh, ite_self, and_self, kept_pageError, kept_replyVia, kept_hAdmit, kept_hCancel, kept_hPause, kept_hResume, kept_hExtend, kept_hSetProfile, kept_hOpenSpool, kept_hQueryReq, kept_hTimeXchg, kept_hSelect, kept_hTenantOpen, kept_hTenantReset, kept_hQueryLedger, kept_hSeedbedPin, kept_hSeedbedUnpin, kept_hColdFlush, kept_hModelLoad, kept_hModelEvict, kept_hGraftLoad, kept_hGraftReplace, kept_hGraftRetire, kept_hBedConfig, kept_hSetting, kept_hSetBudget, kept_hSetCyclic, kept_hTraceConfig, kept_hThermalQuery, kept_hFwInfo] | split)

theorem kept_fetchMsg (p : Nat) (i : Instr) (s : State) : Kept (fetchMsg p i s) s := kept_State_onPage ..

theorem kept_pumpRing (n : Nat) (s : State) : Kept (pumpRing n s) s := by
  induction n generalizing s with
  | zero => exact Kept.rfl'
  | succ n ih =>
    simp only [pumpRing]
    repeat' split
    all_goals first
      | exact Kept.rfl'
      | exact (ih _).trans ((kept_handle ..).trans (kept_fetchMsg ..))

theorem kept_pumpUrgent (n : Nat) (s : State) : Kept (pumpUrgent n s) s := by
  induction n generalizing s with
  | zero => exact Kept.rfl'
  | succ n ih =>
    simp only [pumpUrgent]
    repeat' split
    all_goals first
      | exact Kept.rfl'
      | exact (ih _).trans ((kept_handle ..).trans (kept_State_onPage ..))

theorem kept_beginFetch (p : ℕ) (s : State) : Kept (beginFetch p s) s := by
  simp only [beginFetch, Kept, kIte, kIteCtl, kIteLen, kIteGh, kMap, length_lupd, ite_self, and_self, implies_true, kept_putReads, kept_State_onPage]
  repeat' (first | with_reducible rfl | simp only [Kept, kIte, kIteCtl, kIteLen, kIteGh, kMap, length_lupd, ite_self, and_self, implies_true, kept_putReads, kept_State_onPage] | split)

theorem kept_freed (s : State) : Kept (freed s) s := by
  unfold freed
  exact Kept.ite (kept_restores s) Kept.rfl'

theorem kept_settle (s : State) : Kept (settle s) s := by
  unfold settle
  dsimp only
  generalize ha : pumpUrgent (s.pages.map (fun g => g.urgQueue.length)).sum s = a
  have h1 : Kept a s := ha ▸ kept_pumpUrgent _ s
  generalize hb : pumpRing (a.pages.map (fun g => g.ring.length)).sum a = b
  have h2 : Kept b a := hb ▸ kept_pumpRing _ a
  generalize hc : freed b = c
  have h3 : Kept c b := hc ▸ kept_freed b
  exact (kept_each _ _ _ kept_beginFetch).trans (h3.trans (h2.trans h1))


theorem kept_discardLow (fn : ℕ) (s : State) : Kept (discardLow fn s) s := by
  simp only [discardLow, Kept, kIte, kIteCtl, kIteLen, kIteGh, kMap, length_lupd, ite_self, and_self, implies_true]

theorem kept_deliver (i : Instr) (s : State) : Kept (deliver i s) s := by
  simp only [deliver, Kept, kIte, kIteCtl, kIteLen, kIteGh, kMap, length_lupd, ite_self, and_self, implies_true, kept_settle, kept_each, kept_pageError, kept_urgStart, kept_State_onPage, kept_discardLow]
  repeat' (first | with_reducible rfl | simp only [Kept, kIte, kIteCtl, kIteLen, kIteGh, kMap, length_lupd, ite_self, and_self, implies_true, kept_settle, kept_each, kept_pageError, kept_urgStart, kept_State_onPage, kept_discardLow] | split)

end Sys2Proof.Machine
end

