-- ==== Sys2Proof/Laws/Arbiters.lean ====
section
/-! SUPPORT. What the operations of Machine/Arbiters.lean leave as it was (Laws/Kept.lean). -/

namespace Sys2Proof.Machine

set_option linter.unusedSimpArgs false
set_option linter.unusedVariables false

theorem kept_resetArbs (s : State) (hz : Sized s) : Kept (resetArbs s) s := ⟨rfl, rfl, rfl, rfl, rfl, hz.2.symm, rfl⟩

theorem kept_arbPosts (inst : ℕ) (posts : List (Fin 32 × ℕ)) (s : State) : Kept (arbPosts inst posts s) s := by
  simp only [arbPosts, Kept, kIte, kIteCtl, kIteLen, kIteGh, kMap, length_lupd, ite_self, and_self, implies_true, kept_each, kept_onArb]
  repeat' (first | with_reducible rfl | simp only [Kept, kIte, kIteCtl, kIteLen, kIteGh, kMap, length_lupd, ite_self, and_self, implies_true, kept_each, kept_onArb] | split)

theorem kept_arbCycle (inst : ℕ) (posts : List (Fin 32 × ℕ)) (s : State) : Kept (arbCycle inst posts s) s := by
  simp only [arbCycle, Kept, kIte, kIteCtl, kIteLen, kIteGh, kMap, length_lupd, ite_self, and_self, implies_true, kept_traceGrant, kept_onArb, kept_arbPosts]
  repeat' (first | with_reducible rfl | simp only [Kept, kIte, kIteCtl, kIteLen, kIteGh, kMap, length_lupd, ite_self, and_self, implies_true, kept_traceGrant, kept_onArb, kept_arbPosts] | split)

theorem kept_arbEvent (inst : ℕ) (posts : List (Fin 32)) (cycles : List (List (Fin 32 × ℕ))) (beats : List ℕ) (s : State) :
    Kept (arbEvent inst posts cycles beats s) s := by
  simp only [arbEvent, Kept, kIte, kIteCtl, kIteLen, kIteGh, kMap, length_lupd, ite_self, and_self, implies_true, kept_arbCycle, kept_each]

theorem kept_setMap (i : Nat) (j : Nat) (v : Nat) (s : State) : Kept (setMap i j v s) s := by
  simp only [setMap, Kept, and_self, kept_onArb]

theorem kept_setHint (i : Nat) (v : Nat) (s : State) : Kept (setHint i v s) s := by
  simp only [setHint, Kept, kIte, kIteCtl, kIteLen, kIteGh, ite_self, and_self, kept_onArb]

theorem kept_arbWindowEnd (inst : ℕ) (posts : List (Fin 32 × ℕ)) (s : State) : Kept (arbWindowEnd inst posts s) s := by
  simp only [arbWindowEnd, Kept, kIte, kIteCtl, kIteLen, kIteGh, kMap, length_lupd, ite_self, and_self, implies_true, kept_arbCycle]

theorem kept_endGrant (i : Nat) (s : State) : Kept (endGrant i s) s := by
  simp only [endGrant, Kept, and_self, kept_onArb]

theorem kept_arbClear (i : Nat) (s : State) : Kept (arbClear i s) s := by
  simp only [arbClear, Kept, and_self, kept_onArb]

theorem kept_setDepth (i : Nat) (v : Nat) (s : State) : Kept (setDepth i v s) s := by
  simp only [setDepth, Kept, kIte, kIteCtl, kIteLen, kIteGh, ite_self, and_self, kept_onArb]

theorem kept_setWindow (i : Nat) (v : Nat) (s : State) : Kept (setWindow i v s) s := by
  simp only [setWindow, Kept, and_self, kept_onArb]

theorem kept_prioCommit (i : Nat) (s : State) : Kept (prioCommit i s) s := by
  simp only [prioCommit, Kept, kIte, kIteCtl, kIteLen, kIteGh, ite_self, and_self, kept_onArb, kept_logErr]

theorem kept_setQuota (i : Nat) (k : Nat) (v : Nat) (s : State) : Kept (setQuota i k v s) s := by
  simp only [setQuota, Kept, kIte, kIteCtl, kIteLen, kIteGh, ite_self, and_self, kept_regRefused, kept_onArb]

theorem kept_debugRevoke (inst : ℕ) (beats : ℕ) (s : State) : Kept (debugRevoke inst beats s) s := by
  simp only [debugRevoke, Kept, kIte, kIteCtl, kIteLen, kIteGh, kMap, length_lupd, ite_self, and_self, implies_true, kept_arbCycle, kept_onArb]
  repeat' (first | with_reducible rfl | simp only [Kept, kIte, kIteCtl, kIteLen, kIteGh, kMap, length_lupd, ite_self, and_self, implies_true, kept_arbCycle, kept_onArb] | split)

end Sys2Proof.Machine
end

