-- ==== Sys2Proof/Laws/Work.lean ====
section
/-! SUPPORT. What the operations of Machine/Work.lean leave as it was (Laws/Kept.lean). -/

namespace Sys2Proof.Machine

set_option linter.unusedSimpArgs false
set_option linter.unusedVariables false

theorem kept_overhead (ns : Nat) (s : State) : Kept (overhead ns s) s := by
  simp only [overhead, Kept, and_self]

theorem kept_chargeSwap (b : ℕ) (c : ℕ) (ns : ℕ) (s : State) : Kept (chargeSwap b c ns s) s := by
  simp only [chargeSwap, Kept, kIte, kIteCtl, kIteLen, kIteGh, ite_self, and_self, kept_chargeRows, kept_overhead]

theorem kept_saveDone (b : ℕ) (s : State) : Kept (saveDone b s) s := by
  simp only [saveDone, Kept, kIte, kIteCtl, kIteLen, kIteGh, ite_self, and_self, kept_startRestoring]
  repeat' (first | with_reducible rfl | simp only [Kept, kIte, kIteCtl, kIteLen, kIteGh, ite_self, and_self, kept_startRestoring] | split)

theorem kept_teardownEnds (b : Nat) (c : Nat) (busy : Nat) (s : State) : Kept (teardownEnds b c busy s) s := by
  simp only [teardownEnds, Kept, kIte, kIteCtl, kIteLen, kIteGh, ite_self, and_self, kept_trace, kept_overhead,
    kept_schedule, kept_bringIn, kept_onCtx]

theorem kept_deliverItem (s : State) : Kept (deliverItem s) s := by
  simp only [deliverItem, Kept, kIte, kIteCtl, kIteLen, kIteGh, ite_self, and_self, kept_reissue, kept_onItem, kept_flagCore, kept_schedule, kept_trace, kept_onCore, kept_onDisp, kept_drainCheck]
  repeat' (first | with_reducible rfl | simp only [Kept, kIte, kIteCtl, kIteLen, kIteGh, ite_self, and_self, kept_reissue, kept_onItem, kept_flagCore, kept_schedule, kept_trace, kept_onCore, kept_onDisp, kept_drainCheck] | split)

theorem kept_layersDone (row : BitVec 13) (s : State) : Kept (layersDone row s) s := by
  simp only [layersDone, Kept, kIte, kIteCtl, kIteLen, kIteGh, and_self, kept_State_onReqH, kept_onMirror]
  repeat' (first | with_reducible rfl | simp only [Kept, kIte, kIteCtl, kIteLen, kIteGh, and_self, kept_State_onReqH, kept_onMirror] | split)

theorem kept_joinDone (c : Nat) (s : State) : Kept (joinDone c s) s := by
  simp only [joinDone, Kept, kIte, kIteCtl, kIteLen, kIteGh, ite_self, and_self, kept_schedule, kept_coreFree,
    kept_onCore]
  repeat' (first | with_reducible rfl | simp only [Kept, kIte, kIteCtl, kIteLen, kIteGh, ite_self, and_self, kept_schedule, kept_coreFree, kept_onCore] | split)

theorem kept_rearmDone (b : Nat) (busy : Nat) (s : State) : Kept (rearmDone b busy s) s := by
  simp only [rearmDone, Kept, kIte, kIteCtl, kIteLen, kIteGh, ite_self, and_self, kept_rearm, kept_chargeSwap]
  repeat' (first | with_reducible rfl | simp only [Kept, kIte, kIteCtl, kIteLen, kIteGh, ite_self, and_self, kept_rearm, kept_chargeSwap] | split)

theorem kept_stackComplete (idx : Nat) (ns : Nat) (stackBytes : Nat) (nocBytes : Nat) (s : State) : Kept
    (stackComplete idx ns stackBytes nocBytes s) s := by
  simp only [stackComplete, Kept, and_self, kept_chargeStep, kept_checkEnd, kept_progressNow]
  repeat' (first | with_reducible rfl | simp only [Kept, and_self, kept_chargeStep, kept_checkEnd, kept_progressNow] | split)

theorem kept_coreDone (c : Nat) (s : State) : Kept (coreDone c s) s := by
  simp only [coreDone, Kept, kIte, kIteCtl, kIteLen, kIteGh, ite_self, and_self, kept_coreLeft, kept_coreFree,
    kept_onCore, kept_schedule, kept_drainCheck]
  repeat' (first | with_reducible rfl | simp only [Kept, kIte, kIteCtl, kIteLen, kIteGh, ite_self, and_self, kept_coreLeft, kept_coreFree, kept_onCore, kept_schedule, kept_drainCheck] | split)

theorem kept_tilePark (c : ℕ) (s : State) : Kept (tilePark c s) s := by
  simp only [tilePark, Kept, kIte, kIteCtl, kIteLen, kIteGh, ite_self, and_self, kept_coreLeft, kept_onItem, kept_coreDone, kept_schedule, kept_onCore, kept_drainCheck, kept_orphanGone]
  repeat' (first | with_reducible rfl | simp only [Kept, kIte, kIteCtl, kIteLen, kIteGh, ite_self, and_self, kept_coreLeft, kept_onItem, kept_coreDone, kept_schedule, kept_onCore, kept_drainCheck, kept_orphanGone] | split)

theorem kept_itemComplete (c : ℕ) (busy : ℕ) (s : State) : Kept (itemComplete c busy s) s := by
  simp only [itemComplete, Kept, kIte, kIteCtl, kIteLen, kIteGh, ite_self, and_self, implies_true, kept_releaseAll, kept_each, kept_onItem, kept_coreDone, kept_checkEnd, kept_onCore, kept_layersDone, kept_orphanGone]
  repeat' (first | with_reducible rfl | simp only [Kept, kIte, kIteCtl, kIteLen, kIteGh, ite_self, and_self, implies_true, kept_releaseAll, kept_each, kept_onItem, kept_coreDone, kept_checkEnd, kept_onCore, kept_layersDone, kept_orphanGone] | split)

end Sys2Proof.Machine
end

