-- ==== Sys2Proof/Laws/Tether.lean ====
section
/-! SUPPORT. What the operations of Machine/Tether.lean leave as it was (Laws/Kept.lean). -/

namespace Sys2Proof.Machine

set_option linter.unusedSimpArgs false
set_option linter.unusedVariables false

theorem kept_putFrame (f : FrameOut) (s : State) : Kept (putFrame f s) s := by
  simp only [putFrame, Kept, and_self]

theorem kept_lockRegained (s : State) : Kept (lockRegained s) s := by
  simp only [lockRegained, Kept, kIte, kIteCtl, kIteLen, kIteGh, ite_self, and_self, kept_onTeth, kept_sendFrame]

theorem kept_onStat (member : Nat) (f : MemStat) (s : State) : Kept (onStat member f s) s := by
  simp only [onStat, Kept, and_self, kept_onTeth]

theorem kept_crcCount (f : FrameOut) (s : State) : Kept (crcCount f s) s := by
  simp only [crcCount, Kept, and_self, kept_onTeth]

theorem kept_dropOwn (o : OwnFrame) (s : State) : Kept (dropOwn o s) s := by
  simp only [dropOwn, Kept, and_self, kept_onTeth]

theorem kept_profileIn (tenant : Nat) (f : ProfileF) (bias : List Bias) (s : State) : Kept (profileIn tenant f bias
    s) s := by
  simp only [profileIn, Kept, and_self, kept_onTeth]

theorem kept_mirrorOne (h : U32) (s : State) : Kept (mirrorOne h s) s := by
  simp only [mirrorOne, Kept, kIte, kIteCtl, kIteLen, kIteGh, kMap, length_lupd, ite_self, and_self, implies_true, kept_setRef, kept_onMirror, kept_freeBlock]
  repeat' (first | with_reducible rfl | simp only [Kept, kIte, kIteCtl, kIteLen, kIteGh, kMap, length_lupd, ite_self, and_self, implies_true, kept_setRef, kept_onMirror, kept_freeBlock] | split)

theorem kept_mirrorChunk (num : U64) (row : BitVec 13) (first : BitVec 24) (len : U32) (bound : Bool) (flow : BitVec
    12) (s : State) : Kept (mirrorChunk num row first len bound flow s) s := by
  simp only [mirrorChunk, Kept, and_self, kept_onDisp, kept_onMirror]
  repeat' (first | with_reducible rfl | simp only [Kept, and_self, kept_onDisp, kept_onMirror] | split)

theorem kept_rollAgain (s : State) : Kept (rollAgain s) s := by
  simp only [rollAgain, Kept, kIte, kIteCtl, kIteLen, kIteGh, ite_self, and_self, kept_callRoll]

theorem kept_slowIn (m : FrameMeta) (hot : BitVec 12) (ballast : BitVec 4) (s : State) : Kept (slowIn m hot ballast
    s) s := by
  simp only [slowIn, Kept, kIte, kIteCtl, kIteLen, kIteGh, and_self, kept_onTeth, kept_onStat]
  repeat' (first | with_reducible rfl | simp only [Kept, kIte, kIteCtl, kIteLen, kIteGh, and_self, kept_onTeth, kept_onStat] | split)

theorem kept_followRows (es : List ManEntry) (works : List Mirror) (s : State) : Kept (followRows es works s) s := by
  simp only [followRows, Kept, kIte, kIteCtl, kIteLen, kIteGh, ite_self, and_self, kept_openManifest]

theorem kept_mirrorCommit (e : CommitE) (s : State) : Kept (mirrorCommit e s) s := by
  simp only [mirrorCommit, Kept, kIte, kIteCtl, kIteLen, kIteGh, ite_self, and_self, kept_onMirror]
  repeat' (first | with_reducible rfl | simp only [Kept, kIte, kIteCtl, kIteLen, kIteGh, ite_self, and_self, kept_onMirror] | split)

theorem kept_dropMirror (h : U32) (s : State) : Kept (dropMirror h s) s := by
  simp (disch := (intros; repeat' (first | with_reducible rfl | simp only [Kept, kIte, kIteCtl, kIteLen, kIteGh, kMap, length_lupd, ite_self, and_self, implies_true, kept_onMoves, kept_onTeth, kept_each, kept_freeRun, kept_gleanGrafts, kept_freeBlock, kept_dropRef] | split))) only [dropMirror, Kept, kIte, kIteCtl, kIteLen, kIteGh, kMap, length_lupd, ite_self, and_self, implies_true, kept_onMoves, kept_onTeth, kept_each, kept_freeRun, kept_gleanGrafts, kept_freeBlock, kept_dropRef]
  repeat' (first | with_reducible rfl | simp (disch := (intros; repeat' (first | with_reducible rfl | simp only [Kept, kIte, kIteCtl, kIteLen, kIteGh, kMap, length_lupd, ite_self, and_self, implies_true, kept_onMoves, kept_onTeth, kept_each, kept_freeRun, kept_gleanGrafts, kept_freeBlock, kept_dropRef] | split))) only [Kept, kIte, kIteCtl, kIteLen, kIteGh, kMap, length_lupd, ite_self, and_self, implies_true, kept_onMoves, kept_onTeth, kept_each, kept_freeRun, kept_gleanGrafts, kept_freeBlock, kept_dropRef] | split)

theorem kept_closeMirrors (es : List ManEntry) (s : State) : Kept (closeMirrors es s) s := by
  simp (disch := (intros; repeat' (first | with_reducible rfl | simp only [Kept, kIte, kIteCtl, kIteLen, kIteGh, kMap, length_lupd, ite_self, and_self, implies_true, kept_each, kept_onDisp, kept_onMirror] | split))) only [closeMirrors, Kept, kIte, kIteCtl, kIteLen, kIteGh, kMap, length_lupd, ite_self, and_self, implies_true, kept_each, kept_onDisp, kept_onMirror]
  repeat' (first | with_reducible rfl | simp (disch := (intros; repeat' (first | with_reducible rfl | simp only [Kept, kIte, kIteCtl, kIteLen, kIteGh, kMap, length_lupd, ite_self, and_self, implies_true, kept_each, kept_onDisp, kept_onMirror] | split))) only [Kept, kIte, kIteCtl, kIteLen, kIteGh, kMap, length_lupd, ite_self, and_self, implies_true, kept_each, kept_onDisp, kept_onMirror] | split)

theorem kept_statusIn (m : FrameMeta) (e : StatusE) (s : State) : Kept (statusIn m e s) s := by
  simp (disch := (intros; repeat' (first | with_reducible rfl | simp only [Kept, kIte, kIteCtl, kIteLen, kIteGh, kMap, length_lupd, ite_self, and_self, implies_true, kept_onStat, kept_onTeth, kept_each, kept_restoreEnd, kept_estReady] | split))) only [statusIn, Kept, kIte, kIteCtl, kIteLen, kIteGh, kMap, length_lupd, ite_self, and_self, implies_true, kept_onStat, kept_onTeth, kept_each, kept_restoreEnd, kept_estReady]
  repeat' (first | with_reducible rfl | simp (disch := (intros; repeat' (first | with_reducible rfl | simp only [Kept, kIte, kIteCtl, kIteLen, kIteGh, kMap, length_lupd, ite_self, and_self, implies_true, kept_onStat, kept_onTeth, kept_each, kept_restoreEnd, kept_estReady] | split))) only [Kept, kIte, kIteCtl, kIteLen, kIteGh, kMap, length_lupd, ite_self, and_self, implies_true, kept_onStat, kept_onTeth, kept_each, kept_restoreEnd, kept_estReady] | split)

theorem kept_mirrorCover (a0 : U32) (pos : Nat) (s : State) : Kept (mirrorCover a0 pos s) s := by
  simp only [mirrorCover, Kept, and_self, implies_true, kept_each, kept_mirrorOne]
  repeat' (first | with_reducible rfl | simp only [Kept, and_self, implies_true, kept_each, kept_mirrorOne] | split)

theorem kept_applyStrikes (es : List TokenE) (s : State) : Kept (applyStrikes es s) s := by
  simp only [applyStrikes, Kept, kIte, kIteCtl, kIteLen, kIteGh, kMap, length_lupd, ite_self, and_self, implies_true, kept_onPRow, kept_each, kept_discardRows, kept_schedule, kept_onMirror, kept_closeRow]

theorem kept_replayRow (a0 : U32) (s : State) : Kept (replayRow a0 s) s := by
  simp only [replayRow, Kept, kIte, kIteCtl, kIteLen, kIteGh, ite_self, and_self, kept_dropChunk, kept_State_onReqH]
  repeat' (first | with_reducible rfl | simp only [Kept, kIte, kIteCtl, kIteLen, kIteGh, ite_self, and_self, kept_dropChunk, kept_State_onReqH] | split)

theorem kept_takeStrikes (num : U64) (s : State) : Kept (takeStrikes num s) s := by
  simp only [takeStrikes, Kept, and_self, kept_applyStrikes, kept_onTeth]

theorem kept_rollcallFollow (m : FrameMeta) (modelId : U64) (present : List ℕ) (intact : List ℕ) (s : State) : Kept (rollcallFollow m modelId present intact s) s := by
  simp only [rollcallFollow, Kept, kIte, kIteCtl, kIteLen, kIteGh, kMap, length_lupd, ite_self, and_self, implies_true, kept_onTeth, kept_each, kept_putFrame, kept_dropMirror, kept_dropUnfinished]

theorem kept_ownReturned (kind : U8) (step : U64) (part : BitVec 15) (stomp : Bool) (s : State) : Kept (ownReturned
    kind step part stomp s) s := by
  simp only [ownReturned, Kept, kIte, kIteCtl, kIteLen, kIteGh, ite_self, and_self, kept_dropOwn, kept_holdGroup,
    kept_onTeth, kept_putFrame]
  repeat' (first | with_reducible rfl | simp only [Kept, kIte, kIteCtl, kIteLen, kIteGh, ite_self, and_self, kept_dropOwn, kept_holdGroup, kept_onTeth, kept_putFrame] | split)

theorem kept_frameIn (f : FrameOut) (act : State → State) (s : State) (h : ∀ s, Kept (act s) s) :
    Kept (frameIn f act s) s := by
  simp only [frameIn, Kept, kIte, kIteCtl, kIteLen, kIteGh, h, kept_crcCount, kept_putFrame, kept_onTeth, kept_ownReturned,
    ite_self, and_self]

theorem kept_breakIn (s : State) : Kept (breakIn s) s := by
  simp only [breakIn, Kept, and_self, kept_holdGroup]

theorem kept_frameLost (kind : U8) (step : U64) (part : BitVec 15) (s : State) : Kept (frameLost kind step part s) s
    := by
  simp only [frameLost, Kept, kIte, kIteCtl, kIteLen, kIteGh, ite_self, and_self, kept_holdGroup, kept_dropOwn]
  repeat' (first | with_reducible rfl | simp only [Kept, kIte, kIteCtl, kIteLen, kIteGh, ite_self, and_self, kept_holdGroup, kept_dropOwn] | split)

theorem kept_lockLost (s : State) : Kept (lockLost s) s := by
  simp only [lockLost, Kept, kIte, kIteCtl, kIteLen, kIteGh, ite_self, and_self, kept_holdGroup, kept_onTeth]

theorem kept_mirrorJoin (e : JoinE) (s : State) : Kept (mirrorJoin e s) s := by
  simp only [mirrorJoin, Kept, kIte, kIteCtl, kIteLen, kIteGh, kMap, length_lupd, ite_self, and_self, implies_true, kept_restores, kept_onTeth, kept_onMirror]
  repeat' (first | with_reducible rfl | simp only [Kept, kIte, kIteCtl, kIteLen, kIteGh, kMap, length_lupd, ite_self, and_self, implies_true, kept_restores, kept_onTeth, kept_onMirror] | split)

theorem kept_mirrorLeave (row : BitVec 13) (keep : Bool) (spill : Bool) (s : State) : Kept (mirrorLeave row keep
    spill s) s := by
  simp only [mirrorLeave, Kept, kIte, kIteCtl, kIteLen, kIteGh, ite_self, and_self, kept_onMirror, kept_pumpMoves,
    kept_queueSpill, kept_dropMirror]
  repeat' (first | with_reducible rfl | simp only [Kept, kIte, kIteCtl, kIteLen, kIteGh, ite_self, and_self, kept_onMirror, kept_pumpMoves, kept_queueSpill, kept_dropMirror] | split)

theorem kept_applyEntry (num : U64) (a : State × Option (BitVec 13 × U32)) (e : ManEntry) :
    Kept (applyEntry num a e).1 a.1 := by
  simp only [applyEntry]
  repeat' split
  all_goals first
    | exact Kept.rfl'
    | exact kept_mirrorJoin ..
    | exact kept_mirrorLeave ..
    | exact kept_onMirror ..
    | exact kept_mirrorChunk ..
    | exact kept_mirrorCover ..
    | exact (kept_gleanGrafts ..).trans (kept_onMirror ..)

theorem kept_applyEntries (num : U64) (es : List ManEntry) (s : State) : Kept (applyEntries num es s) s :=
  kept_foldl (fun a : State × Option (BitVec 13 × U32) => a.1) (applyEntry num) (kept_applyEntry num) es (s, none)

theorem kept_applyFull (step : U64) (es : List ManEntry) (s : State) : Kept (applyFull step es s) s := by
  simp only [applyFull, Kept, and_self, implies_true, kept_each, kept_dropMirror, kept_onTeth, kept_applyEntries]

theorem kept_takeFull (s : State) : Kept (takeFull s) s := by
  simp only [takeFull, Kept, kIte, kIteCtl, kIteLen, kIteGh, kMap, length_lupd, ite_self, and_self, implies_true, kept_applyFull]
  repeat' (first | with_reducible rfl | simp only [Kept, kIte, kIteCtl, kIteLen, kIteGh, kMap, length_lupd, ite_self, and_self, implies_true, kept_applyFull] | split)

theorem kept_manifestIn (m : FrameMeta) (es : List ManEntry) (s : State) : Kept (manifestIn m es s) s := by
  simp only [manifestIn, Kept, kIte, kIteCtl, kIteLen, kIteGh, kMap, length_lupd, ite_self, and_self, implies_true, kept_onTeth, kept_takeFull]

theorem kept_freshStops (s : State) : Kept (freshStops s) s := by
  simp only [freshStops, Kept, kIte, kIteCtl, kIteLen, kIteGh, kMap, length_lupd, ite_self, and_self, implies_true, kept_onTeth]

theorem kept_followBegin (num : U64) (es : List ManEntry) (s : State) : Kept (followBegin num es s) s := by
  simp only [followBegin, Kept, and_self, kept_takeStrikes, kept_composeCommon, kept_onTeth, kept_closeMirrors, kept_freshStops, kept_followRows, kept_applyEntries, kept_composeAfter, kept_State_onSlot, kept_putArgs]

theorem kept_abandonGroup (s : State) : Kept (abandonGroup s) s := by
  simp only [abandonGroup, Kept, kIte, kIteCtl, kIteLen, kIteGh, ite_self, and_self, kept_endAll, kept_logErr,
    kept_onTeth]

theorem kept_followSeal (s : State) : Kept (followSeal s) s := by
  simp only [followSeal, Kept, and_self, kept_followBegin]
  repeat' (first | with_reducible rfl | simp only [Kept, and_self, kept_followBegin] | split)

theorem kept_leaderCommit (step : U64) (e : CommitE) (s : State) : Kept (leaderCommit step e s) s := by
  simp only [leaderCommit, Kept, kIte, kIteCtl, kIteLen, kIteGh, ite_self, and_self, kept_onPRow, kept_teardownReq]
  repeat' (first | with_reducible rfl | simp only [Kept, kIte, kIteCtl, kIteLen, kIteGh, ite_self, and_self, kept_onPRow, kept_teardownReq] | split)

theorem kept_formGroup (intact : List Nat) (s : State) : Kept (formGroup intact s) s := by
  simp only [formGroup, Kept, kIte, kIteCtl, kIteLen, kIteGh, ite_self, and_self, implies_true, kept_sealNoStep,
    kept_sendFrame, kept_each, kept_replayRow, kept_State_onReqH, kept_onTeth]

theorem kept_tokensIn (m : FrameMeta) (es : List CommitE) (s : State) : Kept (tokensIn m es s) s := by
  simp only [tokensIn, Kept, kIte, kIteCtl, kIteLen, kIteGh, ite_self, and_self, implies_true, kept_checkEnd,
    kept_each, kept_leaderCommit, kept_mirrorCommit]

theorem kept_rollcallIn (m : FrameMeta) (modelId : U64) (present : List ℕ) (intact : List ℕ) (s : State) : Kept (rollcallIn m modelId present intact s) s := by
  simp only [rollcallIn, Kept, kIte, kIteCtl, kIteLen, kIteGh, ite_self, and_self, kept_onTeth, kept_putFrame, kept_formGroup, kept_rollcallFollow, kept_crcCount, kept_ownReturned]

theorem kept_stepTokenIn (m : FrameMeta) (es : List TokenE) (s : State) : Kept (stepTokenIn m es s) s := by
  simp only [stepTokenIn, Kept, kIte, kIteCtl, kIteLen, kIteGh, ite_self, and_self, kept_onTeth, kept_checkEnd,
    kept_finaliseReady, kept_applyStrikes]
  repeat' (first | with_reducible rfl | simp only [Kept, kIte, kIteCtl, kIteLen, kIteGh, ite_self, and_self, kept_onTeth, kept_checkEnd, kept_finaliseReady, kept_applyStrikes] | split)

theorem kept_sealMember (s : State) : Kept (sealMember s) s := by
  simp only [sealMember, Kept, kIte, kIteCtl, kIteLen, kIteGh, ite_self, and_self, kept_followSeal, kept_sealOp]

theorem kept_collsOver (s : State) : Kept (collsOver s) s := by
  simp only [collsOver, Kept, kIte, kIteCtl, kIteLen, kIteGh, kMap, length_lupd, ite_self, and_self, implies_true, kept_dropWork, kept_takeFull]

theorem kept_collComplete (s : State) : Kept (collComplete s) s := by
  simp only [collComplete, Kept, kIte, kIteCtl, kIteLen, kIteGh, kMap, length_lupd, ite_self, and_self, implies_true, kept_collsOver, kept_progressNow, kept_checkEnd]
  repeat' (first | with_reducible rfl | simp only [Kept, kIte, kIteCtl, kIteLen, kIteGh, kMap, length_lupd, ite_self, and_self, implies_true, kept_collsOver, kept_progressNow, kept_checkEnd] | split)

end Sys2Proof.Machine
end

