-- ==== Sys2Proof/Laws/Power.lean ====
section
/-! SUPPORT. What the operations of Machine/Power.lean leave as it was (Laws/Kept.lean). -/

namespace Sys2Proof.Machine

set_option linter.unusedSimpArgs false
set_option linter.unusedVariables false

theorem kept_onPwr (f : Pwr → Pwr) (s : State) : Kept (onPwr f s) s := by
  simp only [onPwr, Kept, and_self]

theorem kept_coolMarks (s : State) : Kept (coolMarks s) s := by
  simp only [coolMarks, Kept, and_self, kept_onPwr]

theorem kept_thermalUpdate (s : State) : Kept (thermalUpdate s) s := by
  simp only [thermalUpdate, Kept, kIte, kIteCtl, kIteLen, kIteGh, ite_self, and_self, kept_onPwr, kept_coolMarks]

theorem kept_droop (i : Nat) (s : State) : Kept (droop i s) s := by
  simp only [droop, Kept, and_self, kept_onPwr]

theorem kept_slowStep (l : Nat) (s : State) : Kept (slowStep l s) s := by
  simp only [slowStep, Kept, kIte, ite_self, and_self, kept_sendSlow]

theorem kept_onNode (i : Nat) (f : PNode → PNode) (s : State) : Kept (onNode i f s) s := by
  simp only [onNode, Kept, and_self, kept_onPwr]

theorem kept_sensorRead (i : Nat) (s : State) : Kept (sensorRead i s) s := by
  simp only [sensorRead, Kept, kIte, kIteCtl, kIteLen, kIteGh, ite_self, and_self, kept_askSensor, kept_onPwr]

theorem kept_modelStart (s : State) : Kept (modelStart s) s := by
  simp only [modelStart, Kept, and_self, implies_true, kept_each, kept_askSensor, kept_onPwr]

theorem kept_setStep (l : Nat) (b : BitVec 4) (s : State) : Kept (setStep l b s) s := by
  simp only [setStep, Kept, and_self, kept_vecEvent, kept_onPwr]

theorem kept_flagged (op : State → State) (s : State) (h : ∀ s, Kept (op s) s) : Kept (flagged op s) s := by
  simp only [flagged, Kept, kIte, kIteCtl, kIteLen, kIteGh, h, kept_vecEvent, ite_self, and_self]

theorem kept_setTherm (v : U64) (s : State) : Kept (setTherm v s) s := by
  simp only [setTherm, Kept, kIte, kIteCtl, kIteLen, kIteGh, ite_self, and_self, kept_onPwr, kept_regRefused]

theorem kept_powerSample (p : Sample) (s : State) : Kept (powerSample p s) s := by
  simp only [powerSample, Kept, kIte, ite_self, and_self, implies_true, kept_flagged, kept_onPwr]

theorem kept_ladderMove (l : Nat) (s : State) : Kept (ladderMove l s) s := by
  simp only [ladderMove, Kept, kIte, kIteCtl, kIteLen, kIteGh, ite_self, and_self, kept_slowStep, kept_setStep]

theorem kept_setPwr (v : U32) (s : State) : Kept (setPwr v s) s := by
  simp only [setPwr, Kept, kIte, kIteCtl, kIteLen, kIteGh, ite_self, and_self, kept_onPwr, kept_regRefused]

theorem kept_samplesSilent (s : State) : Kept (samplesSilent s) s := by
  simp only [samplesSilent, Kept, kIte, kIteCtl, kIteLen, kIteGh, ite_self, and_self, implies_true, kept_flagged,
    kept_onPwr]

theorem kept_stackRead (k : Nat) (v : U8) (s : State) : Kept (stackRead k v s) s := by
  simp only [stackRead, Kept, and_self, kept_State_onPage, kept_finish]

theorem kept_sensorTimeout (i : Nat) (s : State) : Kept (sensorTimeout i s) s := by
  simp only [sensorTimeout, Kept, kIte, kIteCtl, kIteLen, kIteGh, ite_self, and_self, implies_true, kept_flagged,
    kept_onNode, kept_stackRead]
  repeat' (first | with_reducible rfl | simp only [Kept, kIte, kIteCtl, kIteLen, kIteGh, ite_self, and_self, implies_true, kept_flagged, kept_onNode, kept_stackRead] | split)

theorem kept_sensorAnswer (i : Nat) (t : U16) (s : State) : Kept (sensorAnswer i t s) s := by
  simp only [sensorAnswer, Kept, kIte, kIteCtl, kIteLen, kIteGh, ite_self, and_self, implies_true, kept_flagged,
    kept_onNode, kept_stackRead]

end Sys2Proof.Machine
end

