-- ==== Sys2Proof/Laws/Faults.lean ====
section
/-! SUPPORT. What the operations of Machine/Faults.lean leave as it was (Laws/Kept.lean). -/

namespace Sys2Proof.Machine

set_option linter.unusedSimpArgs false
set_option linter.unusedVariables false

theorem kept_onWdog (f : Wdog → Wdog) (s : State) : Kept (onWdog f s) s := by
  simp only [onWdog, Kept, and_self]

theorem kept_retireFrame (p : Nat) (s : State) : Kept (retireFrame p s) s := by
  simp only [retireFrame, Kept, and_self, kept_onWdog]

theorem kept_setLast (code : Nat) (s : State) : Kept (setLast code s) s := by
  simp only [setLast, Kept, and_self, kept_onWdog]

theorem kept_resetLedg (s : State) : Kept (resetLedg s) s := by
  simp only [resetLedg, Kept, and_self, kept_onPwr]

theorem kept_keepFrame (p : Nat) (s : State) : Kept (keepFrame p s) s := by
  simp only [keepFrame, Kept, and_self, kept_onWdog]

theorem kept_clearNode (n : Nat) (s : State) : Kept (clearNode n s) s := by
  simp only [clearNode, Kept, and_self, kept_lessChild, kept_delNode]
  repeat' (first | with_reducible rfl | simp only [Kept, and_self, kept_lessChild, kept_delNode] | split)

theorem kept_withdraw (hs : List U32) (s : State) : Kept (withdraw hs s) s := by
  simp only [withdraw, Kept, and_self, implies_true, kept_discardRows, kept_checkEnd, kept_schedule, kept_each,
    kept_closeRow]

theorem kept_resetDisp (s : State) : Kept (resetDisp s) s := by
  simp only [resetDisp, Kept, and_self, implies_true, kept_removeItems, kept_each, kept_dropChunk, kept_onDisp,
    kept_onTeth, kept_withdraw]

theorem kept_gdnRestart (c : Nat) (s : State) : Kept (gdnRestart c s) s := by
  simp only [gdnRestart, Kept, kIte, kIteCtl, kIteLen, kIteGh, ite_self, and_self, kept_onWdog, kept_vecEvent,
    kept_logErr]

theorem kept_dropLayout (s : State) : Kept (dropLayout s) s := by
  simp (disch := (intros; repeat' (first | with_reducible rfl | simp only [Kept, kIte, kIteCtl, kIteLen, kIteGh, kMap, length_lupd, ite_self, and_self, implies_true, kept_each, kept_cutTable, kept_State_onReqH, kept_dropRef] | split))) only [dropLayout, Kept, kIte, kIteCtl, kIteLen, kIteGh, kMap, length_lupd, ite_self, and_self, implies_true, kept_each, kept_cutTable, kept_State_onReqH, kept_dropRef]
  repeat' (first | with_reducible rfl | simp (disch := (intros; repeat' (first | with_reducible rfl | simp only [Kept, kIte, kIteCtl, kIteLen, kIteGh, kMap, length_lupd, ite_self, and_self, implies_true, kept_each, kept_cutTable, kept_State_onReqH, kept_dropRef] | split))) only [Kept, kIte, kIteCtl, kIteLen, kIteGh, kMap, length_lupd, ite_self, and_self, implies_true, kept_each, kept_cutTable, kept_State_onReqH, kept_dropRef] | split)

theorem kept_gdnOut (c : Nat) (s : State) : Kept (gdnOut c s) s := by
  simp only [gdnOut, Kept, kIte, kIteCtl, kIteLen, kIteGh, ite_self, and_self, implies_true, kept_onWdog,
    kept_vecEvent, kept_logErr, kept_fatal, kept_each, kept_State_onPage]

theorem kept_reattach (c : ℕ) (s : State) : Kept (reattach c s) s := by
  simp only [reattach, Kept, kIte, kIteCtl, kIteLen, kIteGh, kMap, length_lupd, ite_self, and_self, implies_true, kept_each, kept_putReads, kept_drainCq]

theorem kept_gdnReattach (c : ℕ) (verified : Bool) (s : State) : Kept (gdnReattach c verified s) s := by
  simp only [gdnReattach, Kept, kIte, kIteCtl, kIteLen, kIteGh, ite_self, and_self, kept_fatal, kept_reattach, kept_onWdog]

theorem kept_traceRefused (addr : Nat) (s : State) : Kept (traceRefused addr s) s := by
  simp only [traceRefused, Kept, kIte, kIteCtl, kIteLen, kIteGh, ite_self, and_self, kept_hostFault]

theorem kept_coldRefused (a0 : U32) (addr : Nat) (pooled : Bool) (s : State) : Kept (coldRefused a0 addr pooled s) s
    := by
  simp only [coldRefused, Kept, kIte, kIteCtl, kIteLen, kIteGh, ite_self, and_self, kept_logErr, kept_hostFault]

theorem kept_teardownNamed (b : Nat) (c : Nat) (s : State) : Kept (teardownNamed b c s) s := by
  simp only [teardownNamed, Kept, kIte, kIteCtl, kIteLen, kIteGh, ite_self, and_self, kept_checkEnd, kept_teardownBed]

theorem kept_ringFault (p : Nat) (addr : Nat) (s : State) : Kept (ringFault p addr s) s := by
  simp only [ringFault, Kept, kIte, kIteCtl, kIteLen, kIteGh, ite_self, and_self, kept_State_onPage, kept_hostFault,
    kept_pageError]

theorem kept_fenceHung (c : Nat) (s : State) : Kept (fenceHung c s) s := by
  simp only [fenceHung, Kept, and_self, kept_fenceCore, kept_setLast, kept_logErr]

theorem kept_atomicWrite (addr : Nat) (core : Bool) (unit : Nat) (b : Nat) (c : Nat) (s : State) : Kept (atomicWrite
    addr core unit b c s) s := by
  simp only [atomicWrite, Kept, kIte, kIteCtl, kIteLen, kIteGh, ite_self, and_self, kept_teardownNamed, kept_logErr]

theorem kept_promptRefused (hd : U32) (addr : ℕ) (s : State) : Kept (promptRefused hd addr s) s := by
  simp only [promptRefused, Kept, kIte, kIteCtl, kIteLen, kIteGh, ite_self, and_self, kept_finish, kept_putReads, kept_freeReq, kept_hostFault]
  repeat' (first | with_reducible rfl | simp only [Kept, kIte, kIteCtl, kIteLen, kIteGh, ite_self, and_self, kept_finish, kept_putReads, kept_freeReq, kept_hostFault] | split)

theorem kept_extendRefused (hd : U32) (addr : ℕ) (s : State) : Kept (extendRefused hd addr s) s := by
  simp only [extendRefused, Kept, and_self, kept_finish, kept_chargeReq, kept_putReads, kept_hostFault]
  repeat' (first | with_reducible rfl | simp only [Kept, and_self, kept_finish, kept_chargeReq, kept_putReads, kept_hostFault] | split)

theorem kept_resetPrune (s : State) : Kept (resetPrune s) s := by
  simp only [resetPrune, Kept, and_self, implies_true, kept_finish, kept_each, kept_onPrn, kept_withdraw]

theorem kept_reissueMoves (s : State) : Kept (reissueMoves s) s := by
  simp (disch := (intros; repeat' (first | with_reducible rfl | simp only [Kept, and_self, kept_moveCopy] | split))) only [reissueMoves, Kept, and_self, implies_true, kept_each]

theorem kept_reissueWrites (s : State) : Kept (reissueWrites s) s := by
  simp only [reissueWrites, Kept, kIte, kIteCtl, kIteLen, kIteGh, kMap, length_lupd, ite_self, and_self, implies_true, kept_onArb]

theorem kept_islandEffect (i : ℕ) (s : State) : Kept (islandEffect i s) s := by
  simp only [islandEffect, Kept, and_self, kept_resetPrune, kept_lockLost, kept_resetLedg, kept_reissueMoves, kept_onSeed, kept_reissueWrites, kept_dropLayout, kept_resetDisp, kept_withdraw]
  repeat' (first | with_reducible rfl | simp only [Kept, and_self, kept_resetPrune, kept_lockLost, kept_resetLedg, kept_reissueMoves, kept_onSeed, kept_reissueWrites, kept_dropLayout, kept_resetDisp, kept_withdraw] | split)

theorem kept_spillMoveFail (m : Move) (poisoned : Bool) (s : State) : Kept (spillMoveFail m poisoned s) s := by
  simp only [spillMoveFail, Kept, and_self, kept_restores, kept_pumpMoves, kept_spillFail, kept_flushDone]

theorem kept_retirePlot (p : ℕ) (s : State) : Kept (retirePlot p s) s := by
  simp (disch := (intros; repeat' (first | with_reducible rfl | simp only [Kept, kIte, kIteCtl, kIteLen, kIteGh, kMap, length_lupd, ite_self, and_self, implies_true, kept_each, kept_retireFrame, kept_clearNode, kept_dropRef] | split))) only [retirePlot, Kept, kIte, kIteCtl, kIteLen, kIteGh, kMap, length_lupd, ite_self, and_self, implies_true, kept_each, kept_retireFrame, kept_clearNode, kept_dropRef]
  repeat' (first | with_reducible rfl | simp (disch := (intros; repeat' (first | with_reducible rfl | simp only [Kept, kIte, kIteCtl, kIteLen, kIteGh, kMap, length_lupd, ite_self, and_self, implies_true, kept_each, kept_retireFrame, kept_clearNode, kept_dropRef] | split))) only [Kept, kIte, kIteCtl, kIteLen, kIteGh, kMap, length_lupd, ite_self, and_self, implies_true, kept_each, kept_retireFrame, kept_clearNode, kept_dropRef] | split)

theorem kept_spillMoveDone (slot : ℕ) (plot : ℕ) (poisoned : Bool) (s : State) : Kept (spillMoveDone slot plot poisoned s) s := by
  simp only [spillMoveDone, Kept, kIte, kIteCtl, kIteLen, kIteGh, ite_self, and_self, kept_restores, kept_logErr, kept_pumpMoves, kept_spillMoveFail, kept_spillDone, kept_retirePlot, kept_flushDone]
  repeat' (first | with_reducible rfl | simp only [Kept, kIte, kIteCtl, kIteLen, kIteGh, ite_self, and_self, kept_restores, kept_logErr, kept_pumpMoves, kept_spillMoveFail, kept_spillDone, kept_retirePlot, kept_flushDone] | split)

theorem kept_islandReset (i : Nat) (code : Nat) (bite : Bool) (s : State) : Kept (islandReset i code bite s) s := by
  simp only [islandReset, Kept, kIte, kIteCtl, kIteLen, kIteGh, ite_self, and_self, kept_fatal, kept_vecEvent,
    kept_logErr, kept_onWdog, kept_gdnRestart, kept_islandEffect, kept_forceHold]

theorem kept_restoreMoveDone (slot : Nat) (plot : Nat) (poisoned : Bool) (s : State) : Kept (restoreMoveDone slot
    plot poisoned s) s := by
  simp only [restoreMoveDone, Kept, kIte, kIteCtl, kIteLen, kIteGh, ite_self, and_self, kept_coldRefused,
    kept_restores, kept_pumpMoves, kept_restoreFail, kept_restoreDone]
  repeat' (first | with_reducible rfl | simp only [Kept, kIte, kIteCtl, kIteLen, kIteGh, ite_self, and_self, kept_coldRefused, kept_restores, kept_pumpMoves, kept_restoreFail, kept_restoreDone] | split)

theorem kept_gardenerUe (c : Nat) (s : State) : Kept (gardenerUe c s) s := by
  simp only [gardenerUe, Kept, and_self, kept_gdnRestart, kept_logErr]

theorem kept_tearContext (row : BitVec 13) (torn : Option U32) (s : State) : Kept (tearContext row torn s) s := by
  simp only [tearContext, Kept, kIte, kIteCtl, kIteLen, kIteGh, and_self, kept_teardownMirror, kept_teardownReq, kept_checkEnd, kept_closeRow]
  repeat' (first | with_reducible rfl | simp only [Kept, kIte, kIteCtl, kIteLen, kIteGh, and_self, kept_teardownMirror, kept_teardownReq, kept_checkEnd, kept_closeRow] | split)

theorem kept_coreFault (f : CoreFault) (s : State) : Kept (coreFault f s) s := by
  simp only [coreFault, Kept, kIte, kIteCtl, kIteLen, kIteGh, and_self, kept_logErr, kept_teardownNamed, kept_tearContext, kept_islandReset]
  repeat' (first | with_reducible rfl | simp only [Kept, kIte, kIteCtl, kIteLen, kIteGh, and_self, kept_logErr, kept_teardownNamed, kept_tearContext, kept_islandReset] | split)

theorem kept_listMissing (p : PRow) (s : State) : Kept (listMissing p s) s := by
  simp only [listMissing, Kept, and_self, kept_teardownReq, kept_closeRow, kept_setLast, kept_logErr]

theorem kept_poisonPlot (p : ℕ) (h : U32) (s : State) : Kept (poisonPlot p h s) s := by
  simp only [poisonPlot, Kept, kIte, kIteCtl, kIteLen, kIteGh, ite_self, and_self, kept_forceHold, kept_onTeth, kept_retirePlot, kept_tearRow]

theorem kept_spoolBroken (t : ℕ) (k : ℕ) (addr : ℕ) (s : State) : Kept (spoolBroken t k addr s) s := by
  simp only [spoolBroken, Kept, kIte, kIteCtl, kIteLen, kIteGh, ite_self, and_self, kept_endCause, kept_onSpool, kept_tailGone, kept_pageError, kept_freeReq, kept_State_onReqH, kept_hostFault]
  repeat' (first | with_reducible rfl | simp only [Kept, kIte, kIteCtl, kIteLen, kIteGh, ite_self, and_self, kept_endCause, kept_onSpool, kept_tailGone, kept_pageError, kept_freeReq, kept_State_onReqH, kept_hostFault] | split)

theorem kept_sramUe (a : SramAt) (s : State) : Kept (sramUe a s) s := by
  simp only [sramUe, Kept, kIte, kIteCtl, kIteLen, kIteGh, ite_self, and_self, implies_true, kept_logErr, kept_endCause, kept_each, kept_fatal, kept_onSeed, kept_gardenerUe, kept_tearContext, kept_islandReset]
  repeat' (first | with_reducible rfl | simp only [Kept, kIte, kIteCtl, kIteLen, kIteGh, ite_self, and_self, implies_true, kept_logErr, kept_endCause, kept_each, kept_fatal, kept_onSeed, kept_gardenerUe, kept_tearContext, kept_islandReset] | split)

theorem kept_poisonTable (a0 : U32) (line : Nat) (s : State) : Kept (poisonTable a0 line s) s := by
  simp (disch := (intros; repeat' (first | with_reducible rfl | simp only [Kept, kIte, kIteCtl, kIteLen, kIteGh, kMap, length_lupd, ite_self, and_self, implies_true, kept_each, kept_setEnt, kept_keepFrame, kept_tearRow] | split))) only [poisonTable, Kept, kIte, kIteCtl, kIteLen, kIteGh, kMap, length_lupd, ite_self, and_self, implies_true, kept_each, kept_setEnt, kept_keepFrame, kept_tearRow]
  repeat' (first | with_reducible rfl | simp (disch := (intros; repeat' (first | with_reducible rfl | simp only [Kept, kIte, kIteCtl, kIteLen, kIteGh, kMap, length_lupd, ite_self, and_self, implies_true, kept_each, kept_setEnt, kept_keepFrame, kept_tearRow] | split))) only [Kept, kIte, kIteCtl, kIteLen, kIteGh, kMap, length_lupd, ite_self, and_self, implies_true, kept_each, kept_setEnt, kept_keepFrame, kept_tearRow] | split)

theorem kept_poisonActs (p : Poison) (s : State) : Kept (poisonActs p s) s := by
  simp only [poisonActs, Kept, kIte, kIteCtl, kIteLen, kIteGh, ite_self, and_self, implies_true, kept_teardownNamed, kept_poisonWeights, kept_endCause, kept_poisonPlot, kept_each, kept_clearNode, kept_tearRow, kept_selectFail, kept_checkEnd, kept_keepFrame, kept_dropRef, kept_State_onReqH, kept_onWdog, kept_withdraw, kept_poisonTable, kept_slotLost, kept_State_onTen, kept_poisonGraft]
  repeat' (first | with_reducible rfl | simp only [Kept, kIte, kIteCtl, kIteLen, kIteGh, ite_self, and_self, implies_true, kept_teardownNamed, kept_poisonWeights, kept_endCause, kept_poisonPlot, kept_each, kept_clearNode, kept_tearRow, kept_selectFail, kept_checkEnd, kept_keepFrame, kept_dropRef, kept_State_onReqH, kept_onWdog, kept_withdraw, kept_poisonTable, kept_slotLost, kept_State_onTen, kept_poisonGraft] | split)

theorem kept_poisonIn (p : Poison) (s : State) : Kept (poisonIn p s) s := by
  simp only [poisonIn, Kept, kIte, kIteCtl, kIteLen, kIteGh, ite_self, and_self, kept_logErr, kept_poisonActs]

theorem kept_loadRefused (m : Fin 32) (tables : Option LoadTables) (region : ℕ) (addr : ℕ) (s : State) : Kept (loadRefused m tables region addr s) s := by
  simp only [loadRefused, Kept, kIte, kIteCtl, kIteLen, kIteGh, ite_self, and_self, kept_reloaded, kept_modelLoaded, kept_hostFault]

theorem kept_freeGrant (seen : BiteSeen) (inst : Nat) (i : Nat) (s : State) : Kept (freeGrant seen inst i s) s := by
  simp only [freeGrant, Kept, kIte, kIteCtl, kIteLen, kIteGh, ite_self, and_self, kept_logErr, kept_setLast,
    kept_endGrant, kept_islandReset, kept_startReset, kept_malformed]
  repeat' (first | with_reducible rfl | simp only [Kept, kIte, kIteCtl, kIteLen, kIteGh, ite_self, and_self, kept_logErr, kept_setLast, kept_endGrant, kept_islandReset, kept_startReset, kept_malformed] | split)

theorem kept_graftRefused (g : ℕ) (v : U16) (deltas : Option (List Delta)) (region : ℕ) (addr : ℕ) (s : State) : Kept (graftRefused g v deltas region addr s) s := by
  simp only [graftRefused, Kept, kIte, kIteCtl, kIteLen, kIteGh, ite_self, and_self, kept_reloaded, kept_graftLoaded, kept_hostFault]
  repeat' (first | with_reducible rfl | simp only [Kept, kIte, kIteCtl, kIteLen, kIteGh, ite_self, and_self, kept_reloaded, kept_graftLoaded, kept_hostFault] | split)

theorem kept_failCopies (s : State) : Kept (failCopies s) s := by
  simp only [failCopies, Kept, kIte, kIteCtl, kIteLen, kIteGh, ite_self, and_self, implies_true, kept_each,
    kept_restoreFail, kept_spillFail, kept_restores, kept_flushDone, kept_pumpMoves, kept_setLast, kept_modelLoaded,
      kept_slotLost, kept_graftLoaded, kept_reloaded]

theorem kept_hostRefused (r : Refused) (s : State) : Kept (hostRefused r s) s := by
  simp only [hostRefused, Kept, and_self, kept_restores, kept_graftRefused, kept_pumpMoves, kept_spillMoveFail, kept_loadRefused, kept_traceRefused, kept_spoolBroken, kept_putReads, kept_ringFault, kept_coldRefused, kept_tableFail, kept_promptRefused, kept_selectFail, kept_finishTag, kept_extendRefused, kept_hostFault, kept_restoreFail]
  repeat' (first | with_reducible rfl | simp only [Kept, and_self, kept_restores, kept_graftRefused, kept_pumpMoves, kept_spillMoveFail, kept_loadRefused, kept_traceRefused, kept_spoolBroken, kept_putReads, kept_ringFault, kept_coldRefused, kept_tableFail, kept_promptRefused, kept_selectFail, kept_finishTag, kept_extendRefused, kept_hostFault, kept_restoreFail] | split)

theorem kept_wdogBite (seen : BiteSeen) (s : State) : Kept (wdogBite seen s) s := by
  delta wdogBite
  refine Kept.ite Kept.rfl' ?_
  extract_lets stuck hung engine coll s1 s2 s3 s4 copies s5 s6 short s7 s8 s9
  have h4 : Kept s4 s := by
    simp only [s1, s2, s3, s4, Kept, kept_each, kept_fenceHung, kept_freeGrant, kept_vecEvent, kept_onWdog,
      kept_logErr, and_self, implies_true]
  have h5 : Kept s5 s := Kept.ite (by simp only [Kept, kept_failCopies, h4, and_self]) h4
  have h6 : Kept s6 s := Kept.ite (by simp only [Kept, kept_setLast, kept_forceHold, h5, and_self]) h5
  have h7 : Kept s7 s := by simp only [s7, Kept, kept_each, kept_listMissing, h6, and_self, implies_true]
  have h9 : Kept s9 s := Kept.ite (by simp only [s8, Kept, kept_setLast, kept_islandReset, h7, and_self]) h7
  refine Kept.ite ?_ ?_
  · simp only [Kept, kept_setLast, kept_fatal, kept_logErr, h4, and_self]
  · simp only [Kept, kept_checkEnd, kept_progressNow, h9, and_self]

theorem kept_hostRecord (r : Refused) (s : State) : Kept (hostRecord r s) s := by
  simp only [hostRecord, Kept, and_self, kept_coldRefused, kept_hostFault]
  repeat' (first | with_reducible rfl | simp only [Kept, and_self, kept_coldRefused, kept_hostFault] | split)

end Sys2Proof.Machine
end

