-- ==== Sys2Proof/Laws/Resets.lean ====
section
/-! SUPPORT. What the operations of Machine/Resets.lean leave as it was (Laws/Kept.lean). -/

namespace Sys2Proof.Machine

set_option linter.unusedSimpArgs false
set_option linter.unusedVariables false

theorem kept_resetIslands (s : State) (hz : Sized s) : Kept (resetIslands s) s := by
  refine ⟨rfl, rfl, rfl, ?_, rfl, rfl, rfl⟩
  simp only [resetIslands, List.length_append, List.length_map, List.length_take, List.length_singleton, hz.1]
  rfl

theorem kept_clearStores (s : State) (hz : Sized s) : Kept (clearStores s) s :=
  ⟨rfl, rfl, rfl, hz.1.symm, List.length_map .., rfl, rfl⟩

theorem kept_clearLedger (s : State) : Kept (clearLedger s) s := by
  simp only [clearLedger, Kept, and_self]

theorem kept_idleGate (i : Nat) (s : State) : Kept (idleGate i s) s := by
  simp only [idleGate, Kept, kIte, kIteCtl, kIteLen, kIteGh, ite_self, and_self, implies_true, kept_onCtl]

theorem kept_resumeSteps (s : State) : Kept (resumeSteps s) s := by
  simp only [resumeSteps, Kept, and_self, implies_true, kept_onCtl]

theorem kept_clearCounters (s : State) : Kept (clearCounters s) s := by
  simp only [clearCounters, Kept, kMap, and_self]

theorem kept_restartBeds (s : State) : Kept (restartBeds s) s := by
  simp only [restartBeds, Kept, and_self, implies_true, kept_onDisp, kept_each, kept_bringIn]

theorem kept_setPhase (p : Phase) (s : State) : Kept (setPhase p s) s := by
  simp only [setPhase, Kept, and_self, implies_true, kept_vecEvent, kept_onCtl]

theorem kept_thermalStart (s : State) : Kept (thermalStart s) s := by
  simp only [thermalStart, Kept, and_self, implies_true, kept_onPwr, kept_modelStart, kept_flagged]

theorem kept_sleep (s : State) : Kept (sleep s) s := by
  simp only [sleep, Kept, and_self, implies_true, kept_setPhase, kept_onCtl]

theorem kept_fillFixed (s : State) : Kept (fillFixed s) s := by
  simp only [fillFixed, Kept, and_self, implies_true, kept_each, kept_putCopy]

theorem kept_startReady (s : State) : Kept (startReady s) s := by
  simp only [startReady, Kept, kIte, kIteCtl, kIteLen, kIteGh, ite_self, and_self, implies_true, kept_fillFixed, kept_thermalStart, kept_setPhase, kept_tetherOn, kept_State_onPage, kept_onCtl]

theorem kept_blockReset (s : State) (hz : Sized s) : Kept (blockReset s) s := by
  have h1 := fun s => kept_clearCounters s
  simp only [blockReset]
  refine (kept_setPhase ..).trans ((kept_resetArbs _ ?_).trans ((kept_resetIslands _ ?_).trans ((kept_clearCounters
    ..).trans
    (kept_onCtl _ _ fun _ => ⟨rfl, rfl⟩))))
  · exact (((kept_resetIslands _ (((kept_clearCounters ..).trans (kept_onCtl _ _ fun _ => ⟨rfl,
    rfl⟩)).sized hz)).trans
      ((kept_clearCounters ..).trans (kept_onCtl _ _ fun _ => ⟨rfl, rfl⟩))).sized hz)
  · exact (((kept_clearCounters ..).trans (kept_onCtl _ _ fun _ => ⟨rfl, rfl⟩)).sized hz)

theorem kept_powerDown (s : State) : Kept (powerDown s) s := by
  simp only [powerDown, Kept, kIte, kIteCtl, kIteLen, kIteGh, ite_self, and_self, implies_true, kept_each, kept_onSeed, kept_setPhase, kept_postEnergy, kept_traceFlush, kept_onDisp, kept_onCtl, kept_rollUp]

theorem kept_fwCtrl (v : U32) (s : State) : Kept (fwCtrl v s) s := by
  simp only [fwCtrl, Kept, kIte, kIteCtl, kIteLen, kIteGh, ite_self, and_self, implies_true, kept_onCtl,
    kept_setPhase, kept_regRefused]

theorem kept_wake (s : State) : Kept (wake s) s := by
  simp only [wake, Kept, and_self, implies_true, kept_onCtl, kept_setPhase]
  repeat' (first | with_reducible rfl | simp only [Kept, and_self, implies_true, kept_onCtl, kept_setPhase] | split)

theorem kept_imageFail (code : Nat) (s : State) : Kept (imageFail code s) s := by
  simp only [imageFail, Kept, kMap, and_self, implies_true, kept_onCtl, kept_setPhase]

theorem kept_keepModels (s : State) : Kept (keepModels s) s := by
  simp only [keepModels, Kept, kMap, and_self, kept_gleanGrafts]

theorem kept_imageRead (seen : ImageSeen) (s : State) : Kept (imageRead seen s) s := by
  simp only [imageRead, Kept, and_self, kept_putReads, kept_hostFault]
  repeat' (first | with_reducible rfl | simp only [Kept, and_self, kept_putReads, kept_hostFault] | split)

theorem kept_imageVerified (seen : ImageSeen) (s : State) : Kept (imageVerified seen s) s := by
  simp only [imageVerified, Kept, kIte, kIteCtl, kIteLen, kIteGh, and_self, implies_true, kept_imageFail, kept_imageRead, kept_setPhase, kept_onCtl]
  repeat' (first | with_reducible rfl | simp only [Kept, kIte, kIteCtl, kIteLen, kIteGh, and_self, implies_true, kept_imageFail, kept_imageRead, kept_setPhase, kept_onCtl] | split)

theorem kept_reloadTiles (s : State) : Kept (reloadTiles s) s := by
  simp only [reloadTiles, Kept, kIte, kIteCtl, kIteLen, kIteGh, kMap, length_lupd, ite_self, and_self, implies_true, kept_swapItems, kept_each]

theorem kept_wakeDone (seen : ImageSeen) (s : State) (hz : Sized s) : Kept (wakeDone seen s) s := by
  simp only [wakeDone, Kept, kIte, kIteCtl, kIteLen, kIteGh, and_self, implies_true, Sized, hz, kept_reloadTiles, kept_imageFail, kept_imageRead, kept_clearLedger, kept_each, kept_clearCounters, kept_thermalStart, kept_setPhase, kept_reattach, kept_resetArbs, kept_tetherOn, kept_onCtl]
  repeat' (first | with_reducible rfl | simp only [Kept, kIte, kIteCtl, kIteLen, kIteGh, and_self, implies_true, Sized, hz, kept_reloadTiles, kept_imageFail, kept_imageRead, kept_clearLedger, kept_each, kept_clearCounters, kept_thermalStart, kept_setPhase, kept_reattach, kept_resetArbs, kept_tetherOn, kept_onCtl] | split)

theorem kept_resetEnd (refused : List (U32 × U64)) (h : U32) (s : State) : Kept (resetEnd refused h s) s := by
  simp only [resetEnd, Kept, kIte, kIteCtl, kIteLen, kIteGh, and_self, kept_releaseReq, kept_State_onReqH, kept_hostFault]
  repeat' (first | with_reducible rfl | simp only [Kept, kIte, kIteCtl, kIteLen, kIteGh, and_self, kept_releaseReq, kept_State_onReqH, kept_hostFault] | split)

theorem kept_blockResetReady (refused : List (U32 × U64)) (s : State) (hz : Sized s) : Kept (blockResetReady refused s) s := by
  simp only [blockResetReady, Kept, kIte, kIteCtl, kIteLen, kIteGh, ite_self, and_self, implies_true, Sized, hz, kept_keepModels, kept_restartBeds, kept_imageFail, kept_each, kept_thermalStart, kept_resetEnd, kept_clearStores, kept_setPhase, kept_tetherOn, kept_State_onPage, kept_onCtl]

theorem kept_dormantDone (s : State) : Kept (dormantDone s) s := by
  simp only [dormantDone, Kept, kIte, kIteCtl, kIteLen, kIteGh, ite_self, and_self, kept_sealNoStepOp, kept_powerDown]

end Sys2Proof.Machine
end

