-- ==== Sys2Proof/Laws/PageRegs.lean ====
section
/-! SUPPORT. What the operations of Machine/PageRegs.lean leave as it was (Laws/Kept.lean). -/

namespace Sys2Proof.Machine

set_option linter.unusedSimpArgs false
set_option linter.unusedVariables false

theorem kept_setIntStatus (p : Nat) (v : U32) (s : State) : Kept (setIntStatus p v s) s := by
  simp only [setIntStatus, Kept, and_self, kept_State_onPage]

theorem kept_setErrInfo (p : Nat) (v : U32) (s : State) : Kept (setErrInfo p v s) s := by
  simp only [setErrInfo, Kept, and_self, kept_State_onPage]

theorem kept_onUrg (p : Nat) (u : Nat) (f : Urg → Urg) (s : State) : Kept (onUrg p u f s) s := by
  simp only [onUrg, Kept, and_self, kept_State_onPage]

theorem kept_setIntCoal (p : Nat) (i : Nat) (v : U32) (s : State) : Kept (setIntCoal p i v s) s := by
  simp only [setIntCoal, Kept, and_self, kept_State_onPage]

theorem kept_setUrgStat (p : Nat) (u : Nat) (v : U32) (s : State) : Kept (setUrgStat p u v s) s := by
  simp only [setUrgStat, Kept, and_self, kept_onUrg]

theorem kept_setSqTail (p : Nat) (v : U32) (s : State) : Kept (setSqTail p v s) s := by
  simp only [setSqTail, Kept, kIte, kIteCtl, kIteLen, kIteGh, ite_self, and_self, kept_pageError, kept_State_onPage]

theorem kept_setUrgGo (p : Fin 17) (u : Fin 8) (v : U32) (s : State) : Kept (setUrgGo p u v s) s := by
  simp only [setUrgGo, Kept, kIte, kIteCtl, kIteLen, kIteGh, ite_self, and_self, kept_pageError, kept_urgStart]

theorem kept_setUrgMsg (p : Nat) (u : Nat) (k : Nat) (v : U32) (s : State) : Kept (setUrgMsg p u k v s) s := by
  simp only [setUrgMsg, Kept, kIte, kIteCtl, kIteLen, kIteGh, ite_self, and_self, kept_pageError, kept_onUrg]

theorem kept_setRingCfg (p : Nat) (r : RingReg) (v : U64) (s : State) : Kept (setRingCfg p r v s) s := by
  simp only [setRingCfg, Kept, kIte, kIteCtl, kIteLen, kIteGh, ite_self, and_self, kept_pageError, kept_State_onPage]
  repeat' (first | with_reducible rfl | simp only [Kept, kIte, kIteCtl, kIteLen, kIteGh, ite_self, and_self, kept_pageError, kept_State_onPage] | split)

theorem kept_drainOn (p : ℕ) (s : State) : Kept (drainOn p s) s := by
  simp only [drainOn, Kept, kIte, kIteCtl, kIteLen, kIteGh, kMap, length_lupd, ite_self, and_self, implies_true, kept_drainCq]

theorem kept_setRingCtrl (p : ℕ) (v : U32) (s : State) : Kept (setRingCtrl p v s) s := by
  simp only [setRingCtrl, Kept, kIte, kIteCtl, kIteLen, kIteGh, ite_self, and_self, kept_drainOn, kept_State_onPage]

theorem kept_setCqHead (p : ℕ) (v : U32) (s : State) : Kept (setCqHead p v s) s := by
  simp only [setCqHead, Kept, kIte, kIteCtl, kIteLen, kIteGh, ite_self, and_self, kept_drainOn, kept_pageError, kept_State_onPage]

end Sys2Proof.Machine
end

