-- ==== Sys2Proof/Laws/Freeze.lean ====
section
/-! SUPPORT. What the operations of Machine/Freeze.lean leave as it was (Laws/Kept.lean). -/

namespace Sys2Proof.Machine

set_option linter.unusedSimpArgs false
set_option linter.unusedVariables false

theorem kept_freezeDone (s : State) : Kept (freezeDone s) s := by
  simp only [freezeDone, Kept, kIte, kIteCtl, kIteLen, kIteGh, ite_self, and_self, implies_true, kept_onCtl]

theorem kept_freezeBegin (s : State) : Kept (freezeBegin s) s := by
  simp only [freezeBegin, Kept, kIte, kIteCtl, kIteLen, kIteGh, ite_self, and_self, implies_true, kept_onCtl,
    kept_onTeth]

theorem kept_freezeDebug (s : State) : Kept (freezeDebug s) s := by
  simp only [freezeDebug, Kept, kIte, kIteCtl, kIteLen, kIteGh, ite_self, and_self, implies_true, kept_onCtl,
    kept_freezeBegin]

theorem kept_freezeCtrl (s : State) : Kept (freezeCtrl s) s := by
  simp only [freezeCtrl, Kept, kIte, kIteCtl, kIteLen, kIteGh, ite_self, and_self, implies_true, kept_onCtl,
    kept_freezeBegin]

theorem kept_thawModel (s : State) : Kept (thawModel s) s := by
  simp only [thawModel, Kept, kIte, kIteCtl, kIteLen, kIteGh, ite_self, and_self, kept_thermalStart]

theorem kept_doorbell (p off : Nat) (f : State → State) (s : State) (h : ∀ s,
    Kept (f s) s) : Kept (doorbell p off f s) s := by
  simp only [doorbell, Kept, kIte, kIteCtl, kIteLen, kIteGh, h, kept_pageError, ite_self, and_self]

theorem kept_latched (s : State) (hz : Sized s) : Kept (latched s) s := by
  simp only [latched, Kept, kIte, kIteCtl, kIteLen, kIteGh, ite_self, and_self, implies_true, Sized, hz, kept_onCtl,
    kept_blockReset, kept_sleep, kept_wake]

theorem kept_tetherBack (s : State) : Kept (tetherBack s) s := by
  simp only [tetherBack, Kept, kIte, kIteCtl, kIteLen, kIteGh, ite_self, and_self, kept_holdGroup]

theorem kept_applyBells (s : State) : Kept (applyBells s) s := by
  simp (disch := (intros; repeat' (first | with_reducible rfl | simp only [Kept, kIte, kIteCtl, kIteLen, kIteGh, kMap, length_lupd, ite_self, and_self, implies_true, kept_onCtl, kept_each, kept_doorbell, kept_setSqTail, kept_setCqHead] | split))) only [applyBells, Kept, kIte, kIteCtl, kIteLen, kIteGh, kMap, length_lupd, ite_self, and_self, implies_true, kept_onCtl, kept_each, kept_doorbell, kept_setSqTail, kept_setCqHead]
  repeat' (first | with_reducible rfl | simp (disch := (intros; repeat' (first | with_reducible rfl | simp only [Kept, kIte, kIteCtl, kIteLen, kIteGh, kMap, length_lupd, ite_self, and_self, implies_true, kept_onCtl, kept_each, kept_doorbell, kept_setSqTail, kept_setCqHead] | split))) only [Kept, kIte, kIteCtl, kIteLen, kIteGh, kMap, length_lupd, ite_self, and_self, implies_true, kept_onCtl, kept_each, kept_doorbell, kept_setSqTail, kept_setCqHead] | split)

theorem kept_restoreStart (a0 : U32) (s : State) : Kept (restoreStart a0 s) s := by
  simp only [restoreStart, Kept, kIte, kIteCtl, kIteLen, kIteGh, ite_self, and_self, kept_startRestores]
  repeat' (first | with_reducible rfl | simp only [Kept, kIte, kIteCtl, kIteLen, kIteGh, ite_self, and_self, kept_startRestores] | split)

theorem kept_removalDone (model : Option (Fin 32)) (g : Nat) (v : U16) (s : State) : Kept (removalDone model g v s)
    s := by
  simp only [removalDone, Kept, and_self, kept_evicted, kept_graftWalked]
  repeat' (first | with_reducible rfl | simp only [Kept, and_self, kept_evicted, kept_graftWalked] | split)

theorem kept_nocApply (i : Instr) (s : State) : Kept (nocApply i s) s := by
  cases i <;> first
    | exact Kept.rfl'
    | exact kept_poisonIn ..
    | exact kept_hostRefused ..
    | exact kept_atomicWrite ..
    | exact kept_coreFault ..
    | exact kept_tailRead ..
    | exact kept_dispatchStep ..
    | exact kept_itemComplete ..
    | exact kept_stackComplete ..
    | exact kept_collComplete ..
    | exact kept_tilePark ..
    | exact kept_saveDone ..
    | exact kept_rearmDone ..
    | exact kept_listArrives ..
    | exact (kept_checkEnd ..).trans (kept_guessArrives ..)
    | exact kept_promptCopied ..
    | exact kept_extendCopied ..
    | exact kept_biasCopied ..
    | exact kept_spillMoveDone ..
    | exact kept_restoreMoveDone ..
    | exact kept_modelLoaded ..
    | exact kept_graftLoaded ..
    | exact kept_reloaded ..
    | exact kept_selectDone ..
    | exact kept_teardownEnds ..
    | exact kept_joinDone ..

theorem kept_nocTake (i : Instr) (s : State) : Kept (nocTake i s) s := by
  simp only [nocTake, Kept, kIte, kIteCtl, kIteLen, kIteGh, ite_self, and_self, kept_atomicWrite, kept_nocApply, kept_poisonIn, kept_coreFault, kept_hostRecord, kept_onWdog]
  repeat' (first | with_reducible rfl | simp only [Kept, kIte, kIteCtl, kIteLen, kIteGh, ite_self, and_self, kept_atomicWrite, kept_nocApply, kept_poisonIn, kept_coreFault, kept_hostRecord, kept_onWdog] | split)

theorem kept_drainNoc (s : State) : Kept (drainNoc s) s := by
  simp only [drainNoc, Kept, and_self, implies_true, kept_nocTake, kept_each]

theorem kept_thaw (s : State) (hz : Sized s) : Kept (thaw s) s := by
  simp only [thaw, Kept, and_self, implies_true, Sized, hz, kept_onCtl, kept_applyBells, kept_latched,
    kept_drainNoc, kept_thawModel, kept_tetherBack]

theorem kept_thawCtrl (s : State) (hz : Sized s) : Kept (thawCtrl s) s := by
  simp only [thawCtrl, Kept, kIte, kIteCtl, kIteLen, kIteGh, ite_self, and_self, implies_true, Sized, hz,
    kept_onCtl, kept_thaw]

theorem kept_thawDebug (s : State) (hz : Sized s) : Kept (thawDebug s) s := by
  simp only [thawDebug, Kept, kIte, kIteCtl, kIteLen, kIteGh, ite_self, and_self, implies_true, Sized, hz,
    kept_onCtl, kept_thaw]

theorem kept_stopRank (s : State) : Kept (stopRank s) s := by
  simp only [stopRank, Kept, kIte, kIteCtl, kIteLen, kIteGh, kMap, length_lupd, ite_self, and_self, implies_true, kept_endGrant, kept_onCtl]

theorem kept_takeWaits (s : State) : Kept (takeWaits s) s := by
  simp only [takeWaits, Kept, kIte, kIteCtl, kIteLen, kIteGh, kMap, length_lupd, ite_self, and_self, implies_true, kept_nocTake, kept_each, kept_onWdog]

theorem kept_gdnBack (c : ℕ) (verified : Bool) (s : State) : Kept (gdnBack c verified s) s := by
  simp only [gdnBack, Kept, kIte, kIteCtl, kIteLen, kIteGh, kMap, length_lupd, ite_self, and_self, implies_true, kept_gdnReattach, kept_takeWaits]

end Sys2Proof.Machine
end

