-- ==== Sys2Proof/Laws/Regs.lean ====
section
/-! SUPPORT. What the operations of Machine/Regs.lean leave as it was (Laws/Kept.lean). -/

namespace Sys2Proof.Machine

set_option linter.unusedSimpArgs false
set_option linter.unusedVariables false

theorem kept_setCold (v : U32) (s : State) : Kept (setCold v s) s := by
  simp only [setCold, Kept, and_self]

theorem kept_setPort (f : Port → Port) (s : State) : Kept (setPort f s) s := by
  simp only [setPort, Kept, and_self]

theorem kept_setScopes (t : Nat) (v : U32) (s : State) : Kept (setScopes t v s) s := by
  simp only [setScopes, Kept, and_self, kept_onSeed]

theorem kept_answer (v : Nat) (s : State) : Kept (answer v s) s := by
  simp only [answer, Kept, and_self, kept_setPort]

theorem kept_regClear (lo : Bool) (hi : Bool) (s : State) (a3 : Reg) : Kept (regClear lo hi s a3) s := by
  simp only [regClear, Kept, kIte, kIteCtl, kIteLen, kIteGh, ite_self, and_self, implies_true, kept_onWdog,
    kept_onArb, kept_onPwr, kept_onCtl, kept_onTeth, kept_onSeed, kept_onPrn, kept_satLed, kept_State_onPage]
  repeat' (first | with_reducible rfl | simp only [Kept, kIte, kIteCtl, kIteLen, kIteGh, ite_self, and_self, implies_true, kept_onWdog, kept_onArb, kept_onPwr, kept_onCtl, kept_onTeth, kept_onSeed, kept_onPrn, kept_satLed, kept_State_onPage] | split)

theorem kept_State_portClear (s : State) (lo : Bool) (hi : Bool) (r : Reg) : Kept (State.portClear s lo hi r) s := by
  simp only [State.portClear, Kept, kIte, kIteCtl, kIteLen, kIteGh, ite_self, and_self, kept_regClear]

theorem kept_readWord (r : Reg) (s : State) : Kept (readWord r s).2 s := by
  simp only [readWord, Kept, kIte, kIteCtl, kIteLen, kIteGh, ite_self, and_self, implies_true, kept_State_portClear,
    kept_onCtl]

theorem kept_setTier (r : TierReg) (v : U64) (s : State) : Kept (setTier r v s) s := by
  simp only [setTier, Kept, kIte, kIteCtl, kIteLen, kIteGh, ite_self, and_self, kept_regRefused]

theorem kept_setWdogLimit (v : U32) (s : State) : Kept (setWdogLimit v s) s := by
  simp only [setWdogLimit, Kept, kIte, kIteCtl, kIteLen, kIteGh, ite_self, and_self, kept_regRefused, kept_onWdog]

theorem kept_read32 (fn : Nat) (off : Nat) (s : State) : Kept (read32 fn off s) s := by
  simp only [read32, Kept, kIte, kIteCtl, kIteLen, kIteGh, ite_self, and_self, kept_setPort, kept_answer,
    kept_readWord, kept_State_portClear]
  repeat' (first | with_reducible rfl | simp only [Kept, kIte, kIteCtl, kIteLen, kIteGh, ite_self, and_self, kept_setPort, kept_answer, kept_readWord, kept_State_portClear] | split)

theorem kept_read64 (fn : Nat) (off : Nat) (s : State) : Kept (read64 fn off s) s := by
  simp only [read64, Kept, kIte, kIteCtl, kIteLen, kIteGh, and_self, kept_setPort, kept_answer,
    kept_State_portClear, kept_readWord]
  repeat' (first | with_reducible rfl | simp only [Kept, kIte, kIteCtl, kIteLen, kIteGh, and_self, kept_setPort, kept_answer, kept_State_portClear, kept_readWord] | split)

theorem kept_setGroup (r : GroupReg) (v : U64) (s : State) : Kept (setGroup r v s) s := by
  simp only [setGroup, Kept, kIte, kIteCtl, kIteLen, kIteGh, and_self, kept_regRefused, kept_onTeth]
  repeat' (first | with_reducible rfl | simp only [Kept, kIte, kIteCtl, kIteLen, kIteGh, and_self, kept_regRefused, kept_onTeth] | split)

theorem kept_setTraceTail (v : U32) (s : State) : Kept (setTraceTail v s) s := by
  simp only [setTraceTail, Kept, kIte, kIteCtl, kIteLen, kIteGh, ite_self, and_self, kept_regRefused]

theorem kept_setTetherCtrl (v : U64) (s : State) : Kept (setTetherCtrl v s) s := by
  simp only [setTetherCtrl, Kept, kIte, kIteCtl, kIteLen, kIteGh, kMap, length_lupd, ite_self, and_self, implies_true, kept_regRefused, kept_onTeth, kept_tetherOn]

theorem kept_portRead (fn : Fin 17) (off : Nat) (wide : Bool) (s : State) : Kept (portRead fn off wide s) s := by
  simp only [portRead, Kept, kIte, kIteCtl, kIteLen, kIteGh, ite_self, and_self, kept_read64, kept_read32]

theorem kept_unlisted (off : Nat) (s : State) : Kept (unlisted off s) s := by
  simp only [unlisted, Kept, and_self, kept_pageError, kept_regRefused]
  repeat' (first | with_reducible rfl | simp only [Kept, and_self, kept_pageError, kept_regRefused] | split)

theorem kept_blCtrlFrozen (v : U32) (s : State) (hz : Sized s) : Kept (blCtrlFrozen v s) s := by
  simp only [blCtrlFrozen, Kept, kIte, kIteCtl, kIteLen, kIteGh, ite_self, and_self, implies_true, Sized, hz,
    kept_onCtl, kept_regRefused, kept_resumeSteps, kept_freezeCtrl, kept_thawCtrl]

theorem kept_blCtrlRun (v : U32) (s : State) (hz : Sized s) : Kept (blCtrlRun v s) s := by
  simp only [blCtrlRun, Kept, kIte, kIteCtl, kIteLen, kIteGh, ite_self, and_self, Sized, hz, kept_blockReset,
    kept_regRefused, kept_sleep, kept_wake, kept_resumeSteps, kept_freezeCtrl]

theorem kept_setBlCtrl (v : U32) (s : State) (hz : Sized s) : Kept (setBlCtrl v s) s := by
  simp only [setBlCtrl, Kept, kIte, kIteCtl, kIteLen, kIteGh, ite_self, and_self, Sized, hz, kept_blCtrlFrozen,
    kept_blCtrlRun]

theorem kept_setAreg (i : Nat) (v : U64) (s : State) (a3 : AReg) : Kept (setAreg i v s a3) s := by
  simp only [setAreg, Kept, kIte, kIteCtl, kIteLen, kIteGh, ite_self, and_self, kept_setWindow, kept_arbClear,
    kept_onArb, kept_prioCommit, kept_setHint, kept_setDepth, kept_setMap, kept_setQuota]
  repeat' (first | with_reducible rfl | simp only [Kept, kIte, kIteCtl, kIteLen, kIteGh, ite_self, and_self, kept_setWindow, kept_arbClear, kept_onArb, kept_prioCommit, kept_setHint, kept_setDepth, kept_setMap, kept_setQuota] | split)

theorem kept_setPreg (p : Fin 17) (v : U64) (s : State) (a3 : PReg) : Kept (setPreg p v s a3) s := by
  simp only [setPreg, Kept, and_self, kept_setRingCtrl, kept_setRingCfg, kept_setSqTail, kept_setCqHead,
    kept_setErrInfo, kept_setUrgMsg, kept_setUrgGo, kept_setUrgStat, kept_setIntCoal, kept_setIntStatus]
  repeat' (first | with_reducible rfl | simp only [Kept, and_self, kept_setRingCtrl, kept_setRingCfg, kept_setSqTail, kept_setCqHead, kept_setErrInfo, kept_setUrgMsg, kept_setUrgGo, kept_setUrgStat, kept_setIntCoal, kept_setIntStatus] | split)

theorem kept_regWrite (v : U64) (s : State) (a2 : Reg) (hz : Sized s) : Kept (regWrite v s a2) s := by
  simp only [regWrite, Kept, and_self, implies_true, Sized, hz, kept_setBlCtrl, kept_setWdogLimit, kept_onWdog,
    kept_setAreg, kept_setPwr, kept_setTherm, kept_setTraceTail, kept_setTetherCtrl, kept_onTeth, kept_setGroup,
      kept_onCtl, kept_fwCtrl, kept_setCold, kept_setTier, kept_setScopes, kept_setPreg]
  repeat' (first | with_reducible rfl | simp only [Kept, and_self, implies_true, Sized, hz, kept_setBlCtrl, kept_setWdogLimit, kept_onWdog, kept_setAreg, kept_setPwr, kept_setTherm, kept_setTraceTail, kept_setTetherCtrl, kept_onTeth, kept_setGroup, kept_onCtl, kept_fwCtrl, kept_setCold, kept_setTier, kept_setScopes, kept_setPreg] | split)

theorem kept_halfWrite (hi : Bool) (v : U32) (r : Reg) (s : State) (hz : Sized s) : Kept (halfWrite hi v r s) s := by
  simp only [halfWrite, Kept, kIte, kIteCtl, kIteLen, kIteGh, ite_self, and_self, Sized, hz, kept_regWrite]

theorem kept_write32 (fn : Nat) (off : Nat) (v : U32) (low : Option (Nat × U32)) (s : State) (hz : Sized s) : Kept
    (write32 fn off v low s) s := by
  simp only [write32, Kept, kIte, kIteCtl, kIteLen, kIteGh, ite_self, and_self, Sized, hz, kept_unlisted,
    kept_regWrite, kept_halfWrite, kept_setPort]
  repeat' (first | with_reducible rfl | simp only [Kept, kIte, kIteCtl, kIteLen, kIteGh, ite_self, and_self, Sized, hz, kept_unlisted, kept_regWrite, kept_halfWrite, kept_setPort] | split)

theorem kept_closedWrite (p : Nat) (off : Nat) (s : State) : Kept (closedWrite p off s) s := by
  simp only [closedWrite, Kept, kIte, kIteCtl, kIteLen, kIteGh, ite_self, and_self, kept_pageError]

theorem kept_writeWith (fn : ℕ) (off : ℕ) (wide : Bool) (v : U64) (low : Option (ℕ × U32)) (s : State) (hz : Sized s) : Kept (writeWith fn off wide v low s) s := by
  simp only [writeWith, Kept, kIte, kIteCtl, kIteLen, kIteGh, kMap, length_lupd, ite_self, and_self, implies_true, Sized, hz, kept_unlisted, kept_regWrite, kept_write32, kept_closedWrite]
  repeat' (first | with_reducible rfl | simp only [Kept, kIte, kIteCtl, kIteLen, kIteGh, kMap, length_lupd, ite_self, and_self, implies_true, Sized, hz, kept_unlisted, kept_regWrite, kept_write32, kept_closedWrite] | split)

theorem kept_writeNow (fn : ℕ) (off : ℕ) (wide : Bool) (v : U64) (s : State) (hz : Sized s) : Kept (writeNow fn off wide v s) s := by
  simp only [writeNow, Kept, kIte, kIteCtl, kIteLen, kIteGh, kMap, length_lupd, ite_self, and_self, implies_true, Sized, hz, kept_writeWith, kept_discardLow]

theorem kept_writeHeld (fn : Fin 17) (off : ℕ) (wide : Bool) (v : U64) (s : State) (hz : Sized s) : Kept (writeHeld fn off wide v s) s := by
  simp only [writeHeld, Kept, kIte, kIteCtl, kIteLen, kIteGh, kMap, length_lupd, ite_self, and_self, implies_true, Sized, hz, kept_regRefused, kept_writeNow, kept_discardLow, kept_onWdog]

theorem kept_refusedAccess (write : Bool) (off : Nat) (s : State) : Kept (refusedAccess write off s) s := by
  simp only [refusedAccess, Kept, kIte, kIteCtl, kIteLen, kIteGh, ite_self, and_self, kept_pageError,
    kept_regRefused, kept_answer]
  repeat' (first | with_reducible rfl | simp only [Kept, kIte, kIteCtl, kIteLen, kIteGh, ite_self, and_self, kept_pageError, kept_regRefused, kept_answer] | split)

theorem kept_dropWrites (n : ℕ) (s : State) : Kept (dropWrites n s) s := by
  simp only [dropWrites, Kept, kIte, kIteCtl, kIteLen, kIteGh, kMap, length_lupd, ite_self, and_self, implies_true, kept_onCtl]

theorem kept_writeFrozen (off : ℕ) (wide : Bool) (v : U64) (s : State) (hz : Sized s) : Kept (writeFrozen off wide v s) s := by
  simp only [writeFrozen, Kept, kIte, kIteCtl, kIteLen, kIteGh, kMap, length_lupd, ite_self, and_self, implies_true, Sized, hz, kept_dropWrites, kept_onCtl, kept_setBlCtrl]
  repeat' (first | with_reducible rfl | simp only [Kept, kIte, kIteCtl, kIteLen, kIteGh, kMap, length_lupd, ite_self, and_self, implies_true, Sized, hz, kept_dropWrites, kept_onCtl, kept_setBlCtrl] | split)

theorem kept_islandBack (i : ℕ) (s : State) (hz : Sized s) : Kept (islandBack i s) s := by
  simp only [islandBack]
  split
  · exact Kept.rfl'
  · exact (kept_eachZ _ _ _ ((kept_onWdog ..).sized hz) fun w s h => kept_writeWith _ _ _ _ _ _ h).trans (kept_onWdog ..)


theorem kept_portWrite (fn : Fin 17) (off : ℕ) (wide : Bool) (v : U64) (s : State) (hz : Sized s) : Kept (portWrite fn off wide v s) s := by
  simp only [portWrite, Kept, kIte, kIteCtl, kIteLen, kIteGh, kMap, length_lupd, ite_self, and_self, implies_true, Sized, hz, kept_writeNow, kept_writeFrozen, kept_writeHeld, kept_discardLow]

theorem kept_portAccess (fn : Fin 17) (off : ℕ) (bits : ℕ) (write : Bool) (v : U64) (s : State) (hz : Sized s) : Kept (portAccess fn off bits write v s) s := by
  simp only [portAccess, Kept, kIte, kIteCtl, kIteLen, kIteGh, kMap, length_lupd, ite_self, and_self, implies_true, Sized, hz, kept_portWrite, kept_portRead, kept_answer, kept_refusedAccess, kept_dropWrites, kept_discardLow, kept_setPort]

theorem kept_readOut (i : ℕ) (s : State) : Kept (readOut i s) s := by
  simp only [readOut, Kept, kIte, kIteCtl, kIteLen, kIteGh, kMap, length_lupd, ite_self, and_self, implies_true]

theorem kept_debugUse (inst : ℕ) (beats : ℕ) (ask : DebugAsk) (s : State) : Kept (debugUse inst beats ask s) s := by
  simp only [debugUse, Kept, kIte, kIteCtl, kIteLen, kIteGh, kMap, length_lupd, ite_self, and_self, implies_true, kept_debugRevoke]
  repeat' (first | with_reducible rfl | simp only [Kept, kIte, kIteCtl, kIteLen, kIteGh, kMap, length_lupd, ite_self, and_self, implies_true, kept_debugRevoke] | split)

end Sys2Proof.Machine
end

