-- ==== Sys2Proof/Laws/Commands.lean ====
section
/-! SUPPORT. The forms that commands have: what each form answers, and what it leaves as it was (Laws/Kept.lean). -/

namespace Sys2Proof.Machine

/-! ### What a form answers -/

theorem liveQuiet_next (s : State) (op : State → State) (h : s.ctl.sagged = false) : liveQuiet s op = .next (op s) := by
  simp only [liveQuiet, h, Bool.false_eq_true, if_false]

theorem live_next (is : List Nat) (s : State) (op : State → State) (h : s.ctl.sagged = false) :
    live is s op = .next (op (ungate is s)) := liveQuiet_next s _ h

theorem liveSettle_next (is : List Nat) (s : State) (op : State → State) (h : s.ctl.sagged = false) :
    liveSettle is s op = .next (settle (op (ungate is s))) := live_next is s _ h

theorem own_next (is : List Nat) (s : State) (op : State → State) (h : s.ctl.sagged = false) (a : s.awake = true)
    (f : s.freezing = false) : own is s op = .next (op (ungate is s)) := by
  rw [own, live_next is s _ h]
  have ha : (ungate is s).awake = true := a
  have hf : (ungate is s).freezing = false := f
  simp only [ha, hf, Bool.not_false, Bool.and_self, if_true]

theorem ownSettle_next (is : List Nat) (s : State) (op : State → State) (h : s.ctl.sagged = false) (a : s.awake = true)
    (f : s.freezing = false) : ownSettle is s op = .next (settle (op (ungate is s))) := own_next is s _ h a f

theorem ownLogged_next (is : List Nat) (s : State) (op : State → State) (h : s.ctl.sagged = false)
    (a : (s.awake || s.wdog.stalled) = true) (f : s.freezing = false) : ownLogged is s op = .next (op (ungate is s)) := by
  rw [ownLogged, live_next is s _ h]
  have ha : ((ungate is s).awake || (ungate is s).wdog.stalled) = true := a
  have hf : (ungate is s).freezing = false := f
  simp only [ha, hf, Bool.not_false, Bool.and_self, if_true]

theorem inboundSettle_next (c : Instr) (s : State) (h : s.ctl.sagged = false) (f : s.freezing = false) :
    inboundSettle c s = .next (settle (nocTake c (ungate (trafficIslands c s) s))) := by
  rw [inboundSettle, live_next _ s _ h]
  have hf : (ungate (trafficIslands c s) s).freezing = false := f
  simp only [hf, Bool.false_eq_true, if_false]

/-- Traffic that no restarting gardener core delays has its effect at once while the block runs. -/
theorem nocTake_awake (c : Instr) (s : State) (a : s.awake = true) (g : (s.takerOf c).any s.gdnDown = false) :
    nocTake c s = nocApply c s := by
  simp only [nocTake, a, g, if_true, Bool.false_eq_true, if_false]

theorem onRing_next (s : State) (op : State → State) (h : s.ctl.sagged = false) (a : s.ctl.phase = .ready)
    (f : s.freezing = false) : onRing s op = .next (settle (op (ungate [16] s))) := by
  rw [onRing, live_next _ s _ h]
  have ha : (ungate [16] s).ctl.phase = .ready := a
  have hf : (ungate [16] s).freezing = false := f
  simp only [ha, hf, ne_eq, not_true_eq_false, decide_false, Bool.or_self, Bool.false_eq_true, if_false]

theorem writeCmd_next (fn : Fin 17) (off bits : Nat) (v : U64) (s : State) (h : s.ctl.sagged = false)
    (b : inBar fn off = true) : writeCmd fn off bits v s =
      .next (settle (portAccess fn off bits true v (ungate (s.writeIslands (absOff fn off)) s))) := by
  rw [writeCmd, liveSettle_next _ s _ h]
  simp only [b, if_true]

theorem readCmd_next (fn : Fin 17) (off bits : Nat) (s : State) (h : s.ctl.sagged = false) (b : inBar fn off = true) :
    readCmd fn off bits s = .next (portAccess fn off bits false 0 (ungate [islandAt (absOff fn off)] s)) := by
  rw [readCmd, live_next _ s _ h]
  simp only [b, if_true]

/-! ### Register writes -/

/-- A write of a register's own width, of an open page or of none, is a write of the register. -/
theorem writeNow_reg (fn off : Nat) (wide : Bool) (v : U64) (r : Reg) (s : State) (hr : regAt off = some r)
    (hw : r.wide = wide) (ho : ∀ p, pageAt off = some p → (s.page p).isOpen = true) :
    writeNow fn off wide v s = regWrite (if wide then v else (v.setWidth 32).setWidth 64)
      (setPort (fun q => { q with held := mdel fn q.held }) s) r := by
  have hl : locate off = some (r, off, false) := by simp only [locate, hr]
  have hc : (discardLow fn s).closedAt off = none := by
    unfold State.closedAt
    split
    · next p hp => exact if_pos (ho p hp)
    · rfl
  cases wide
  · simp only [writeNow, writeWith, hc, Bool.not_false, if_true, write32, hl, hw, Bool.false_eq_true, if_false]
    rfl
  · simp only [writeNow, writeWith, hc, Bool.not_true, Bool.false_eq_true, if_false, hr, hw, if_true]
    rfl

/-- What a write of a register's own width answers. -/
theorem writeCmd_reg (fn : Fin 17) (off : Nat) (wide : Bool) (v : U64) (r : Reg) (s : State) (h : Writes fn off wide r s) :
    writeCmd fn off (if wide then 64 else 32) v s
      = .next (settle (regWrite (if wide then v else (v.setWidth 32).setWidth 64) (written fn off s) r)) := by
  obtain ⟨⟨hk, hf, hb, ha, hr, hw⟩, ho, hi⟩ := h
  have hl : locate (absOff fn off) = some (r, absOff fn off, false) := by simp only [locate, hr]
  have hi' : (ungate (s.writeIslands (absOff fn off)) s).wdog.resetting.getLsbD (islandAt (absOff fn off)) = false := by
    simp only [islandAt, hl]; exact hi
  have hf' : (ungate (s.writeIslands (absOff fn off)) s).freezing = false := hf
  rw [writeCmd_next _ _ _ _ _ hk hb]
  have e := writeNow_reg fn.val (absOff fn off) wide v r (ungate (s.writeIslands (absOff fn off)) s) hr hw ho
  cases wide
  · have ha : off % 4 = 0 := ha
    simp only [Bool.false_eq_true, if_false] at e ⊢
    simp only [portAccess, portWrite, hf', hi', ha, decide_true, Bool.and_self, Bool.true_or, if_true, Bool.false_eq_true, if_false,
      Nat.reduceEqDiff, decide_false, e]
    rfl
  · have ha : off % 8 = 0 := ha
    simp only [if_true] at e ⊢
    simp only [portAccess, portWrite, hf', hi', ha, decide_true, Bool.and_self, Bool.or_true, if_true, Bool.false_eq_true, if_false, e]
    rfl

/-! ### What a form keeps -/

theorem kept_liveQuiet {s t : State} {op : State → State} (hz : Sized s) (h : ∀ s, Sized s → Kept (op s) s)
    (e : liveQuiet s op = .next t) : Kept t s := by
  unfold liveQuiet at e
  split at e
  · cases e
  · cases e; exact h s hz

theorem kept_live {is : List Nat} {s t : State} {op : State → State} (hz : Sized s) (h : ∀ s, Sized s → Kept (op s) s)
    (e : live is s op = .next t) : Kept t s :=
  kept_liveQuiet hz (fun s hz => (h (ungate is s) hz).trans (kept_ungate is s)) e

theorem kept_liveSettle {is : List Nat} {s t : State} {op : State → State} (hz : Sized s) (h : ∀ s, Sized s → Kept (op s) s)
    (e : liveSettle is s op = .next t) : Kept t s :=
  kept_live hz (fun s hz => (kept_settle _).trans (h s hz)) e

theorem kept_own {is : List Nat} {s t : State} {op : State → State} (hz : Sized s) (h : ∀ s, Sized s → Kept (op s) s)
    (e : own is s op = .next t) : Kept t s :=
  kept_live hz (fun s hz => Kept.ite (h s hz) Kept.rfl') e

theorem kept_ownLogged {is : List Nat} {s t : State} {op : State → State} (hz : Sized s) (h : ∀ s, Sized s → Kept (op s) s)
    (e : ownLogged is s op = .next t) : Kept t s :=
  kept_live hz (fun s hz => Kept.ite (h s hz) Kept.rfl') e

theorem kept_ownSettle {is : List Nat} {s t : State} {op : State → State} (hz : Sized s) (h : ∀ s, Sized s → Kept (op s) s)
    (e : ownSettle is s op = .next t) : Kept t s :=
  kept_own hz (fun s hz => (kept_settle _).trans (h s hz)) e

theorem kept_onRing {s t : State} {op : State → State} (hz : Sized s) (h : ∀ s, Sized s → Kept (op s) s)
    (e : onRing s op = .next t) : Kept t s :=
  kept_live hz (fun s hz => Kept.ite Kept.rfl' ((kept_settle _).trans (h s hz))) e

theorem kept_nocHeld (c : Instr) (s : State) : Kept { s with nocHeld := s.nocHeld ++ [c] } s :=
  ⟨rfl, rfl, rfl, rfl, rfl, rfl, rfl⟩

theorem kept_inboundSettle {c : Instr} {s t : State} (hz : Sized s) (e : inboundSettle c s = .next t) : Kept t s := by
  unfold inboundSettle at e
  apply kept_live hz _ e
  intro s _
  apply Kept.ite
  · exact kept_nocHeld c s
  · exact (kept_settle _).trans (kept_nocTake c s)

theorem kept_writeCmd {fn : Fin 17} {off bits : Nat} {v : U64} {s t : State} (hz : Sized s)
    (e : writeCmd fn off bits v s = .next t) : Kept t s := by
  unfold writeCmd at e
  apply kept_liveSettle hz _ e
  intro s hz
  apply Kept.ite
  · exact kept_portAccess fn off bits true v s hz
  · exact Kept.rfl'

theorem kept_readCmd {fn : Fin 17} {off bits : Nat} {s t : State} (hz : Sized s)
    (e : readCmd fn off bits s = .next t) : Kept t s := by
  unfold readCmd at e
  apply kept_live hz _ e
  intro s hz
  apply Kept.ite
  · exact kept_portAccess fn off bits false 0 s hz
  · exact Kept.rfl'

end Sys2Proof.Machine
end

