-- ==== Sys2Proof/Laws/Effects.lean ====
section
/-! SUPPORT. Everything the shared operations of Machine/Ops.lean that raise, record, trace, charge and complete can do: a
caller needs these forms and not the definitions. -/

namespace Sys2Proof.Machine

/-! ### Pages and tenants after an update -/

theorem getD_lupd_cases {α : Type} (p q : Nat) (f : α → α) (d : α) (l : List α) :
    (lupd p f l).getD q d = if p = q ∧ p < l.length then f (l.getD q d) else l.getD q d := by
  induction l generalizing p q with
  | nil => simp [lupd]
  | cons a r ih => cases p <;> cases q <;> simp_all [lupd]

theorem page_onPage_cases (s : State) (p q : Nat) (f : Page → Page) :
    (s.onPage p f).page q = if p = q ∧ p < s.pages.length then f (s.page q) else s.page q := getD_lupd_cases p q f _ s.pages

theorem page_onPage_ne (s : State) (p q : Nat) (f : Page → Page) (h : q ≠ p) : (s.onPage p f).page q = s.page q :=
  (page_onPage_cases s p q f).trans (if_neg (fun e => h e.1.symm))

theorem ten_onTen_ne (s : State) (p q : Nat) (f : Ten → Ten) (h : q ≠ p) : (s.onTen p f).ten q = s.ten q :=
  (getD_lupd_cases p q f _ s.tens).trans (if_neg (fun e => h e.1.symm))

theorem arb_onArb_ne (s : State) (p q : Nat) (f : Arb → Arb) (h : q ≠ p) : (onArb p f s).arb q = s.arb q :=
  (getD_lupd_cases p q f _ s.arbs).trans (if_neg (fun e => h e.1.symm))

/-! ### Interrupts, records and the trace -/

theorem vecEval_form (p v : Nat) (s : State) : ∃ ps o, vecEval p v s = { s with pages := ps, out := o } := by
  unfold vecEval
  dsimp only
  split
  · exact ⟨_, _, rfl⟩
  · exact ⟨s.pages, s.out, rfl⟩

/-- An interrupt event changes the pages and the ports alone. -/
theorem vecEvent_form (p v : Nat) (s : State) : ∃ ps o, vecEvent p v s = { s with pages := ps, out := o } := by
  unfold vecEvent
  obtain ⟨ps, o, e⟩ := vecEval_form p v (s.onPage p (fun g =>
    { g with
      cause := g.cause ||| BitVec.ofNat 8 (2 ^ v)
      vecs := lupd v (fun w =>
        if w.en then { w with pending := w.pending + 1, oldest := if w.pending = 0 then s.ctl.lcc else w.oldest }
        else w) g.vecs }))
  exact ⟨ps, o, e⟩

/-- A record of the error log changes the log, the pages and the ports alone. -/
theorem logErr_form (e : ErrIn) (s : State) : ∃ ps o l, logErr e s = { s with pages := ps, out := o, elog := l } := by
  unfold logErr
  obtain ⟨ps, o, h⟩ := vecEvent_form mgmt 2 (logQuiet e s)
  exact ⟨ps, o, _, h⟩

theorem regRefused_form (off island : Nat) (s : State) :
    ∃ ps o l, regRefused off island s = { s with pages := ps, out := o, elog := l } := logErr_form _ s

/-- A page error changes the pages, the log and the ports alone. -/
theorem pageError_form (p code addr : Nat) (s : State) :
    ∃ ps o l, pageError p code addr s = { s with pages := ps, out := o, elog := l } := by
  have h (e : ErrIn) (f : Page → Page) : ∃ ps o l,
      (if p = mgmt then logErr e (s.onPage p f) else vecEvent p 3 (logErr e (s.onPage p f)))
        = { s with pages := ps, out := o, elog := l } := by
    obtain ⟨ps, o, l, h⟩ := logErr_form e (s.onPage p f)
    rw [h]
    split
    · exact ⟨ps, o, l, rfl⟩
    · obtain ⟨ps', o', h'⟩ := vecEvent_form p 3 { s with pages := ps, out := o, elog := l }
      exact ⟨ps', o', l, h'⟩
  exact h _ _

/-- A trace record changes the trace and the ports alone. -/
theorem trace_form (cls source gdn : Nat) (tenant : Option Nat) (handle a0 a1 a2 : Nat) (s : State) :
    ∃ tr o, trace cls source gdn tenant handle a0 a1 a2 s = { s with trc := tr, out := o } := by
  unfold trace
  dsimp only
  repeat' split
  all_goals first | exact ⟨s.trc, s.out, rfl⟩ | exact ⟨_, s.out, rfl⟩ | exact ⟨_, _, rfl⟩

/-! ### Completions -/

/-- What a completion of page `p` leaves: every field that `Untouched` names, every other page and tenant, and of page `p` its
generation, its openness, its messages, its slots and its rings' settings. -/
def Answers (p : Nat) (t s : State) : Prop :=
  Untouched t s ∧ (∀ q, q ≠ p → t.page q = s.page q ∧ t.ten q = s.ten q)
    ∧ (t.page p).gen = (s.page p).gen ∧ (t.page p).isOpen = (s.page p).isOpen ∧ (t.page p).started = (s.page p).started
    ∧ (t.page p).slots = (s.page p).slots ∧ (t.page p).ring = (s.page p).ring ∧ (t.page p).urgQueue = (s.page p).urgQueue
    ∧ t.pages.length = s.pages.length

theorem Untouched.rfl' (s : State) : Untouched s s := by
  unfold Untouched
  exact ⟨rfl, rfl, rfl, rfl, rfl, rfl, rfl, rfl, rfl, rfl, rfl, rfl, rfl, rfl, rfl, rfl, rfl, rfl, rfl, rfl, rfl, rfl⟩

theorem Untouched.trans {a b c : State} (h : Untouched a b) (k : Untouched b c) : Untouched a c := by
  unfold Untouched at *
  simp only [h, k, and_self]

theorem untouched_form (s : State) (ps : List Page) (o : Out) (ts : List Ten) (tr : Trc) :
    Untouched { s with pages := ps, out := o, tens := ts, trc := tr } s := by
  unfold Untouched
  exact ⟨rfl, rfl, rfl, rfl, rfl, rfl, rfl, rfl, rfl, rfl, rfl, rfl, rfl, rfl, rfl, rfl, rfl, rfl, rfl, rfl, rfl, rfl⟩

theorem Answers.rfl' (p : Nat) (s : State) : Answers p s s :=
  ⟨Untouched.rfl' s, fun _ _ => ⟨rfl, rfl⟩, rfl, rfl, rfl, rfl, rfl, rfl, rfl⟩

theorem Answers.trans {p : Nat} {a b c : State} (h : Answers p a b) (k : Answers p b c) : Answers p a c := by
  obtain ⟨h0, h1, h2, h3, h4, h5, h6, h7, h8⟩ := h
  obtain ⟨k0, k1, k2, k3, k4, k5, k6, k7, k8⟩ := k
  exact ⟨h0.trans k0, fun q n => ⟨(h1 q n).1.trans (k1 q n).1, (h1 q n).2.trans (k1 q n).2⟩, h2.trans k2, h3.trans k3, h4.trans k4,
    h5.trans k5, h6.trans k6, h7.trans k7, h8.trans k8⟩

theorem Answers.ite {p : Nat} {c : Prop} [Decidable c] {a b s : State} (h : Answers p a s) (k : Answers p b s) :
    Answers p (if c then a else b) s := by
  split
  · exact h
  · exact k

theorem answers_onPage (p : Nat) (f : Page → Page) (s : State)
    (h : ∀ g, (f g).gen = g.gen ∧ (f g).isOpen = g.isOpen ∧ (f g).started = g.started ∧ (f g).slots = g.slots ∧ (f g).ring = g.ring
      ∧ (f g).urgQueue = g.urgQueue) : Answers p (s.onPage p f) s := by
  refine ⟨untouched_form s _ s.out s.tens s.trc, fun q n => ⟨page_onPage_ne s p q f n, rfl⟩, ?_⟩
  rw [page_onPage_cases]
  refine ⟨?_, ?_, ?_, ?_, ?_, ?_, length_lupd _ _ _⟩ <;> split <;> first | rfl | (simp only [h])

theorem answers_onTen (p : Nat) (f : Ten → Ten) (s : State) : Answers p (s.onTen p f) s :=
  ⟨untouched_form s s.pages s.out _ s.trc, fun q n => ⟨rfl, ten_onTen_ne s p q f n⟩, rfl, rfl, rfl, rfl, rfl, rfl, rfl⟩

theorem answers_out (p : Nat) (o : Out) (s : State) : Answers p { s with out := o } s :=
  ⟨untouched_form s s.pages o s.tens s.trc, fun _ _ => ⟨rfl, rfl⟩, rfl, rfl, rfl, rfl, rfl, rfl, rfl⟩

theorem drop_lupd_zero {α : Type} (f : α → α) (l : List α) : (lupd 0 f l).drop 1 = l.drop 1 := by cases l <;> rfl

theorem unposted_posts (i : Nat) (b : Nat → Nat) (ks : List Nat) (a : Arb) :
    unposted (ks.foldl (fun a k => a.post i (b k)) a) = unposted a := by
  induction ks generalizing a with
  | nil => rfl
  | cons k ks ih =>
    refine (ih _).trans ?_
    have h : (lupd i (fun (x : Inp) => { x with posted := x.posted ++ [max 1 (b k)] }) a.inp).map (fun x => { x with posted := [] })
        = a.inp.map (fun x => { x with posted := [] }) := by
      apply map_lupd
      intro x
      rfl
    simp only [unposted, Arb.post, Arb.onInp, h]

/-- What is posted at EGRESS changes nothing else. -/
theorem answers_egress (p i n : Nat) (s : State) : Answers p (egress i n s) s := by
  refine ⟨?_, fun _ _ => ⟨rfl, rfl⟩, rfl, rfl, rfl, rfl, rfl, rfl, rfl⟩
  unfold Untouched
  refine ⟨rfl, rfl, rfl, rfl, rfl, rfl, rfl, rfl, rfl, rfl, rfl, rfl, rfl, rfl, drop_lupd_zero _ _, ?_, rfl, rfl, rfl, rfl, rfl, rfl⟩
  unfold egress onArb
  dsimp only
  cases s.arbs with
  | nil => rfl
  | cons a r => simp only [lupd, List.map_cons, unposted_posts]

theorem answers_hostWrite (p i q n : Nat) (w : HostWr) (s : State) : Answers p (hostWrite i q n w s) s :=
  (answers_egress p i n _).trans (answers_out p _ s)

theorem answers_trace (p cls source gdn : Nat) (tenant : Option Nat) (handle a0 a1 a2 : Nat) (s : State) :
    Answers p (trace cls source gdn tenant handle a0 a1 a2 s) s := by
  obtain ⟨tr, o, e⟩ := trace_form cls source gdn tenant handle a0 a1 a2 s
  rw [e]
  exact ⟨untouched_form s s.pages o s.tens tr, fun _ _ => ⟨rfl, rfl⟩, rfl, rfl, rfl, rfl, rfl, rfl, rfl⟩

theorem answers_vecEval (p v : Nat) (s : State) : Answers p (vecEval p v s) s := by
  unfold vecEval
  dsimp only
  apply Answers.ite
  · exact (answers_onPage p _ _ (by intro; exact ⟨rfl, rfl, rfl, rfl, rfl, rfl⟩)).trans (answers_out p _ s)
  · exact Answers.rfl' p s

theorem answers_vecEvent (p v : Nat) (s : State) : Answers p (vecEvent p v s) s :=
  (answers_vecEval p v _).trans (answers_onPage p _ s (by intro; exact ⟨rfl, rfl, rfl, rfl, rfl, rfl⟩))

theorem answers_budgetWarn (p : Nat) (s : State) : Answers p (budgetWarn p s) s := by
  unfold budgetWarn
  have h := answers_onTen p (fun y => { y with
    warnT := y.warnT || (!(s.ten p).warnT && ((s.ten p).budTime ≠ 0 && (s.ten p).budTime.toNat * (s.ten p).warnPct.toNat ≤ (s.ten p).useNs / 1000 * 100))
    warnB := y.warnB || (!(s.ten p).warnB && ((s.ten p).budBytes ≠ 0 && (s.ten p).budBytes.toNat * (s.ten p).warnPct.toNat ≤ (s.ten p).useBytes * 100))
    warnE := y.warnE || (!(s.ten p).warnE && ((s.ten p).budEnergy ≠ 0 && (s.ten p).budEnergy.toNat * (s.ten p).warnPct.toNat ≤ (s.ten p).useNj / 1000 * 100)) }) s
  have step : ∀ (c : Bool) (t : State), Answers p t s → Answers p (if c then vecEvent p 6 t else t) s :=
    fun c t k => Answers.ite ((answers_vecEvent p 6 t).trans k) k
  exact step _ _ (step _ _ (step _ _ h))

theorem answers_chargeTen (p n : Nat) (s : State) : Answers p (chargeTen p n s) s := by
  unfold chargeTen chargeUse
  exact Answers.ite (Answers.ite (answers_onTen p _ s) ((answers_budgetWarn p _).trans ((answers_onTen p _ _).trans (answers_onTen p _ s))))
    (Answers.rfl' p s)

theorem answers_writeCqe (p : Nat) (c : Cpl) (s : State) : Answers p (writeCqe p c s) s := by
  unfold writeCqe
  have h := (answers_chargeTen p 64 _).trans ((answers_onPage p (fun g =>
    { g with
      cqTail := if (s.page p).cqTail.toNat + 1 = 2 ^ (s.page p).cqLog2.toNat then 0 else g.cqTail + 1
      phase := g.phase != decide ((s.page p).cqTail.toNat + 1 = 2 ^ (s.page p).cqLog2.toNat)
      journal := journalTo c.hdr.tag .applied (fun x => { x with phase := .completed }) g.journal }) _
    (by intro; exact ⟨rfl, rfl, rfl, rfl, rfl, rfl⟩)).trans (answers_hostWrite p (egressGardener (s.page p).gardener.toNat) p 64 (.cqe p
      (BitVec.ofNat 64 ((s.page p).cqBase.toNat * 4096 + (s.page p).cqTail.toNat * 64))
      ⟨c.opcode, (s.page p).phase, c.hdr.gen, c.hdr.tag, c.status, (s.page p).sqHead, c.result⟩) s))
  simp only [decide_eq_true_eq]
  exact Answers.ite h ((answers_vecEvent p 0 _).trans h)

theorem answers_drainCq (p n : Nat) (s : State) : Answers p (drainCq p n s) s := by
  induction n generalizing s with
  | zero => exact Answers.rfl' p s
  | succ n ih =>
    unfold drainCq
    dsimp only
    split
    · exact Answers.rfl' p s
    · exact Answers.ite (Answers.rfl' p s) ((ih _).trans ((answers_writeCqe p _ _).trans
        (answers_onPage p _ s (by intro; exact ⟨rfl, rfl, rfl, rfl, rfl, rfl⟩))))

theorem answers_complete (p : Nat) (c : Cpl) (s : State) : Answers p (complete p c s) s := by
  unfold complete
  dsimp only
  have h := (answers_onPage p (fun g =>
    { g with journal := journalTo c.hdr.tag .started (fun x => { x with phase := .applied, entry := some c }) g.journal }) _
    (by intro; exact ⟨rfl, rfl, rfl, rfl, rfl, rfl⟩)).trans (answers_trace p 24 3 (s.page p).gardener.toNat
      (if p < 16 then some p else none) 0 (c.opcode.toNat + c.status.toNat * 65536) c.hdr.tag.toNat p s)
  exact Answers.ite ((answers_onPage p _ _ (by intro; exact ⟨rfl, rfl, rfl, rfl, rfl, rfl⟩)).trans h) ((answers_writeCqe p c _).trans h)

/-- A message that completes at its handling on a ring changes no more than `Answers` allows. -/
theorem answers_reply (p : Nat) (h : Hdr) (op : U8) (st : Nat) (res : List (Nat × Nat)) (s : State) :
    Answers p (reply p h op st res s) s := answers_complete p _ s

/-! ### NoC traffic -/

theorem exec_traffic (c : Instr) (s : State) (h : isTraffic c = true) : exec c s = inboundSettle c s := by
  cases c
  all_goals first | exact absurd h Bool.false_ne_true | rfl

/-- What NoC traffic does while the block runs, where no gardener core that restarts has to take it. -/
theorem traffic_next (c : Instr) (s : State) (h : isTraffic c = true) (r : Runs s) (g : (s.takerOf c).any s.gdnDown = false) :
    exec c s = .next (settle (nocApply c (ungate (trafficIslands c s) s))) := by
  rw [exec_traffic c s h, inboundSettle_next c s r.1 r.2.2]
  exact congrArg _ (congrArg settle (nocTake_awake c (ungate (trafficIslands c s) s) r.2.1 g))

end Sys2Proof.Machine
end

