-- ==== Sys2Proof/Laws/Quiet.lean ====
section
/-! SUPPORT. Handling a message adds none: what each operation under `handle` leaves waiting on the pages,
    and what follows
for a block on which nothing waits. -/

namespace Sys2Proof.Machine

set_option linter.unusedSimpArgs false
set_option linter.unusedVariables false

/-- The messages that wait on each page are as before. -/
abbrev Mails (t s : State) : Prop := t.pages.map mailOf = s.pages.map mailOf

theorem Mails.rfl' {s : State} : Mails s s := rfl
theorem Mails.trans {a b c : State} (h : Mails a b) (k : Mails b c) : Mails a c := Eq.trans h k

theorem mail_State_onPage (s : State) (p : Nat) (f : Page → Page) (h : ∀ g,
    mailOf (f g) = mailOf g) : Mails (s.onPage p f) s :=
  map_lupd p f mailOf h s.pages

theorem mail_each {α : Type} (l : List α) (f : α → State → State) (s : State)
    (h : ∀ a s, Mails (f a s) s) : Mails (each l f s) s := by
  unfold each
  induction l generalizing s with
  | nil => exact Mails.rfl'
  | cons a l ih => exact Mails.trans (ih _) (h a s)

theorem mIte (c : Prop) [Decidable c] (a b : State) : (if c then a else b).pages = (if c then a.pages else b.pages)
    := by
  split <;> rfl

theorem mPages (c : Prop) [Decidable c] (a b : List Page) :
    (if c then a else b).map mailOf = (if c then a.map mailOf else b.map mailOf) := by
  split <;> rfl

theorem mail_tellRestore (r : Req) (s : State) : Mails (tellRestore r s) s := by
  simp only [tellRestore, Mails, mIte, mPages, ite_self, implies_true]
  repeat' (first | with_reducible rfl | simp only [Mails, mIte, mPages, ite_self, implies_true] | split)

theorem mail_onSeed (f : Seed → Seed) (s : State) : Mails (onSeed f s) s := by
  simp only [onSeed, Mails, mIte, mPages, ite_self, implies_true]
  repeat' (first | with_reducible rfl | simp only [Mails, mIte, mPages, ite_self, implies_true] | split)

theorem mail_cacheTouch (n : Nat) (s : State) : Mails (cacheTouch n s) s := by
  simp only [cacheTouch, Mails, mIte, mPages, ite_self, implies_true, mail_onSeed]
  repeat' (first | with_reducible rfl | simp only [Mails, mIte, mPages, ite_self, implies_true, mail_onSeed] | split)

theorem mail_setChildren (p : Option ℕ) (f : ℕ → ℕ) (s : State) : Mails (setChildren p f s) s := by
  simp only [setChildren, Mails, mIte, mPages, ite_self, implies_true, mail_onSeed, mail_cacheTouch]
  repeat' (first | with_reducible rfl | simp only [Mails, mIte, mPages, ite_self, implies_true, mail_onSeed, mail_cacheTouch] | split)

theorem mail_lessChild (p : Option ℕ) (s : State) : Mails (lessChild p s) s := by
  simp only [lessChild, Mails, mIte, mPages, ite_self, implies_true, mail_setChildren]

theorem mail_onDisp (f : Disp → Disp) (s : State) : Mails (onDisp f s) s := by
  simp only [onDisp, Mails, mIte, mPages, ite_self, implies_true]
  repeat' (first | with_reducible rfl | simp only [Mails, mIte, mPages, ite_self, implies_true] | split)

theorem mail_putReads (l : List HostRd) (s : State) : Mails (putReads l s) s := by
  simp only [putReads, Mails, mIte, mPages, ite_self, implies_true]

theorem mail_askTail (t : ℕ) (k : ℕ) (s : State) : Mails (askTail t k s) s := by
  simp only [askTail, Mails, mIte, mPages, ite_self, implies_true, mail_putReads]

theorem mail_onMoves (f : List Move → List Move) (s : State) : Mails (onMoves f s) s := by
  simp only [onMoves, Mails, mIte, mPages, ite_self, implies_true]
  repeat' (first | with_reducible rfl | simp only [Mails, mIte, mPages, ite_self, implies_true] | split)

theorem mail_addRun (r : ColdRun) (s : State) : Mails (addRun r s) s := by
  simp only [addRun, Mails, mIte, mPages, ite_self, implies_true]
  repeat' (first | with_reducible rfl | simp only [Mails, mIte, mPages, ite_self, implies_true] | split)

theorem mail_queueSpill (slot : Nat) (cls : MoveFor) (s : State) : Mails (queueSpill slot cls s) s := by
  simp only [queueSpill, Mails, mIte, mPages, ite_self, implies_true, mail_onMoves]
  repeat' (first | with_reducible rfl | simp only [Mails, mIte, mPages, ite_self, implies_true, mail_onMoves] | split)

theorem mail_trace (cls : Nat) (source : Nat) (gdn : Nat) (tenant : Option Nat) (handle : Nat) (a0 : Nat) (a1 : Nat)
    (a2 : Nat) (s : State) : Mails (trace cls source gdn tenant handle a0 a1 a2 s) s := by
  simp only [trace, Mails, mIte, mPages, ite_self, implies_true]
  repeat' (first | with_reducible rfl | simp only [Mails, mIte, mPages, ite_self, implies_true] | split)

theorem mail_delNode (n : ℕ) (s : State) : Mails (delNode n s) s := by
  simp only [delNode, Mails, mIte, mPages, ite_self, implies_true, mail_onSeed, mail_cacheTouch]

theorem mail_acceptGraft (f : GraftF) (v : U16) (d : GraftDesc) (s : State) : Mails (acceptGraft f v d s) s := by
  simp only [acceptGraft, Mails, mIte, mPages, ite_self, implies_true, mail_onSeed]
  repeat' (first | with_reducible rfl | simp only [Mails, mIte, mPages, ite_self, implies_true, mail_onSeed] | split)

theorem mail_retryPassed (s : State) : Mails (retryPassed s) s := by
  simp only [retryPassed, Mails, mIte, mPages, ite_self, implies_true]

theorem mail_releaseFrame (p : ℕ) (s : State) : Mails (releaseFrame p s) s := by
  simp only [releaseFrame, Mails, mIte, mPages, ite_self, implies_true, mail_retryPassed]

theorem mail_freeRun (r : ColdRun) (s : State) : Mails (freeRun r s) s := by
  simp only [freeRun, Mails, mIte, mPages, ite_self, implies_true]
  repeat' (first | with_reducible rfl | simp only [Mails, mIte, mPages, ite_self, implies_true] | split)

theorem mail_State_onReq (s : State) (slot : Nat) (f : Req → Req) : Mails (State.onReq s slot f) s := by
  simp only [State.onReq, Mails, mIte, mPages, ite_self, implies_true]
  repeat' (first | with_reducible rfl | simp only [Mails, mIte, mPages, ite_self, implies_true] | split)

theorem mail_setRef (p : Nat) (c : Nat) (s : State) : Mails (setRef p c s) s := by
  simp only [setRef, Mails, mIte, mPages, ite_self, implies_true]
  repeat' (first | with_reducible rfl | simp only [Mails, mIte, mPages, ite_self, implies_true] | split)

theorem mail_flushNote (s : State) : Mails (flushNote s) s := by
  simp only [flushNote, Mails, List.map_map]
  rfl

theorem mail_logQuiet (e : ErrIn) (s : State) : Mails (logQuiet e s) s := by
  simp only [logQuiet, Mails, mIte, mPages, ite_self, implies_true]
  repeat' (first | with_reducible rfl | simp only [Mails, mIte, mPages, ite_self, implies_true] | split)

theorem mail_handOver (a0 : U32) (ev : RowEv) (s : State) : Mails (handOver a0 ev s) s := by
  simp only [handOver, Mails, mIte, mPages, ite_self, implies_true]
  repeat' (first | with_reducible rfl | simp only [Mails, mIte, mPages, ite_self, implies_true] | split)

theorem mail_removeItems (pick : Item → Bool) (s : State) : Mails (removeItems pick s) s := by
  simp only [removeItems, Mails, mIte, mPages, ite_self, implies_true, mail_onDisp]
  repeat' (first | with_reducible rfl | simp only [Mails, mIte, mPages, ite_self, implies_true, mail_onDisp] | split)

theorem mail_State_onTen (s : State) (t : Nat) (f : Ten → Ten) : Mails (State.onTen s t f) s := by
  simp only [State.onTen, Mails, mIte, mPages, ite_self, implies_true]
  repeat' (first | with_reducible rfl | simp only [Mails, mIte, mPages, ite_self, implies_true] | split)

theorem mail_askSensor (i : Nat) (s : State) : Mails (askSensor i s) s := by
  simp only [askSensor, Mails, mIte, mPages, ite_self, implies_true]
  repeat' (first | with_reducible rfl | simp only [Mails, mIte, mPages, ite_self, implies_true] | split)

theorem mail_startWait (p : Nat) (h : Hdr) (op : U8) (w : Wait) (s : State) : Mails (startWait p h op w s) s :=
  mail_State_onPage _ _ _ (fun _ => rfl)

theorem mail_State_onSlot (s : State) (m : Nat) (f : Slot → Slot) : Mails (State.onSlot s m f) s := by
  simp only [State.onSlot, Mails, mIte, mPages, ite_self, implies_true]
  repeat' (first | with_reducible rfl | simp only [Mails, mIte, mPages, ite_self, implies_true] | split)

theorem mail_acceptEvict (m : Nat) (s : State) : Mails (acceptEvict m s) s := by
  simp only [acceptEvict, Mails, mIte, mPages, ite_self, implies_true, mail_State_onSlot, mail_onSeed]
  repeat' (first | with_reducible rfl | simp only [Mails, mIte, mPages, ite_self, implies_true, mail_State_onSlot, mail_onSeed] | split)

theorem mail_onSpool (t : Nat) (k : Nat) (f : Spool → Spool) (s : State) : Mails (onSpool t k f s) s := by
  simp only [onSpool, Mails, mIte, mPages, ite_self, implies_true, mail_State_onTen]
  repeat' (first | with_reducible rfl | simp only [Mails, mIte, mPages, ite_self, implies_true, mail_State_onTen] | split)

theorem mail_State_onReqH (s : State) (a1 : U32) (f : Req → Req) : Mails (State.onReqH s a1 f) s := by
  simp only [State.onReqH, Mails, mIte, mPages, ite_self, implies_true, mail_State_onReq]
  repeat' (first | with_reducible rfl | simp only [Mails, mIte, mPages, ite_self, implies_true, mail_State_onReq] | split)

theorem mail_offerBack (h : U32) (s : State) : Mails (offerBack h s) s := by
  simp only [offerBack, Mails, mIte, mPages, ite_self, implies_true, mail_State_onReqH]

theorem mail_restoreEnd (slot : ℕ) (s : State) : Mails (restoreEnd slot s) s := by
  simp only [restoreEnd, Mails, mIte, mPages, ite_self, implies_true, mail_offerBack, mail_State_onReq]
  repeat' (first | with_reducible rfl | simp only [Mails, mIte, mPages, ite_self, implies_true, mail_offerBack, mail_State_onReq] | split)

theorem mail_onArb (i : ℕ) (f : Arb → Arb) (s : State) : Mails (onArb i f s) s := by
  simp only [onArb, Mails, mIte, mPages, ite_self, implies_true]

theorem mail_egress (i : ℕ) (n : ℕ) (s : State) : Mails (egress i n s) s := by
  simp only [egress, Mails, mIte, mPages, ite_self, implies_true, mail_onArb]

theorem mail_gdnWrite (p : ℕ) (n : ℕ) (s : State) : Mails (gdnWrite p n s) s := by
  simp only [gdnWrite, Mails, mIte, mPages, ite_self, implies_true, mail_egress]

theorem mail_setProfile (t : ℕ) (f : ProfileF) (bias : List (ℕ × U32)) (s : State) : Mails (setProfile t f bias s) s := by
  simp only [setProfile, Mails, mIte, mPages, ite_self, implies_true, mail_gdnWrite, mail_State_onTen]

theorem mail_setEnt (slot : Nat) (j : Nat) (f : PlotEnt → PlotEnt) (s : State) : Mails (setEnt slot j f s) s := by
  simp only [setEnt, Mails, mIte, mPages, ite_self, implies_true, mail_State_onReq]
  repeat' (first | with_reducible rfl | simp only [Mails, mIte, mPages, ite_self, implies_true, mail_State_onReq] | split)

theorem mail_dropRef (p : Nat) (s : State) : Mails (dropRef p s) s := by
  simp only [dropRef, Mails, mIte, mPages, ite_self, implies_true, mail_releaseFrame, mail_setRef]
  repeat' (first | with_reducible rfl | simp only [Mails, mIte, mPages, ite_self, implies_true, mail_releaseFrame, mail_setRef] | split)

theorem mail_dropPlot (slot : Nat) (j : Nat) (s : State) : Mails (dropPlot slot j s) s := by
  simp only [dropPlot, Mails, mIte, mPages, ite_self, implies_true, mail_setEnt, mail_dropRef]
  repeat' (first | with_reducible rfl | simp only [Mails, mIte, mPages, ite_self, implies_true, mail_setEnt, mail_dropRef] | split)

theorem mail_vecEval (p : Nat) (v : Nat) (s : State) : Mails (vecEval p v s) s := by
  simp only [vecEval]
  split
  · exact mail_State_onPage _ _ _ (fun _ => rfl)
  · exact Mails.rfl'

theorem mail_hSetting (a0 : Hdr) (op : U8) (a2 : Setting) (s : State) : Mails (hSetting a0 op a2 s) s := by
  simp only [hSetting, Mails, mIte, mPages, ite_self, implies_true, mail_startWait]
  repeat' (first | with_reducible rfl | simp only [Mails, mIte, mPages, ite_self, implies_true, mail_startWait] | split)

theorem mail_putNode (n : Nat) (a1 : Node) (s : State) : Mails (putNode n a1 s) s := by
  simp only [putNode, Mails, mIte, mPages, ite_self, implies_true, mail_cacheTouch, mail_onSeed]
  repeat' (first | with_reducible rfl | simp only [Mails, mIte, mPages, ite_self, implies_true, mail_cacheTouch, mail_onSeed] | split)

theorem mail_evictNode (n : Nat) (s : State) : Mails (evictNode n s) s := by
  simp only [evictNode, Mails, mIte, mPages, ite_self, implies_true, mail_lessChild, mail_delNode, mail_dropRef]
  repeat' (first | with_reducible rfl | simp only [Mails, mIte, mPages, ite_self, implies_true, mail_lessChild, mail_delNode, mail_dropRef] | split)

theorem mail_stopRestore (slot : Nat) (s : State) : Mails (stopRestore slot s) s := by
  simp (disch := (intros; repeat' (first | with_reducible rfl | simp only [mailOf] | simp only [Mails, mIte, mPages, ite_self, implies_true, mail_each, mail_dropRef, mail_onMoves] | split))) only [stopRestore, Mails, mIte, mPages, ite_self, implies_true, mail_each, mail_dropRef, mail_onMoves]
  repeat' (first | with_reducible rfl | simp (disch := (intros; repeat' (first | with_reducible rfl | simp only [mailOf] | simp only [Mails, mIte, mPages, ite_self, implies_true, mail_each, mail_dropRef, mail_onMoves] | split))) only [Mails, mIte, mPages, ite_self, implies_true, mail_each, mail_dropRef, mail_onMoves] | split)

theorem mail_rollUp (a0 : U32) (s : State) : Mails (rollUp a0 s) s := by
  simp only [rollUp, Mails, mIte, mPages, ite_self, implies_true, mail_State_onTen, mail_State_onReqH]
  repeat' (first | with_reducible rfl | simp only [Mails, mIte, mPages, ite_self, implies_true, mail_State_onTen, mail_State_onReqH] | split)

theorem mail_cutTable (slot : ℕ) (j : ℕ) (s : State) : Mails (cutTable slot j s) s := by
  simp (disch := (intros; repeat' (first | with_reducible rfl | simp only [mailOf] | simp only [Mails, mIte, mPages, ite_self, implies_true, mail_onMoves, mail_each, mail_freeRun, mail_State_onReq, mail_dropRef] | split))) only [cutTable, Mails, mIte, mPages, ite_self, implies_true, mail_onMoves, mail_each, mail_freeRun, mail_State_onReq, mail_dropRef]
  repeat' (first | with_reducible rfl | simp (disch := (intros; repeat' (first | with_reducible rfl | simp only [mailOf] | simp only [Mails, mIte, mPages, ite_self, implies_true, mail_onMoves, mail_each, mail_freeRun, mail_State_onReq, mail_dropRef] | split))) only [Mails, mIte, mPages, ite_self, implies_true, mail_onMoves, mail_each, mail_freeRun, mail_State_onReq, mail_dropRef] | split)

theorem mail_vecEvent (p : Nat) (v : Nat) (s : State) : Mails (vecEvent p v s) s :=
  (mail_vecEval ..).trans (mail_State_onPage _ _ _ (fun _ => rfl))

theorem mail_freeBlock (m : ℕ) (n : ℕ) (s : State) : Mails (freeBlock m n s) s := by
  simp only [freeBlock, Mails, mIte, mPages, ite_self, implies_true]

theorem mail_dropTable (slot : ℕ) (s : State) : Mails (dropTable slot s) s := by
  simp (disch := (intros; repeat' (first | with_reducible rfl | simp only [mailOf] | simp only [Mails, mIte, mPages, ite_self, implies_true, mail_onMoves, mail_each, mail_freeRun, mail_freeBlock, mail_State_onReq, mail_dropRef] | split))) only [dropTable, Mails, mIte, mPages, ite_self, implies_true, mail_onMoves, mail_each, mail_freeRun, mail_freeBlock, mail_State_onReq, mail_dropRef]
  repeat' (first | with_reducible rfl | simp (disch := (intros; repeat' (first | with_reducible rfl | simp only [mailOf] | simp only [Mails, mIte, mPages, ite_self, implies_true, mail_onMoves, mail_each, mail_freeRun, mail_freeBlock, mail_State_onReq, mail_dropRef] | split))) only [Mails, mIte, mPages, ite_self, implies_true, mail_onMoves, mail_each, mail_freeRun, mail_freeBlock, mail_State_onReq, mail_dropRef] | split)

theorem mail_dropCands (s : State) : Mails (dropCands s) s := by
  simp only [dropCands, Mails, mIte, mPages, ite_self, implies_true, mail_onSeed]

theorem mail_pinNodes (up : Bool) (ns : List ℕ) (s : State) : Mails (pinNodes up ns s) s := by
  simp (disch := (intros; repeat' (first | with_reducible rfl | simp only [mailOf] | simp only [Mails, mIte, mPages, ite_self, implies_true, mail_each, mail_dropCands, mail_putNode] | split))) only [pinNodes, Mails, mIte, mPages, ite_self, implies_true, mail_each, mail_dropCands, mail_putNode]
  repeat' (first | with_reducible rfl | simp (disch := (intros; repeat' (first | with_reducible rfl | simp only [mailOf] | simp only [Mails, mIte, mPages, ite_self, implies_true, mail_each, mail_dropCands, mail_putNode] | split))) only [Mails, mIte, mPages, ite_self, implies_true, mail_each, mail_dropCands, mail_putNode] | split)

theorem mail_moveReq (a0 : U32) (st : RState) (s : State) : Mails (moveReq a0 st s) s := by
  simp only [moveReq, Mails, mIte, mPages, ite_self, implies_true, mail_State_onReqH, mail_vecEvent, mail_trace]
  repeat' (first | with_reducible rfl | simp only [Mails, mIte, mPages, ite_self, implies_true, mail_State_onReqH, mail_vecEvent, mail_trace] | split)

theorem mail_dropRowItems (row : BitVec 13) (flow : Option (BitVec 12)) (s : State) : Mails (dropRowItems row flow s) s := by
  simp only [dropRowItems, Mails, mIte, mPages, ite_self, implies_true, mail_removeItems, mail_onDisp]
  repeat' (first | with_reducible rfl | simp only [Mails, mIte, mPages, ite_self, implies_true, mail_removeItems, mail_onDisp] | split)

theorem mail_onMirror (h : U32) (f : Mirror → Mirror) (s : State) : Mails (onMirror h f s) s := by
  simp only [onMirror, Mails, mIte, mPages, ite_self, implies_true]

theorem mail_dropChunk (h : U32) (s : State) : Mails (dropChunk h s) s := by
  simp only [dropChunk, Mails, mIte, mPages, ite_self, implies_true, mail_dropRowItems, mail_onMirror, mail_State_onReqH]
  repeat' (first | with_reducible rfl | simp only [Mails, mIte, mPages, ite_self, implies_true, mail_dropRowItems, mail_onMirror, mail_State_onReqH] | split)

theorem mail_logErr (e : ErrIn) (s : State) : Mails (logErr e s) s := by
  simp only [logErr, Mails, mIte, mPages, ite_self, implies_true, mail_vecEvent, mail_logQuiet]
  repeat' (first | with_reducible rfl | simp only [Mails, mIte, mPages, ite_self, implies_true, mail_vecEvent, mail_logQuiet] | split)

theorem mail_raiseRef (p : Nat) (s t : State) (h : raiseRef p s = some t) : Mails t s := by
  simp only [raiseRef] at h
  repeat' split at h
  all_goals first | (cases h; done) | (cases h; first | exact Mails.rfl' | exact mail_setRef ..)

theorem mail_insertNode (slot j : Nat) (key : Key) (parent : Option Nat) (s : State) :
    Mails (insertNode slot j key parent s).1 s := by
  simp only [insertNode]
  split
  · exact Mails.rfl'
  · split
    · exact Mails.rfl'
    · split
      · exact mail_onSeed ..
      · split
        · exact mail_evictNode ..
        · rename_i _ _ _ _ _ _ _ _ _ _ _ h
          have := mail_raiseRef _ _ _ h
          exact (mail_setEnt ..).trans ((mail_dropCands ..).trans ((mail_setChildren ..).trans ((mail_putNode ..).trans (this.trans (mail_evictNode ..)))))

theorem mail_leaveRow (a0 : U32) (s : State) : Mails (leaveRow a0 s) s := by
  simp only [leaveRow, Mails, mIte, mPages, ite_self, implies_true, mail_dropChunk, mail_rollUp, mail_State_onReqH]
  repeat' (first | with_reducible rfl | simp only [Mails, mIte, mPages, ite_self, implies_true, mail_dropChunk, mail_rollUp, mail_State_onReqH] | split)

theorem mail_quotaCheck (t : Nat) (s : State) : Mails (quotaCheck t s) s := by
  simp only [quotaCheck, Mails, mIte, mPages, ite_self, implies_true, mail_State_onTen, mail_vecEvent]
  repeat' (first | with_reducible rfl | simp only [Mails, mIte, mPages, ite_self, implies_true, mail_State_onTen, mail_vecEvent] | split)

theorem mail_completeUrg (p slot : Nat) (irq : Bool) (st : Nat) (r0 r1 r2 : U64) (s : State) :
    Mails (completeUrg p slot irq st r0 r1 r2 s) s := by
  simp only [completeUrg]
  split
  · exact (mail_vecEvent ..).trans (mail_State_onPage _ _ _ (fun _ => rfl))
  · exact mail_State_onPage _ _ _ (fun _ => rfl)

theorem mail_putCopy (i : ℕ) (c : CopyReq) (s : State) : Mails (putCopy i c s) s := by
  simp only [putCopy, Mails, mIte, mPages, ite_self, implies_true, mail_onArb]

theorem mail_tableOut (slot : ℕ) (r : Req) (s : State) : Mails (tableOut slot r s) s := by
  simp only [tableOut, Mails, mIte, mPages, ite_self, implies_true, mail_addRun, mail_putCopy, mail_State_onReq]
  repeat' (first | with_reducible rfl | simp only [Mails, mIte, mPages, ite_self, implies_true, mail_addRun, mail_putCopy, mail_State_onReq] | split)

theorem mail_spillEnd (slot : ℕ) (s : State) : Mails (spillEnd slot s) s := by
  simp only [spillEnd, Mails, mIte, mPages, ite_self, implies_true, mail_moveReq, mail_tableOut]
  repeat' (first | with_reducible rfl | simp only [Mails, mIte, mPages, ite_self, implies_true, mail_moveReq, mail_tableOut] | split)

theorem mail_unoffer (h : U32) (s : State) : Mails (unoffer h s) s := by
  simp only [unoffer, Mails, mIte, mPages, ite_self, implies_true, mail_stopRestore, mail_State_onReqH]
  repeat' (first | with_reducible rfl | simp only [Mails, mIte, mPages, ite_self, implies_true, mail_stopRestore, mail_State_onReqH] | split)

theorem mail_flushOne (h : U32) (s : State) : Mails (flushOne h s) s := by
  simp only [flushOne, Mails, mIte, mPages, ite_self, implies_true, mail_queueSpill, mail_unoffer, mail_spillEnd]

theorem mail_budgetWarn (t : Nat) (s : State) : Mails (budgetWarn t s) s := by
  simp only [budgetWarn, Mails, mIte, mPages, ite_self, implies_true, mail_State_onTen, mail_vecEvent]
  repeat' (first | with_reducible rfl | simp only [Mails, mIte, mPages, ite_self, implies_true, mail_State_onTen, mail_vecEvent] | split)

theorem mail_ghEvent (kind : Nat) (cause : Nat) (model : Nat) (slot : Nat) (region : Nat) (ver : Nat) (s : State) :
    Mails (ghEvent kind cause model slot region ver s) s := by
  simp only [ghEvent, Mails, mIte, mPages, ite_self, implies_true, mail_vecEvent]
  repeat' (first | with_reducible rfl | simp only [Mails, mIte, mPages, ite_self, implies_true, mail_vecEvent] | split)

theorem mail_chargeUse (t : Nat) (c : Ledg) (s : State) : Mails (chargeUse t c s) s := by
  simp only [chargeUse, Mails, mIte, mPages, ite_self, implies_true, mail_budgetWarn, mail_State_onTen]
  repeat' (first | with_reducible rfl | simp only [Mails, mIte, mPages, ite_self, implies_true, mail_budgetWarn, mail_State_onTen] | split)

theorem mail_pageError (p code addr : Nat) (s : State) : Mails (pageError p code addr s) s := by
  simp only [pageError]
  split
  · exact (mail_logErr ..).trans (mail_State_onPage _ _ _ (fun _ => rfl))
  · exact (mail_vecEvent ..).trans ((mail_logErr ..).trans (mail_State_onPage _ _ _ (fun _ => rfl)))

theorem mail_chargeTen (t : Nat) (n : Nat) (s : State) : Mails (chargeTen t n s) s := by
  simp only [chargeTen, Mails, mIte, mPages, ite_self, implies_true, mail_chargeUse, mail_State_onTen]
  repeat' (first | with_reducible rfl | simp only [Mails, mIte, mPages, ite_self, implies_true, mail_chargeUse, mail_State_onTen] | split)

theorem mail_writeCqe (p : Nat) (c : Cpl) (s : State) : Mails (writeCqe p c s) s := by
  simp only [writeCqe]
  split
  · exact (mail_chargeTen ..).trans (mail_State_onPage _ _ _ (fun _ => rfl))
  · exact (mail_vecEvent ..).trans ((mail_chargeTen ..).trans (mail_State_onPage _ _ _ (fun _ => rfl)))

theorem mail_publish (slot : Nat) (key : Key) (l : List Nat) (parent : Option Nat) (s : State) :
    Mails (publish slot key l parent s).1 s := by
  induction l generalizing parent s with
  | nil => exact Mails.rfl'
  | cons j js ih =>
    simp only [publish]
    split
    · exact Mails.rfl'
    · split
      · exact ih ..
      · split
        · rename_i h
          have := mail_insertNode slot j key parent s
          rw [h] at this
          exact (ih ..).trans this
        · rename_i h
          have := mail_insertNode slot j key parent s
          rw [h] at this
          exact this

theorem mail_hostFault (p : Nat) (detail : Nat) (addr : Nat) (handle : Nat) (s : State) : Mails (hostFault p detail
    addr handle s) s := by
  simp only [hostFault, Mails, mIte, mPages, ite_self, implies_true, mail_logErr]
  repeat' (first | with_reducible rfl | simp only [Mails, mIte, mPages, ite_self, implies_true, mail_logErr] | split)

theorem mail_linkCheck (s : State) : Mails (linkCheck s) s := by
  simp (disch := (intros; repeat' (first | with_reducible rfl | simp only [mailOf] | simp only [Mails, mIte, mPages, ite_self, implies_true, mail_each, mail_ghEvent, mail_State_onSlot] | split))) only [linkCheck, Mails, mIte, mPages, ite_self, implies_true, mail_each, mail_ghEvent, mail_State_onSlot]
  repeat' (first | with_reducible rfl | simp (disch := (intros; repeat' (first | with_reducible rfl | simp only [mailOf] | simp only [Mails, mIte, mPages, ite_self, implies_true, mail_each, mail_ghEvent, mail_State_onSlot] | split))) only [Mails, mIte, mPages, ite_self, implies_true, mail_each, mail_ghEvent, mail_State_onSlot] | split)

theorem mail_admitAccept (t : ℕ) (h : Hdr) (f : AdmitF) (s : State) : Mails (admitAccept t h f s) s := by
  simp only [admitAccept, Mails, mIte, mPages, ite_self, implies_true, mail_onSpool, mail_startWait, mail_gdnWrite, mail_quotaCheck]

theorem mail_gleanGrafts (s : State) : Mails (gleanGrafts s) s := by
  simp (disch := (intros; repeat' (first | with_reducible rfl | simp only [mailOf] | simp only [Mails, mIte, mPages, ite_self, implies_true, mail_each, mail_ghEvent] | split))) only [gleanGrafts, Mails, mIte, mPages, ite_self, implies_true, mail_each, mail_ghEvent]
  repeat' (first | with_reducible rfl | simp (disch := (intros; repeat' (first | with_reducible rfl | simp only [mailOf] | simp only [Mails, mIte, mPages, ite_self, implies_true, mail_each, mail_ghEvent] | split))) only [Mails, mIte, mPages, ite_self, implies_true, mail_each, mail_ghEvent] | split)

theorem mail_chargeReq (a0 : U32) (c : Ledg) (s : State) : Mails (chargeReq a0 c s) s := by
  simp only [chargeReq, Mails, mIte, mPages, ite_self, implies_true, mail_chargeUse, mail_State_onTen,
    mail_State_onReqH]
  repeat' (first | with_reducible rfl | simp only [Mails, mIte, mPages, ite_self, implies_true, mail_chargeUse, mail_State_onTen, mail_State_onReqH] | split)

theorem mail_traceMsg (p : ℕ) (op : U8) (st : ℕ) (tag : U16) (s : State) : Mails (traceMsg p op st tag s) s := by
  simp only [traceMsg, Mails, mIte, mPages, ite_self, implies_true, mail_trace]

theorem mail_complete (p : ℕ) (c : Cpl) (s : State) : Mails (complete p c s) s := by
  have h : Mails ((traceMsg p c.opcode c.status.toNat c.hdr.tag s).onPage p (fun g =>
      { g with journal := journalTo c.hdr.tag .started (fun x => { x with phase := .applied, entry := some c }) g.journal })) s := by
    refine Mails.trans (mail_State_onPage _ _ _ ?_) (mail_traceMsg p c.opcode c.status.toNat c.hdr.tag s)
    intro g
    rfl
  simp only [complete]
  split
  · refine Mails.trans (mail_State_onPage _ _ _ ?_) h
    intro g
    rfl
  · exact (mail_writeCqe ..).trans h

theorem mail_launchMove (m : Move) (run : ColdRun) (s : State) : Mails (launchMove m run s) s := by
  simp only [launchMove, moveCopy, Mails, mIte, mPages, ite_self, implies_true, mail_onMoves, mail_putCopy]

theorem Mails.ite {c : Prop} [Decidable c] {a b s : State} (h : Mails a s) (k : Mails b s) : Mails (if c then a else b) s := by
  split
  · exact h
  · exact k

theorem mail_startMoves (n : Nat) (s : State) : Mails (startMoves n s) s := by
  induction n generalizing s with
  | zero => exact Mails.rfl'
  | succ n ih =>
    simp only [startMoves]
    refine Mails.ite Mails.rfl' ?_
    split
    · exact Mails.rfl'
    · refine Mails.ite ((ih _).trans ?_) ?_
      · split
        · exact mail_launchMove ..
        · exact mail_onMoves ..
      · split
        · exact (ih _).trans ((mail_launchMove ..).trans (mail_addRun ..))
        · refine Mails.ite ((ih _).trans ((mail_spillEnd ..).trans ((mail_dropPlot ..).trans (mail_onMoves ..)))) ?_
          exact (ih _).trans (mail_onMoves ..)

theorem mail_freeReq (a0 : U32) (s : State) : Mails (freeReq a0 s) s := by
  simp only [freeReq, Mails, mIte, mPages, ite_self, implies_true, mail_onSpool, mail_quotaCheck]
  repeat' (first | with_reducible rfl | simp only [Mails, mIte, mPages, ite_self, implies_true, mail_onSpool, mail_quotaCheck] | split)

theorem mail_acceptLoad (f : ModelLoadF) (d : ModelDesc) (base : Nat) (s : State) : Mails (acceptLoad f d base s) s
    := by
  simp only [acceptLoad, Mails, mIte, mPages, ite_self, implies_true, mail_linkCheck, mail_State_onSlot]
  repeat' (first | with_reducible rfl | simp only [Mails, mIte, mPages, ite_self, implies_true, mail_linkCheck, mail_State_onSlot] | split)

theorem mail_graftRetire (g : Nat) (s : State) : Mails (graftRetire g s) s := by
  simp only [graftRetire, Mails, mIte, mPages, ite_self, implies_true, mail_gleanGrafts]
  repeat' (first | with_reducible rfl | simp only [Mails, mIte, mPages, ite_self, implies_true, mail_gleanGrafts] | split)

theorem mail_budgetRow (h : U32) (s : State) : Mails (budgetRow h s) s := by
  simp only [budgetRow, Mails, mIte, mPages, ite_self, implies_true, mail_handOver, mail_State_onReqH]
  repeat' (first | with_reducible rfl | simp only [Mails, mIte, mPages, ite_self, implies_true, mail_handOver, mail_State_onReqH] | split)

theorem mail_hostWrite (i : ℕ) (p : ℕ) (n : ℕ) (w : HostWr) (s : State) : Mails (hostWrite i p n w s) s := by
  simp only [hostWrite, Mails, mIte, mPages, ite_self, implies_true, mail_egress]

theorem mail_releaseReq (h : U32) (s : State) : Mails (releaseReq h s) s := by
  simp only [releaseReq, Mails, mIte, mPages, ite_self, implies_true, mail_budgetRow, mail_onSpool, mail_chargeReq, mail_each, mail_askTail, mail_freeReq, mail_vecEvent, mail_egress, mail_State_onReqH, mail_hostWrite]
  repeat' (first | with_reducible rfl | simp only [Mails, mIte, mPages, ite_self, implies_true, mail_budgetRow, mail_onSpool, mail_chargeReq, mail_each, mail_askTail, mail_freeReq, mail_vecEvent, mail_egress, mail_State_onReqH, mail_hostWrite] | split)

theorem mail_replyVia (p : ℕ) (via : Via) (op : U8) (st : ℕ) (res : List (ℕ × ℕ)) (r0 : ℕ) (r1 : ℕ) (s : State) : Mails (replyVia p via op st res r0 r1 s) s := by
  simp only [replyVia, Mails, mIte, mPages, ite_self, implies_true, mail_completeUrg, mail_complete, mail_traceMsg]
  repeat' (first | with_reducible rfl | simp only [Mails, mIte, mPages, ite_self, implies_true, mail_completeUrg, mail_complete, mail_traceMsg] | split)

theorem mail_finish (p : Nat) (pick : Started → Option (Nat × List (Nat × Nat))) (s : State) :
    Mails (finish p pick s) s := by
  simp only [finish]
  refine Mails.trans (mail_each _ _ _ fun x s => ?_) (mail_State_onPage _ _ _ (fun _ => rfl))
  repeat' split
  all_goals first | exact Mails.rfl' | exact mail_complete ..

theorem mail_pumpMoves (s : State) : Mails (pumpMoves s) s := by
  simp only [pumpMoves, Mails, mIte, mPages, ite_self, implies_true, mail_startMoves]
  repeat' (first | with_reducible rfl | simp only [Mails, mIte, mPages, ite_self, implies_true, mail_startMoves] | split)

theorem mail_hTimeXchg (p : Nat) (via : Via) (f : TimeF) (s : State) : Mails (hTimeXchg p via f s) s := by
  simp only [hTimeXchg, Mails, mIte, mPages, ite_self, implies_true, mail_replyVia]
  repeat' (first | with_reducible rfl | simp only [Mails, mIte, mPages, ite_self, implies_true, mail_replyVia] | split)

theorem mail_reply (p : Nat) (a1 : Hdr) (op : U8) (st : Nat) (res : List (Nat × Nat)) (s : State) : Mails (reply p
    a1 op st res s) s := by
  simp only [reply, Mails, mIte, mPages, ite_self, implies_true, mail_replyVia]
  repeat' (first | with_reducible rfl | simp only [Mails, mIte, mPages, ite_self, implies_true, mail_replyVia] | split)

theorem mail_hGraftRetire (a0 : Hdr) (f : RetireF) (s : State) : Mails (hGraftRetire a0 f s) s := by
  simp only [hGraftRetire, Mails, mIte, mPages, ite_self, implies_true, mail_reply, mail_graftRetire]
  repeat' (first | with_reducible rfl | simp only [Mails, mIte, mPages, ite_self, implies_true, mail_reply, mail_graftRetire] | split)

theorem mail_takeLoad (a0 : Hdr) (f : ModelLoadF) (d : ModelDesc) (room : Option Nat) (s : State) : Mails (takeLoad
    a0 f d room s) s := by
  simp only [takeLoad, Mails, mIte, mPages, ite_self, implies_true, mail_reply, mail_acceptLoad]
  repeat' (first | with_reducible rfl | simp only [Mails, mIte, mPages, ite_self, implies_true, mail_reply, mail_acceptLoad] | split)

theorem mail_hModelEvict (a0 : Hdr) (f : EvictF) (s : State) : Mails (hModelEvict a0 f s) s := by
  simp only [hModelEvict, Mails, mIte, mPages, ite_self, implies_true, mail_reply, mail_acceptEvict, mail_startWait]
  repeat' (first | with_reducible rfl | simp only [Mails, mIte, mPages, ite_self, implies_true, mail_reply, mail_acceptEvict, mail_startWait] | split)

theorem mail_startRestore (slot : ℕ) (s : State) : Mails (startRestore slot s) s := by
  simp (disch := (intros; repeat' (first | with_reducible rfl | simp only [mailOf] | simp only [Mails, mIte, mPages, ite_self, implies_true, mail_pumpMoves, mail_onMoves, mail_each, mail_freeRun, mail_restoreEnd, mail_putCopy, mail_setRef, mail_cutTable, mail_tellRestore, mail_State_onReq] | split))) only [startRestore, Mails, mIte, mPages, ite_self, implies_true, mail_pumpMoves, mail_onMoves, mail_each, mail_freeRun, mail_restoreEnd, mail_putCopy, mail_setRef, mail_cutTable, mail_tellRestore, mail_State_onReq]
  repeat' (first | with_reducible rfl | simp (disch := (intros; repeat' (first | with_reducible rfl | simp only [mailOf] | simp only [Mails, mIte, mPages, ite_self, implies_true, mail_pumpMoves, mail_onMoves, mail_each, mail_freeRun, mail_restoreEnd, mail_putCopy, mail_setRef, mail_cutTable, mail_tellRestore, mail_State_onReq] | split))) only [Mails, mIte, mPages, ite_self, implies_true, mail_pumpMoves, mail_onMoves, mail_each, mail_freeRun, mail_restoreEnd, mail_putCopy, mail_setRef, mail_cutTable, mail_tellRestore, mail_State_onReq] | split)

theorem mail_finishAll (pick : Nat → Started → Option (Nat × List (Nat × Nat))) (s : State) : Mails (finishAll pick
    s) s := by
  simp (disch := (intros; repeat' (first | with_reducible rfl | simp only [mailOf] | simp only [Mails, mIte, mPages, ite_self, implies_true, mail_each, mail_finish] | split))) only [finishAll, Mails, mIte, mPages, ite_self, implies_true, mail_each, mail_finish]
  repeat' (first | with_reducible rfl | simp (disch := (intros; repeat' (first | with_reducible rfl | simp only [mailOf] | simp only [Mails, mIte, mPages, ite_self, implies_true, mail_each, mail_finish] | split))) only [Mails, mIte, mPages, ite_self, implies_true, mail_each, mail_finish] | split)

theorem mail_hSetBudget (a0 : Hdr) (f : BudgetF) (s : State) : Mails (hSetBudget a0 f s) s := by
  simp only [hSetBudget, Mails, mIte, mPages, ite_self, implies_true, mail_State_onTen, mail_reply, mail_quotaCheck]
  repeat' (first | with_reducible rfl | simp only [Mails, mIte, mPages, ite_self, implies_true, mail_State_onTen, mail_reply, mail_quotaCheck] | split)

theorem mail_startRestores (n : Nat) (s : State) : Mails (startRestores n s) s := by
  induction n generalizing s with
  | zero => exact Mails.rfl'
  | succ n ih =>
    simp only [startRestores]
    repeat' split
    all_goals first | exact Mails.rfl' | exact (ih _).trans (mail_startRestore ..)

theorem mail_hSetCyclic (a0 : Hdr) (f : CyclicF) (s : State) : Mails (hSetCyclic a0 f s) s := by
  simp only [hSetCyclic, Mails, mIte, mPages, ite_self, implies_true, mail_reply, mail_hSetting]
  repeat' (first | with_reducible rfl | simp only [Mails, mIte, mPages, ite_self, implies_true, mail_reply, mail_hSetting] | split)

theorem mail_traceQuit (s : State) : Mails (traceQuit s) s := by
  simp only [traceQuit, Mails, mIte, mPages, ite_self, implies_true, mail_each, mail_onArb]

theorem mail_traceIssue (k : ℕ) (s : State) : Mails (traceIssue k s) s := by
  simp only [traceIssue, Mails, mIte, mPages, ite_self, implies_true]
  repeat' (first | with_reducible rfl | simp only [Mails, mIte, mPages, ite_self, implies_true] | split)

theorem mail_traceNext (s : State) : Mails (traceNext s) s := by
  simp only [traceNext, Mails, mIte, mPages, ite_self, implies_true, mail_traceIssue]
  repeat' (first | with_reducible rfl | simp only [Mails, mIte, mPages, ite_self, implies_true, mail_traceIssue] | split)

theorem mail_traceDrain (n : Nat) (s : State) : Mails (traceDrain n s) s := by
  induction n generalizing s with
  | zero => exact Mails.rfl'
  | succ n ih => exact (ih _).trans (mail_traceNext _)

theorem mail_traceFlush (s : State) : Mails (traceFlush s) s := by
  simp only [traceFlush, Mails, mIte, mPages, ite_self, implies_true, mail_traceQuit, mail_traceDrain]

theorem mail_hTraceConfig (a0 : Hdr) (f : TraceF) (s : State) : Mails (hTraceConfig a0 f s) s := by
  simp only [hTraceConfig, Mails, mIte, mPages, ite_self, implies_true, mail_reply, mail_traceFlush]
  repeat' (first | with_reducible rfl | simp only [Mails, mIte, mPages, ite_self, implies_true, mail_reply, mail_traceFlush] | split)

theorem mail_tailGone (t : ℕ) (k : ℕ) (s : State) : Mails (tailGone t k s) s := by
  simp only [tailGone, Mails, mIte, mPages, ite_self, implies_true]

theorem mail_hOpenSpool (t : ℕ) (h : Hdr) (f : SpoolF) (refused : Bool) (s : State) : Mails (hOpenSpool t h f refused s) s := by
  simp only [hOpenSpool, Mails, mIte, mPages, ite_self, implies_true, mail_tailGone, mail_hostFault, mail_reply, mail_State_onTen, mail_hostWrite]
  repeat' (first | with_reducible rfl | simp only [Mails, mIte, mPages, ite_self, implies_true, mail_tailGone, mail_hostFault, mail_reply, mail_State_onTen, mail_hostWrite] | split)

theorem mail_hSeedbedUnpin (p : Nat) (a1 : Hdr) (f : UnpinF) (s : State) : Mails (hSeedbedUnpin p a1 f s) s := by
  simp only [hSeedbedUnpin, Mails, mIte, mPages, ite_self, implies_true, mail_reply, mail_pinNodes, mail_State_onTen]
  repeat' (first | with_reducible rfl | simp only [Mails, mIte, mPages, ite_self, implies_true, mail_reply, mail_pinNodes, mail_State_onTen] | split)

theorem mail_hGraftLoad (h : Hdr) (f : GraftF) (desc : Option GraftDesc) (s : State) : Mails (hGraftLoad h f desc s) s := by
  simp only [hGraftLoad, Mails, mIte, mPages, ite_self, implies_true, mail_putReads, mail_acceptGraft, mail_hostFault, mail_reply]
  repeat' (first | with_reducible rfl | simp only [Mails, mIte, mPages, ite_self, implies_true, mail_putReads, mail_acceptGraft, mail_hostFault, mail_reply] | split)

theorem mail_hBedConfig (a0 : Hdr) (f : BedF) (s : State) : Mails (hBedConfig a0 f s) s := by
  simp only [hBedConfig, Mails, mIte, mPages, ite_self, implies_true, mail_reply, mail_hSetting]
  repeat' (first | with_reducible rfl | simp only [Mails, mIte, mPages, ite_self, implies_true, mail_reply, mail_hSetting] | split)

theorem mail_hSelect (p : Nat) (a1 : Hdr) (f : SelectF) (s : State) : Mails (hSelect p a1 f s) s := by
  simp only [hSelect, Mails, mIte, mPages, ite_self, implies_true, mail_reply, mail_startWait]
  repeat' (first | with_reducible rfl | simp only [Mails, mIte, mPages, ite_self, implies_true, mail_reply, mail_startWait] | split)

theorem mail_hTenantOpen (h : Hdr) (f : TenantOpenF) (s : State) : Mails (hTenantOpen h f s) s := by
  simp only [hTenantOpen]
  repeat' split
  all_goals first
    | exact mail_reply ..
    | exact (mail_reply ..).trans ((mail_State_onTen ..).trans (mail_State_onPage _ _ _ (fun _ => rfl)))

theorem mail_hAdmit (t : Nat) (a1 : Hdr) (f : AdmitF) (s : State) : Mails (hAdmit t a1 f s) s := by
  simp only [hAdmit, Mails, mIte, mPages, ite_self, implies_true, mail_reply, mail_trace, mail_admitAccept]
  repeat' (first | with_reducible rfl | simp only [Mails, mIte, mPages, ite_self, implies_true, mail_reply, mail_trace, mail_admitAccept] | split)

theorem mail_hThermalQuery (a0 : Hdr) (f : ThermF) (s : State) : Mails (hThermalQuery a0 f s) s := by
  simp (disch := (intros; repeat' (first | with_reducible rfl | simp only [mailOf] | simp only [Mails, mIte, mPages, ite_self, implies_true, mail_reply, mail_startWait, mail_each, mail_askSensor] | split))) only [hThermalQuery, Mails, mIte, mPages, ite_self, implies_true, mail_reply, mail_startWait, mail_each, mail_askSensor]
  repeat' (first | with_reducible rfl | simp (disch := (intros; repeat' (first | with_reducible rfl | simp only [mailOf] | simp only [Mails, mIte, mPages, ite_self, implies_true, mail_reply, mail_startWait, mail_each, mail_askSensor] | split))) only [Mails, mIte, mPages, ite_self, implies_true, mail_reply, mail_startWait, mail_each, mail_askSensor] | split)

theorem mail_hGraftReplace (h : Hdr) (f : GraftF) (desc : Option GraftDesc) (s : State) : Mails (hGraftReplace h f desc s) s := by
  simp only [hGraftReplace, Mails, mIte, mPages, ite_self, implies_true, mail_putReads, mail_acceptGraft, mail_hostFault, mail_reply]
  repeat' (first | with_reducible rfl | simp only [Mails, mIte, mPages, ite_self, implies_true, mail_putReads, mail_acceptGraft, mail_hostFault, mail_reply] | split)

theorem mail_hSetProfile (t : Nat) (a1 : Hdr) (f : ProfileF) (s : State) : Mails (hSetProfile t a1 f s) s := by
  simp only [hSetProfile, Mails, mIte, mPages, ite_self, implies_true, mail_reply, mail_setProfile, mail_startWait]
  repeat' (first | with_reducible rfl | simp only [Mails, mIte, mPages, ite_self, implies_true, mail_reply, mail_setProfile, mail_startWait] | split)

theorem mail_hFwInfo (a0 : Hdr) (s : State) : Mails (hFwInfo a0 s) s := by
  simp only [hFwInfo, Mails, mIte, mPages, ite_self, implies_true, mail_reply]
  repeat' (first | with_reducible rfl | simp only [Mails, mIte, mPages, ite_self, implies_true, mail_reply] | split)

theorem mail_mirrorBack (h : U32) (j : ℕ) (s : State) : Mails (mirrorBack h j s) s := by
  simp only [mirrorBack, Mails, mIte, mPages, ite_self, implies_true, mail_onMirror]
  repeat' (first | with_reducible rfl | simp only [Mails, mIte, mPages, ite_self, implies_true, mail_onMirror] | split)

theorem mail_mirrorRestore (h : U32) (s : State) : Mails (mirrorRestore h s) s := by
  simp (disch := (intros; repeat' (first | with_reducible rfl | simp only [mailOf] | simp only [Mails, mIte, mPages, ite_self, implies_true, mail_pumpMoves, mail_onMoves, mail_setEnt, mail_each, mail_setRef, mail_mirrorBack, mail_onMirror] | split))) only [mirrorRestore, Mails, mIte, mPages, ite_self, implies_true, mail_pumpMoves, mail_onMoves, mail_setEnt, mail_each, mail_setRef, mail_mirrorBack, mail_onMirror]
  repeat' (first | with_reducible rfl | simp (disch := (intros; repeat' (first | with_reducible rfl | simp only [mailOf] | simp only [Mails, mIte, mPages, ite_self, implies_true, mail_pumpMoves, mail_onMoves, mail_setEnt, mail_each, mail_setRef, mail_mirrorBack, mail_onMirror] | split))) only [Mails, mIte, mPages, ite_self, implies_true, mail_pumpMoves, mail_onMoves, mail_setEnt, mail_each, mail_setRef, mail_mirrorBack, mail_onMirror] | split)

theorem mail_mirrorRestores (a0 : ℕ) (s : State) : Mails (mirrorRestores a0 s) s := by
  induction a0 generalizing s with
  | zero => exact Mails.rfl'
  | succ n ih =>
    simp only [mirrorRestores]
    split
    · exact (ih _).trans (mail_mirrorRestore ..)
    · exact Mails.rfl'

theorem mail_restores (s : State) : Mails (restores s) s := by
  simp only [restores, Mails, mIte, mPages, ite_self, implies_true, mail_mirrorRestores, mail_startRestores]

theorem mail_hModelLoad (h : Hdr) (f : ModelLoadF) (desc : Option ModelDesc) (s : State) : Mails (hModelLoad h f desc s) s := by
  simp only [hModelLoad, Mails, mIte, mPages, ite_self, implies_true, mail_takeLoad, mail_putReads, mail_hostFault, mail_reply]
  repeat' (first | with_reducible rfl | simp only [Mails, mIte, mPages, ite_self, implies_true, mail_takeLoad, mail_putReads, mail_hostFault, mail_reply] | split)

theorem mail_bringBack (h : U32) (s : State) : Mails (bringBack h s) s := by
  simp only [bringBack, Mails, mIte, mPages, ite_self, implies_true, mail_restores, mail_onMoves, mail_offerBack, mail_State_onReqH]
  repeat' (first | with_reducible rfl | simp only [Mails, mIte, mPages, ite_self, implies_true, mail_restores, mail_onMoves, mail_offerBack, mail_State_onReqH] | split)

theorem mail_flushDone (s : State) : Mails (flushDone s) s := by
  simp only [flushDone, Mails, mIte, mPages, ite_self, implies_true, mail_flushNote, mail_finishAll]
  repeat' (first | with_reducible rfl | simp only [Mails, mIte, mPages, ite_self, implies_true, mail_flushNote, mail_finishAll] | split)

theorem mail_endWaits (a0 : U32) (st : U8) (s : State) : Mails (endWaits a0 st s) s := by
  simp only [endWaits, Mails, mIte, mPages, ite_self, implies_true, mail_flushDone, mail_finishAll]
  repeat' (first | with_reducible rfl | simp only [Mails, mIte, mPages, ite_self, implies_true, mail_flushDone, mail_finishAll] | split)

theorem mail_endReq (a0 : U32) (st : U8) (s : State) : Mails (endReq a0 st s) s := by
  simp only [endReq, Mails, mIte, mPages, ite_self, implies_true, mail_State_onReqH, mail_moveReq, mail_dropTable,
    mail_leaveRow, mail_gleanGrafts, mail_endWaits]
  repeat' (first | with_reducible rfl | simp only [Mails, mIte, mPages, ite_self, implies_true, mail_State_onReqH, mail_moveReq, mail_dropTable, mail_leaveRow, mail_gleanGrafts, mail_endWaits] | split)

theorem mail_endNow (h : U32) (st : U8) (s : State) : Mails (endNow h st s) s := by
  simp only [endNow, Mails, mIte, mPages, ite_self, implies_true, mail_restores, mail_endReq, mail_releaseReq, mail_State_onReqH]
  repeat' (first | with_reducible rfl | simp only [Mails, mIte, mPages, ite_self, implies_true, mail_restores, mail_endReq, mail_releaseReq, mail_State_onReqH] | split)

theorem mail_expireReq (a0 : U32) (s : State) : Mails (expireReq a0 s) s := by
  simp only [expireReq, Mails, mIte, mPages, ite_self, implies_true, mail_endNow]
  repeat' (first | with_reducible rfl | simp only [Mails, mIte, mPages, ite_self, implies_true, mail_endNow] | split)

theorem mail_endCause (a0 : U32) (st : U8) (s : State) : Mails (endCause a0 st s) s := by
  simp only [endCause, Mails, mIte, mPages, ite_self, implies_true, mail_handOver, mail_endNow]
  repeat' (first | with_reducible rfl | simp only [Mails, mIte, mPages, ite_self, implies_true, mail_handOver, mail_endNow] | split)

theorem mail_State_named (s : State) (p : Nat) (a2 : U32) : Mails (State.named s p a2).1 s := by
  simp only [State.named, Mails, mIte, mPages, ite_self, implies_true, mail_expireReq]
  repeat' (first | with_reducible rfl | simp only [Mails, mIte, mPages, ite_self, implies_true, mail_expireReq] | split)

theorem mail_hCancel (p : Nat) (via : Via) (f : HandleF) (s : State) : Mails (hCancel p via f s) s := by
  simp only [hCancel, Mails, mIte, mPages, ite_self, implies_true, mail_State_named, mail_replyVia, mail_endNow,
    mail_State_onReqH, mail_handOver, mail_startWait]
  repeat' (first | with_reducible rfl | simp only [Mails, mIte, mPages, ite_self, implies_true, mail_State_named, mail_replyVia, mail_endNow, mail_State_onReqH, mail_handOver, mail_startWait] | split)

theorem mail_hQueryReq (p : Nat) (a1 : Hdr) (f : HandleF) (s : State) : Mails (hQueryReq p a1 f s) s := by
  simp only [hQueryReq, Mails, mIte, mPages, ite_self, implies_true, mail_State_named, mail_reply]
  repeat' (first | with_reducible rfl | simp only [Mails, mIte, mPages, ite_self, implies_true, mail_State_named, mail_reply] | split)

theorem mail_hSeedbedPin (p : ℕ) (h : Hdr) (f : PinF) (s : State) : Mails (hSeedbedPin p h f s) s := by
  simp only [hSeedbedPin, Mails, mIte, mPages, ite_self, implies_true, mail_restores, mail_onSeed, mail_publish, mail_pinNodes, mail_reply, mail_State_named, mail_State_onTen]
  repeat' (first | with_reducible rfl | simp only [Mails, mIte, mPages, ite_self, implies_true, mail_restores, mail_onSeed, mail_publish, mail_pinNodes, mail_reply, mail_State_named, mail_State_onTen] | split)

theorem mail_hResume (p : Nat) (a1 : Hdr) (f : HandleF) (s : State) : Mails (hResume p a1 f s) s := by
  simp only [hResume, Mails, mIte, mPages, ite_self, implies_true, mail_State_named, mail_reply, mail_startWait,
    mail_bringBack]
  repeat' (first | with_reducible rfl | simp only [Mails, mIte, mPages, ite_self, implies_true, mail_State_named, mail_reply, mail_startWait, mail_bringBack] | split)

theorem mail_hExtend (p : Nat) (a1 : Hdr) (f : ExtendF) (s : State) : Mails (hExtend p a1 f s) s := by
  simp only [hExtend, Mails, mIte, mPages, ite_self, implies_true, mail_State_named, mail_reply, mail_startWait]
  repeat' (first | with_reducible rfl | simp only [Mails, mIte, mPages, ite_self, implies_true, mail_State_named, mail_reply, mail_startWait] | split)

theorem mail_pauseNow (h : U32) (ttl : U32) (s : State) : Mails (pauseNow h ttl s) s := by
  simp only [pauseNow, Mails, mIte, mPages, ite_self, implies_true, mail_moveReq, mail_stopRestore, mail_State_onReqH]
  repeat' (first | with_reducible rfl | simp only [Mails, mIte, mPages, ite_self, implies_true, mail_moveReq, mail_stopRestore, mail_State_onReqH] | split)

theorem mail_hPause (p : ℕ) (h : Hdr) (f : HandleF) (s : State) : Mails (hPause p h f s) s := by
  simp only [hPause, Mails, mIte, mPages, ite_self, implies_true, mail_handOver, mail_pauseNow, mail_startWait, mail_State_onReqH, mail_reply, mail_State_named]
  repeat' (first | with_reducible rfl | simp only [Mails, mIte, mPages, ite_self, implies_true, mail_handOver, mail_pauseNow, mail_startWait, mail_State_onReqH, mail_reply, mail_State_named] | split)

theorem mail_hQueryLedger (p : ℕ) (h : Hdr) (f : LedgerF) (refused : Bool) (s : State) : Mails (hQueryLedger p h f refused s) s := by
  simp only [hQueryLedger, Mails, mIte, mPages, ite_self, implies_true, mail_hostFault, mail_chargeTen, mail_reply, mail_State_named, mail_hostWrite]
  repeat' (first | with_reducible rfl | simp only [Mails, mIte, mPages, ite_self, implies_true, mail_hostFault, mail_chargeTen, mail_reply, mail_State_named, mail_hostWrite] | split)

theorem mail_hColdFlush (p : Nat) (a1 : Hdr) (f : FlushF) (s : State) : Mails (hColdFlush p a1 f s) s := by
  simp (disch := (intros; repeat' (first | with_reducible rfl | simp only [mailOf] | simp only [Mails, mIte, mPages, ite_self, implies_true, mail_flushDone, mail_pumpMoves, mail_each, mail_flushOne, mail_startWait, mail_State_named, mail_reply] | split))) only [hColdFlush, Mails, mIte, mPages, ite_self, implies_true, mail_flushDone, mail_pumpMoves, mail_each, mail_flushOne, mail_startWait, mail_State_named, mail_reply]
  repeat' (first | with_reducible rfl | simp (disch := (intros; repeat' (first | with_reducible rfl | simp only [mailOf] | simp only [Mails, mIte, mPages, ite_self, implies_true, mail_flushDone, mail_pumpMoves, mail_each, mail_flushOne, mail_startWait, mail_State_named, mail_reply] | split))) only [Mails, mIte, mPages, ite_self, implies_true, mail_flushDone, mail_pumpMoves, mail_each, mail_flushOne, mail_startWait, mail_State_named, mail_reply] | split)

/-! ### Messages and what they leave waiting -/

theorem Mails.quiet {t s : State} (h : Mails t s) (q : Quiet s) : Quiet t := by
  intro g hg
  have : mailOf g ∈ s.pages.map mailOf := h ▸ List.mem_map_of_mem hg
  obtain ⟨k, hk, e⟩ := List.mem_map.mp this
  have e1 := congrArg Prod.fst e
  have e2 := congrArg Prod.snd e
  simp only [mailOf] at e1 e2
  exact ⟨e1 ▸ (q k hk).1, e2 ▸ (q k hk).2⟩

theorem quiet_onPage {s : State} {p : Nat} {f : Page → Page} (q : Quiet s)
    (h : ∀ g, g.ring = [] → g.urgQueue = [] → (f g).ring = [] ∧ (f g).urgQueue = []) : Quiet (s.onPage p f) := by
  have aux : ∀ (l : List Page) (p : Nat), (∀ g ∈ l, g.ring = [] ∧ g.urgQueue = []) →
      ∀ g ∈ lupd p f l, g.ring = [] ∧ g.urgQueue = [] := by
    intro l
    induction l with
    | nil => intro p _ g hg; simp [lupd] at hg
    | cons a r ih =>
      intro p q g hg
      cases p with
      | zero =>
        simp only [lupd, List.mem_cons] at hg
        rcases hg with rfl | hg
        · exact h a (q a (by simp)).1 (q a (by simp)).2
        · exact q g (by simp [hg])
      | succ p =>
        simp only [lupd, List.mem_cons] at hg
        rcases hg with rfl | hg
        · exact q _ (by simp)
        · exact ih p (fun g hg => q g (by simp [hg])) g hg
  exact aux s.pages p q

theorem quiet_page {s : State} (q : Quiet s) (p : Nat) : (s.page p).ring = [] ∧ (s.page p).urgQueue = [] := by
  unfold State.page
  rw [List.getD_eq_getElem?_getD]
  cases h : s.pages[p]? with
  | none => exact ⟨rfl, rfl⟩
  | some g => exact q g (List.mem_of_getElem? h)

theorem quiet_startReset (t : Nat) (c : Bool) (s : State) (q : Quiet s) : Quiet (startReset t c s) := by
  simp only [startReset]
  refine Mails.quiet (mail_each _ _ _ fun h s => ?_) (quiet_onPage q fun _ _ _ => ⟨rfl, rfl⟩)
  repeat' split
  all_goals first
    | exact Mails.rfl'
    | exact mail_freeReq ..
    | exact mail_endCause ..
    | exact mail_State_onReqH ..

theorem quiet_hTenantReset (p : Nat) (h : Hdr) (f : TenantResetF) (s : State) (q : Quiet s) : Quiet (hTenantReset p
    h f s) := by
  simp only [hTenantReset]
  repeat' split
  all_goals first
    | exact (mail_reply ..).quiet q
    | exact quiet_startReset _ _ _ ((mail_startWait ..).quiet q)
    | exact quiet_startReset _ _ _ q
    | exact Mails.quiet (mail_State_onPage _ _ _ fun _ => rfl) ((mail_startWait ..).quiet q)
    | exact Mails.quiet (mail_State_onPage _ _ _ fun _ => rfl) q

/-- Handling a message leaves no message behind. -/
theorem quiet_handle (p : Nat) (via : Via) (i : Instr) (addr : Nat) (s : State) (q : Quiet s) : Quiet (handle p via
    i addr s) := by
  unfold handle
  split
  · simp only
    split
    · exact ((mail_replyVia ..).trans (mail_pageError ..)).quiet q
    · exact (mail_replyVia ..).quiet q
  · cases i <;> simp only
    case tenantReset => exact quiet_hTenantReset _ _ _ _ q
    case admitReq => exact (mail_hAdmit ..).quiet q
    case bedConfig => exact (mail_hBedConfig ..).quiet q
    case cancel => exact (mail_hCancel ..).quiet q
    case coldFlush => exact (mail_hColdFlush ..).quiet q
    case extend => exact (mail_hExtend ..).quiet q
    case fwInfo => exact (mail_hFwInfo ..).quiet q
    case graftLoad => exact (mail_hGraftLoad ..).quiet q
    case graftReplace => exact (mail_hGraftReplace ..).quiet q
    case graftRetire => exact (mail_hGraftRetire ..).quiet q
    case modelEvict => exact (mail_hModelEvict ..).quiet q
    case modelLoad => exact (mail_hModelLoad ..).quiet q
    case openSpool => exact (mail_hOpenSpool ..).quiet q
    case pause => exact (mail_hPause ..).quiet q
    case queryLedger => exact (mail_hQueryLedger ..).quiet q
    case queryReq => exact (mail_hQueryReq ..).quiet q
    case resume => exact (mail_hResume ..).quiet q
    case seedbedPin => exact (mail_hSeedbedPin ..).quiet q
    case seedbedUnpin => exact (mail_hSeedbedUnpin ..).quiet q
    case select => exact (mail_hSelect ..).quiet q
    case setBudget => exact (mail_hSetBudget ..).quiet q
    case setCyclic => exact (mail_hSetCyclic ..).quiet q
    case setProfile => exact (mail_hSetProfile ..).quiet q
    case tenantOpen => exact (mail_hTenantOpen ..).quiet q
    case thermalQuery => exact (mail_hThermalQuery ..).quiet q
    case timeXchg => exact (mail_hTimeXchg ..).quiet q
    case traceConfig => exact (mail_hTraceConfig ..).quiet q
    case setShares => exact (mail_hSetting ..).quiet q
    case setDeadlinePolicy => exact (mail_hSetting ..).quiet q
    case badOpcode => exact (mail_replyVia ..).quiet q
    all_goals exact q

theorem leastBy_none (key : Nat → Option Nat) (l : List Nat) (h : ∀ p ∈ l, key p = none) : leastBy key l = none := by
  induction l with
  | nil => rfl
  | cons p r ih => simp only [leastBy, h p (by simp), ih (fun q hq => h q (by simp [hq]))]

theorem urgKey_none (s : State) (p : Nat) (h : (s.page p).urgQueue = []) : s.urgKey p = none := by
  simp only [State.urgKey, h]

theorem pumpUrgent_quiet (n : Nat) (s : State) (h : ∀ p, (s.page p).urgQueue = []) : pumpUrgent n s = s := by
  cases n with
  | zero => rfl
  | succ n => simp only [pumpUrgent, leastBy_none s.urgKey _ (fun p _ => urgKey_none s p (h p))]

theorem ringKey_none (s : State) (p : Nat) (h : (s.page p).ring = []) : s.ringKey p = none := by
  simp only [State.ringKey, h]

theorem pumpRing_quiet (n : Nat) (s : State) (h : ∀ p, (s.page p).ring = []) : pumpRing n s = s := by
  cases n with
  | zero => rfl
  | succ n => simp only [pumpRing, leastBy_none s.ringKey _ (fun p _ => ringKey_none s p (h p))]

theorem beginFetch_quiet (l : List Nat) (s : State) (h : ∀ p, (s.page p).ring = []) : each l beginFetch s = s := by
  induction l with
  | nil => rfl
  | cons p l ih =>
    rw [show each (p :: l) beginFetch s = each l beginFetch (beginFetch p s) from rfl,
      show beginFetch p s = s by simp only [beginFetch, h p]]
    exact ih

theorem quiet_freed (s : State) (q : Quiet s) : Quiet (freed s) := by
  unfold freed
  split
  · exact (mail_restores s).quiet q
  · exact q

/-- With no message waiting there is nothing to fetch: only restores may start. -/
theorem settle_quiet (s : State) (q : Quiet s) : settle s = freed s := by
  have h := quiet_page q
  have k := quiet_page (quiet_freed s q)
  simp only [settle, pumpUrgent_quiet _ s (fun p => (h p).2), pumpRing_quiet _ s (fun p => (h p).1),
    beginFetch_quiet _ _ (fun p => (k p).1)]

theorem getD_lupd (p q : Nat) (f : Page → Page) (l : List Page) (hq : q < l.length) :
    (lupd p f l).getD q {} = if p = q then f (l.getD q {}) else l.getD q {} := by
  induction l generalizing p q with
  | nil => simp at hq
  | cons a r ih => cases p <;> cases q <;> simp_all [lupd]

theorem page_onPage (s : State) (p q : Nat) (f : Page → Page) (hq : q < s.pages.length) :
    (s.onPage p f).page q = if p = q then f (s.page q) else s.page q := getD_lupd p q f s.pages hq

theorem page_out (s : State) (q : Nat) (hq : s.pages.length ≤ q) : s.page q = {} := by
  unfold State.page
  simp [List.getD_eq_getElem?_getD, List.getElem?_eq_none hq]

theorem lupd_lupd {α : Type} (p : Nat) (f g : α → α) (l : List α) : lupd p g (lupd p f l) = lupd p (g ∘ f) l := by
  induction l generalizing p with
  | nil => simp [lupd]
  | cons a r ih => cases p <;> simp [lupd, ih]

theorem lupd_congr {α : Type} (p : Nat) (f g : α → α) (l : List α) (h : ∀ a ∈ l, f a = g a) : lupd p f l = lupd p g l := by
  induction l generalizing p with
  | nil => simp [lupd]
  | cons a r ih => cases p <;> simp_all [lupd]

/-- A message command is the delivery of its message. -/
theorem exec_message (c : Instr) (p : Nat) (v : Via) (s : State) (hc : msgHead c = some (p, v)) :
    exec c s = live (s.pageIslands p) s (deliver c) := by
  cases c <;> first | (cases hc; done) | (cases hc; with_unfolding_all exact Eq.refl _)

theorem mail_onCtl (f : Ctl → Ctl) (s : State) : Mails (onCtl f s) s := by
  simp only [onCtl, Mails, mIte, mPages, ite_self, implies_true]

theorem mail_beginFetch (p : Nat) (s : State) : Mails (beginFetch p s) s := by
  simp only [beginFetch]
  split
  · split
    · refine Mails.trans (mail_State_onPage _ _ _ ?_) (mail_putReads (s.unitReads p 1) s)
      intro g
      rfl
    · exact Mails.rfl'
  · exact Mails.rfl'

theorem mail_growBlock (a n : Nat) (s t : State) (h : growBlock a n s = some t) : Mails t s := by
  simp only [growBlock] at h
  repeat' split at h
  all_goals first
    | (cases h; done)
    | (cases h; exact Mails.rfl')
    | (cases h; exact (mail_freeBlock ..).trans (mail_State_onReq ..))

theorem mail_reserveOne (slot : Nat) (s t : State) (h : reserveOne slot s = some t) : Mails t s := by
  simp only [reserveOne] at h
  split at h
  · cases h
  · split at h
    · cases h
    · split at h
      · rename_i _ _ _ _ s1 _ _ h1 _
        cases h
        exact (mail_State_onReq ..).trans ((mail_setRef ..).trans (mail_growBlock _ _ _ _ h1))
      · cases h

theorem mail_reserveN (slot n : Nat) (s t : State) (h : reserveN slot n s = some t) : Mails t s := by
  induction n generalizing s with
  | zero => cases h; exact Mails.rfl'
  | succ n ih =>
    simp only [reserveN] at h
    split at h
    · rename_i h1; exact (ih _ h).trans (mail_reserveOne _ _ _ h1)
    · cases h

theorem mail_coverTo (slot n : Nat) (s t : State) (h : coverTo slot n s = some t) : Mails t s := by
  simp only [coverTo] at h
  split at h
  · exact mail_reserveN _ _ _ _ h
  · cases h

theorem leastBy_one (key : Nat → Option Nat) (p k : Nat) (l : List Nat) (h : ∀ q ∈ l, q ≠ p → key q = none) (hk : key p = some k)
    (hp : p ∈ l) : leastBy key l = some p := by
  induction l with
  | nil => simp at hp
  | cons a r ih =>
    have hr : ∀ q ∈ r, q ≠ p → key q = none := fun q hq => h q (by simp [hq])
    by_cases e : a = p
    · subst e
      by_cases m : a ∈ r
      · simp only [leastBy, hk, ih hr m, Option.getD_some, Nat.lt_irrefl, if_false]
      · have : leastBy key r = none := leastBy_none key r (fun q hq => hr q hq (fun e => m (e ▸ hq)))
        simp only [leastBy, hk, this]
    · have ha : key a = none := h a (by simp) e
      simp only [leastBy, ha]
      exact ih hr (by simpa [Ne.symm e] using hp)

theorem sum_map_pos (f : Page → Nat) (l : List Page) (p : Nat) (hp : p < l.length) (h : 0 < f (l.getD p {})) :
    ∃ n, (l.map f).sum = n + 1 := by
  induction l generalizing p with
  | nil => simp at hp
  | cons a r ih =>
    cases p with
    | zero => exact ⟨f a - 1 + (r.map f).sum, by simp only [List.map_cons, List.sum_cons]; simp at h; omega⟩
    | succ p =>
      obtain ⟨n, e⟩ := ih p (by simpa using hp) (by simpa using h)
      exact ⟨f a + n, by simp only [List.map_cons, List.sum_cons, e]; omega⟩

theorem quiet_twice {s : State} {p : Nat} {f g : Page → Page} (q : Quiet s)
    (h : ∀ x : Page, x.ring = [] → x.urgQueue = [] → (g (f x)).ring = [] ∧ (g (f x)).urgQueue = []) :
    Quiet ((s.onPage p f).onPage p g) := by
  have e : (s.onPage p f).onPage p g = s.onPage p (g ∘ f) := by simp only [State.onPage, lupd_lupd]
  rw [e]
  exact quiet_onPage q h

/-- The ring message of the one page on which something waits, which it may fetch, is fetched and handled. -/
theorem settle_ring (p : Nat) (c : Instr) (s : State) (q : Quiet s) (hp : p < s.pages.length) (h17 : p < 17)
    (hf : Fetches p c (s.onPage p (fun g => { g with ring := g.ring ++ [c] }))) :
    settle (s.onPage p (fun g => { g with ring := g.ring ++ [c] }))
      = freed (handle p (.ring (msgHdr c)) c (s.page p).headAddr
          (fetchMsg p c (s.onPage p (fun g => { g with ring := g.ring ++ [c] })))) := by
  generalize hu : s.onPage p (fun g => { g with ring := g.ring ++ [c] }) = u at hf ⊢
  have hlen : u.pages.length = s.pages.length := by rw [← hu]; exact length_lupd ..
  have hpage (a : Nat) : u.page a = if p = a then { s.page a with ring := [c] } else s.page a := by
    by_cases ha : a < s.pages.length
    · rw [← hu, page_onPage _ _ _ _ ha]
      split
      · rw [(quiet_page q a).1]; rfl
      · rfl
    · rw [if_neg (by omega), page_out u a (by omega), page_out s a (by omega)]
  have hq (a : Nat) : (u.page a).urgQueue = [] := by rw [hpage]; split <;> exact (quiet_page q a).2
  have hr : (u.page p).ring = [c] := by rw [hpage, if_pos rfl]
  have hn (a : Nat) (h : a ≠ p) : (u.page a).ring = [] := by rw [hpage, if_neg (Ne.symm h)]; exact (quiet_page q a).1
  have hh : (u.page p).headAddr = (s.page p).headAddr := by rw [hpage, if_pos rfl]; rfl
  obtain ⟨n, hs⟩ := sum_map_pos (fun g => g.ring.length) u.pages p (by omega) (by
    show 0 < (u.page p).ring.length
    rw [hr]; exact Nat.one_pos)
  obtain ⟨hs1, hs2, hs3⟩ := hf
  have hk : ∃ k, u.ringKey p = some k := by
    simp only [State.ringKey, hr, hs1, hs2, hs3, decide_true, Bool.and_self, if_true]
    exact ⟨_, rfl⟩
  obtain ⟨k, hk⟩ := hk
  have hl := leastBy_one u.ringKey p k (List.range 17) (fun a _ h => ringKey_none u a (hn a h)) hk (List.mem_range.mpr h17)
  have hz : Quiet (handle p (.ring (msgHdr c)) c (s.page p).headAddr (fetchMsg p c u)) := by
    refine quiet_handle _ _ _ _ _ ?_
    rw [← hu]
    exact quiet_twice q fun x h1 h2 => ⟨by simp only [h1, List.nil_append, List.tail_cons], h2⟩
  have hz' := quiet_page hz
  have hy := quiet_page (quiet_freed _ hz)
  simp only [settle, pumpUrgent_quiet _ u hq, hs, pumpRing, hl, hr, hh, pumpRing_quiet n _ (fun a => (hz' a).1),
    beginFetch_quiet _ _ (fun a => (hy a).1)]

theorem lupd_id {α : Type} (p : Nat) (l : List α) : lupd p (fun a => a) l = l := by
  induction l generalizing p with
  | nil => simp [lupd]
  | cons a r ih => cases p <;> simp [lupd, ih]

/-- The urgent message of the one page on which something waits, which is served, is handled. -/
theorem settle_urgent (p u n : Nat) (c : Instr) (v : Via) (s : State) (q : Quiet s) (hp : p < s.pages.length) (h17 : p < 17)
    (hc : msgHead c = some (p, v)) (hs : (s.onPage p (fun g => { g with urgQueue := g.urgQueue ++ [(u, n, c)] })).serves p = true) :
    settle (s.onPage p (fun g => { g with urgQueue := g.urgQueue ++ [(u, n, c)] })) = freed (handle p v c (0x100 + u * 0x80) s) := by
  generalize hu : s.onPage p (fun g => { g with urgQueue := g.urgQueue ++ [(u, n, c)] }) = t at hs ⊢
  have hlen : t.pages.length = s.pages.length := by rw [← hu]; exact length_lupd ..
  have hpage (a : Nat) : t.page a = if p = a then { s.page a with urgQueue := [(u, n, c)] } else s.page a := by
    by_cases ha : a < s.pages.length
    · rw [← hu, page_onPage _ _ _ _ ha]
      split
      · rw [(quiet_page q a).2]; rfl
      · rfl
    · rw [if_neg (by omega), page_out t a (by omega), page_out s a (by omega)]
  have hr : (t.page p).urgQueue = [(u, n, c)] := by rw [hpage, if_pos rfl]
  have hn (a : Nat) (h : a ≠ p) : (t.page a).urgQueue = [] := by rw [hpage, if_neg (Ne.symm h)]; exact (quiet_page q a).2
  obtain ⟨m, hm⟩ := sum_map_pos (fun g => g.urgQueue.length) t.pages p (by omega) (by
    show 0 < (t.page p).urgQueue.length
    rw [hr]; exact Nat.one_pos)
  have hk : t.urgKey p = some n := by simp only [State.urgKey, hr, hs, if_true]
  have hl := leastBy_one t.urgKey p n (List.range 17) (fun a _ h => urgKey_none t a (hn a h)) hk (List.mem_range.mpr h17)
  have hback : t.onPage p (fun g => { g with urgQueue := [] }) = s := by
    rw [← hu]
    simp only [State.onPage, lupd_lupd]
    have : lupd p ((fun g : Page => { g with urgQueue := [] }) ∘ (fun g => { g with urgQueue := g.urgQueue ++ [(u, n, c)] })) s.pages
        = s.pages := by
      refine (lupd_congr p _ (fun g => g) s.pages (fun g hg => ?_)).trans (lupd_id p s.pages)
      have := (q g hg).2
      cases g
      simp only at this
      subst this
      rfl
    rw [this]
  have hz : Quiet (handle p v c (0x100 + u * 0x80) s) := quiet_handle _ _ _ _ _ q
  have hz' := quiet_page hz
  have hy := quiet_page (quiet_freed _ hz)
  simp only [settle, hm, pumpUrgent, hl, hr, hback, hc, pumpUrgent_quiet m _ (fun a => (hz' a).2), pumpRing_quiet _ _ (fun a => (hz' a).1),
    beginFetch_quiet _ _ (fun a => (hy a).1)]

theorem mail_moveCopy (m : Move) (run : ColdRun) (s : State) : Mails (moveCopy m run s) s := by
  simp only [moveCopy, Mails, mIte, mPages, ite_self, implies_true, mail_putCopy]

end Sys2Proof.Machine
end

