-- ==== Sys2Proof/Laws/State.lean ====
section
/-! SUPPORT. The updates of one field of State: what each writes, and every other field as before. -/

namespace Sys2Proof.Machine

@[simp] theorem onCtl_writes (f : Ctl → Ctl) (s : State) : (onCtl f s).ctl = f s.ctl := rfl

@[simp] theorem onCtl_keeps (f : Ctl → Ctl) (s : State) :
    (onCtl f s).elog = s.elog ∧ (onCtl f s).wdog = s.wdog ∧ (onCtl f s).port = s.port ∧ (onCtl f s).pages = s.pages ∧
    (onCtl f s).out = s.out ∧ (onCtl f s).reqs = s.reqs ∧ (onCtl f s).gens = s.gens ∧ (onCtl f s).seq = s.seq ∧
    (onCtl f s).tens = s.tens ∧ (onCtl f s).sow = s.sow ∧ (onCtl f s).disp = s.disp ∧ (onCtl f s).plots = s.plots ∧
    (onCtl f s).seed = s.seed ∧ (onCtl f s).gh = s.gh ∧ (onCtl f s).prn = s.prn ∧ (onCtl f s).led = s.led ∧
    (onCtl f s).arbs = s.arbs ∧ (onCtl f s).teth = s.teth ∧ (onCtl f s).pwr = s.pwr ∧ (onCtl f s).trc = s.trc ∧
    (onCtl f s).tails = s.tails ∧ (onCtl f s).nocHeld = s.nocHeld ∧ (onCtl f s).free = s.free ∧
    (onCtl f s).pending = s.pending := by
  simp only [onCtl, and_self]

@[simp] theorem onWdog_writes (f : Wdog → Wdog) (s : State) : (onWdog f s).wdog = f s.wdog := rfl

@[simp] theorem onWdog_keeps (f : Wdog → Wdog) (s : State) :
    (onWdog f s).ctl = s.ctl ∧ (onWdog f s).elog = s.elog ∧ (onWdog f s).port = s.port ∧
    (onWdog f s).pages = s.pages ∧ (onWdog f s).out = s.out ∧ (onWdog f s).reqs = s.reqs ∧
    (onWdog f s).gens = s.gens ∧ (onWdog f s).seq = s.seq ∧ (onWdog f s).tens = s.tens ∧ (onWdog f s).sow = s.sow ∧
    (onWdog f s).disp = s.disp ∧ (onWdog f s).plots = s.plots ∧ (onWdog f s).seed = s.seed ∧ (onWdog f s).gh = s.gh ∧
    (onWdog f s).prn = s.prn ∧ (onWdog f s).led = s.led ∧ (onWdog f s).arbs = s.arbs ∧ (onWdog f s).teth = s.teth ∧
    (onWdog f s).pwr = s.pwr ∧ (onWdog f s).trc = s.trc ∧ (onWdog f s).tails = s.tails ∧
    (onWdog f s).nocHeld = s.nocHeld ∧ (onWdog f s).free = s.free ∧ (onWdog f s).pending = s.pending := by
  simp only [onWdog, and_self]

@[simp] theorem setPort_writes (f : Port → Port) (s : State) : (setPort f s).port = f s.port := rfl

@[simp] theorem setPort_keeps (f : Port → Port) (s : State) :
    (setPort f s).ctl = s.ctl ∧ (setPort f s).elog = s.elog ∧ (setPort f s).wdog = s.wdog ∧
    (setPort f s).pages = s.pages ∧ (setPort f s).out = s.out ∧ (setPort f s).reqs = s.reqs ∧
    (setPort f s).gens = s.gens ∧ (setPort f s).seq = s.seq ∧ (setPort f s).tens = s.tens ∧
    (setPort f s).sow = s.sow ∧ (setPort f s).disp = s.disp ∧ (setPort f s).plots = s.plots ∧
    (setPort f s).seed = s.seed ∧ (setPort f s).gh = s.gh ∧ (setPort f s).prn = s.prn ∧ (setPort f s).led = s.led ∧
    (setPort f s).arbs = s.arbs ∧ (setPort f s).teth = s.teth ∧ (setPort f s).pwr = s.pwr ∧
    (setPort f s).trc = s.trc ∧ (setPort f s).tails = s.tails ∧ (setPort f s).nocHeld = s.nocHeld ∧
    (setPort f s).free = s.free ∧ (setPort f s).pending = s.pending := by
  simp only [setPort, and_self]

@[simp] theorem State_onPage_writes (s : State) (p : Nat) (f : Page → Page) : (s.onPage p f).pages = lupd p f s.pages := rfl

@[simp] theorem State_onPage_keeps (s : State) (p : Nat) (f : Page → Page) :
    (s.onPage p f).ctl = s.ctl ∧ (s.onPage p f).elog = s.elog ∧ (s.onPage p f).wdog = s.wdog ∧
    (s.onPage p f).port = s.port ∧ (s.onPage p f).out = s.out ∧ (s.onPage p f).reqs = s.reqs ∧
    (s.onPage p f).gens = s.gens ∧ (s.onPage p f).seq = s.seq ∧ (s.onPage p f).tens = s.tens ∧
    (s.onPage p f).sow = s.sow ∧ (s.onPage p f).disp = s.disp ∧ (s.onPage p f).plots = s.plots ∧
    (s.onPage p f).seed = s.seed ∧ (s.onPage p f).gh = s.gh ∧ (s.onPage p f).prn = s.prn ∧
    (s.onPage p f).led = s.led ∧ (s.onPage p f).arbs = s.arbs ∧ (s.onPage p f).teth = s.teth ∧
    (s.onPage p f).pwr = s.pwr ∧ (s.onPage p f).trc = s.trc ∧ (s.onPage p f).tails = s.tails ∧
    (s.onPage p f).nocHeld = s.nocHeld ∧ (s.onPage p f).free = s.free ∧ (s.onPage p f).pending = s.pending := by
  simp only [State.onPage, and_self]

@[simp] theorem State_onReq_writes (s : State) (k : Nat) (f : Req → Req) : (s.onReq k f).reqs = mupd k f s.reqs := rfl

@[simp] theorem State_onReq_keeps (s : State) (k : Nat) (f : Req → Req) :
    (s.onReq k f).ctl = s.ctl ∧ (s.onReq k f).elog = s.elog ∧ (s.onReq k f).wdog = s.wdog ∧
    (s.onReq k f).port = s.port ∧ (s.onReq k f).pages = s.pages ∧ (s.onReq k f).out = s.out ∧
    (s.onReq k f).gens = s.gens ∧ (s.onReq k f).seq = s.seq ∧ (s.onReq k f).tens = s.tens ∧
    (s.onReq k f).sow = s.sow ∧ (s.onReq k f).disp = s.disp ∧ (s.onReq k f).plots = s.plots ∧
    (s.onReq k f).seed = s.seed ∧ (s.onReq k f).gh = s.gh ∧ (s.onReq k f).prn = s.prn ∧ (s.onReq k f).led = s.led ∧
    (s.onReq k f).arbs = s.arbs ∧ (s.onReq k f).teth = s.teth ∧ (s.onReq k f).pwr = s.pwr ∧
    (s.onReq k f).trc = s.trc ∧ (s.onReq k f).tails = s.tails ∧ (s.onReq k f).nocHeld = s.nocHeld ∧
    (s.onReq k f).free = s.free ∧ (s.onReq k f).pending = s.pending := by
  simp only [State.onReq, and_self]

@[simp] theorem State_onTen_writes (s : State) (t : Nat) (f : Ten → Ten) : (s.onTen t f).tens = lupd t f s.tens := rfl

@[simp] theorem State_onTen_keeps (s : State) (t : Nat) (f : Ten → Ten) :
    (s.onTen t f).ctl = s.ctl ∧ (s.onTen t f).elog = s.elog ∧ (s.onTen t f).wdog = s.wdog ∧
    (s.onTen t f).port = s.port ∧ (s.onTen t f).pages = s.pages ∧ (s.onTen t f).out = s.out ∧
    (s.onTen t f).reqs = s.reqs ∧ (s.onTen t f).gens = s.gens ∧ (s.onTen t f).seq = s.seq ∧
    (s.onTen t f).sow = s.sow ∧ (s.onTen t f).disp = s.disp ∧ (s.onTen t f).plots = s.plots ∧
    (s.onTen t f).seed = s.seed ∧ (s.onTen t f).gh = s.gh ∧ (s.onTen t f).prn = s.prn ∧ (s.onTen t f).led = s.led ∧
    (s.onTen t f).arbs = s.arbs ∧ (s.onTen t f).teth = s.teth ∧ (s.onTen t f).pwr = s.pwr ∧
    (s.onTen t f).trc = s.trc ∧ (s.onTen t f).tails = s.tails ∧ (s.onTen t f).nocHeld = s.nocHeld ∧
    (s.onTen t f).free = s.free ∧ (s.onTen t f).pending = s.pending := by
  simp only [State.onTen, and_self]

@[simp] theorem onDisp_writes (f : Disp → Disp) (s : State) : (onDisp f s).disp = f s.disp := rfl

@[simp] theorem onDisp_keeps (f : Disp → Disp) (s : State) :
    (onDisp f s).ctl = s.ctl ∧ (onDisp f s).elog = s.elog ∧ (onDisp f s).wdog = s.wdog ∧ (onDisp f s).port = s.port ∧
    (onDisp f s).pages = s.pages ∧ (onDisp f s).out = s.out ∧ (onDisp f s).reqs = s.reqs ∧
    (onDisp f s).gens = s.gens ∧ (onDisp f s).seq = s.seq ∧ (onDisp f s).tens = s.tens ∧ (onDisp f s).sow = s.sow ∧
    (onDisp f s).plots = s.plots ∧ (onDisp f s).seed = s.seed ∧ (onDisp f s).gh = s.gh ∧ (onDisp f s).prn = s.prn ∧
    (onDisp f s).led = s.led ∧ (onDisp f s).arbs = s.arbs ∧ (onDisp f s).teth = s.teth ∧ (onDisp f s).pwr = s.pwr ∧
    (onDisp f s).trc = s.trc ∧ (onDisp f s).tails = s.tails ∧ (onDisp f s).nocHeld = s.nocHeld ∧
    (onDisp f s).free = s.free ∧ (onDisp f s).pending = s.pending := by
  simp only [onDisp, and_self]

@[simp] theorem onSeed_writes (f : Seed → Seed) (s : State) : (onSeed f s).seed = f s.seed := rfl

@[simp] theorem onSeed_keeps (f : Seed → Seed) (s : State) :
    (onSeed f s).ctl = s.ctl ∧ (onSeed f s).elog = s.elog ∧ (onSeed f s).wdog = s.wdog ∧ (onSeed f s).port = s.port ∧
    (onSeed f s).pages = s.pages ∧ (onSeed f s).out = s.out ∧ (onSeed f s).reqs = s.reqs ∧
    (onSeed f s).gens = s.gens ∧ (onSeed f s).seq = s.seq ∧ (onSeed f s).tens = s.tens ∧ (onSeed f s).sow = s.sow ∧
    (onSeed f s).disp = s.disp ∧ (onSeed f s).plots = s.plots ∧ (onSeed f s).gh = s.gh ∧ (onSeed f s).prn = s.prn ∧
    (onSeed f s).led = s.led ∧ (onSeed f s).arbs = s.arbs ∧ (onSeed f s).teth = s.teth ∧ (onSeed f s).pwr = s.pwr ∧
    (onSeed f s).trc = s.trc ∧ (onSeed f s).tails = s.tails ∧ (onSeed f s).nocHeld = s.nocHeld ∧
    (onSeed f s).free = s.free ∧ (onSeed f s).pending = s.pending := by
  simp only [onSeed, and_self]

@[simp] theorem State_onSlot_writes (s : State) (m : Nat) (f : Slot → Slot) : (s.onSlot m f).gh.slots = lupd m f s.gh.slots := rfl

@[simp] theorem State_onSlot_keeps (s : State) (m : Nat) (f : Slot → Slot) :
    (s.onSlot m f).ctl = s.ctl ∧ (s.onSlot m f).elog = s.elog ∧ (s.onSlot m f).wdog = s.wdog ∧
    (s.onSlot m f).port = s.port ∧ (s.onSlot m f).pages = s.pages ∧ (s.onSlot m f).out = s.out ∧
    (s.onSlot m f).reqs = s.reqs ∧ (s.onSlot m f).gens = s.gens ∧ (s.onSlot m f).seq = s.seq ∧
    (s.onSlot m f).tens = s.tens ∧ (s.onSlot m f).sow = s.sow ∧ (s.onSlot m f).disp = s.disp ∧
    (s.onSlot m f).plots = s.plots ∧ (s.onSlot m f).seed = s.seed ∧ (s.onSlot m f).prn = s.prn ∧
    (s.onSlot m f).led = s.led ∧ (s.onSlot m f).arbs = s.arbs ∧ (s.onSlot m f).teth = s.teth ∧
    (s.onSlot m f).pwr = s.pwr ∧ (s.onSlot m f).trc = s.trc ∧ (s.onSlot m f).tails = s.tails ∧
    (s.onSlot m f).nocHeld = s.nocHeld ∧ (s.onSlot m f).free = s.free ∧ (s.onSlot m f).pending = s.pending ∧
    (s.onSlot m f).gh.grafts = s.gh.grafts ∧ (s.onSlot m f).gh.newest = s.gh.newest ∧
    (s.onSlot m f).gh.events = s.gh.events ∧ (s.onSlot m f).gh.ovf = s.gh.ovf := by
  simp only [State.onSlot, and_self]

@[simp] theorem onPrn_writes (f : Prn → Prn) (s : State) : (onPrn f s).prn = f s.prn := rfl

@[simp] theorem onPrn_keeps (f : Prn → Prn) (s : State) :
    (onPrn f s).ctl = s.ctl ∧ (onPrn f s).elog = s.elog ∧ (onPrn f s).wdog = s.wdog ∧ (onPrn f s).port = s.port ∧
    (onPrn f s).pages = s.pages ∧ (onPrn f s).out = s.out ∧ (onPrn f s).reqs = s.reqs ∧ (onPrn f s).gens = s.gens ∧
    (onPrn f s).seq = s.seq ∧ (onPrn f s).tens = s.tens ∧ (onPrn f s).sow = s.sow ∧ (onPrn f s).disp = s.disp ∧
    (onPrn f s).plots = s.plots ∧ (onPrn f s).seed = s.seed ∧ (onPrn f s).gh = s.gh ∧ (onPrn f s).led = s.led ∧
    (onPrn f s).arbs = s.arbs ∧ (onPrn f s).teth = s.teth ∧ (onPrn f s).pwr = s.pwr ∧ (onPrn f s).trc = s.trc ∧
    (onPrn f s).tails = s.tails ∧ (onPrn f s).nocHeld = s.nocHeld ∧ (onPrn f s).free = s.free ∧
    (onPrn f s).pending = s.pending := by
  simp only [onPrn, and_self]

@[simp] theorem satLed_writes (f : Led → Led) (s : State) : (satLed f s).led = f s.led := rfl

@[simp] theorem satLed_keeps (f : Led → Led) (s : State) :
    (satLed f s).ctl = s.ctl ∧ (satLed f s).elog = s.elog ∧ (satLed f s).wdog = s.wdog ∧ (satLed f s).port = s.port ∧
    (satLed f s).pages = s.pages ∧ (satLed f s).out = s.out ∧ (satLed f s).reqs = s.reqs ∧
    (satLed f s).gens = s.gens ∧ (satLed f s).seq = s.seq ∧ (satLed f s).tens = s.tens ∧ (satLed f s).sow = s.sow ∧
    (satLed f s).disp = s.disp ∧ (satLed f s).plots = s.plots ∧ (satLed f s).seed = s.seed ∧ (satLed f s).gh = s.gh ∧
    (satLed f s).prn = s.prn ∧ (satLed f s).arbs = s.arbs ∧ (satLed f s).teth = s.teth ∧ (satLed f s).pwr = s.pwr ∧
    (satLed f s).trc = s.trc ∧ (satLed f s).tails = s.tails ∧ (satLed f s).nocHeld = s.nocHeld ∧
    (satLed f s).free = s.free ∧ (satLed f s).pending = s.pending := by
  simp only [satLed, and_self]

@[simp] theorem onArb_writes (i : Nat) (f : Arb → Arb) (s : State) : (onArb i f s).arbs = lupd i f s.arbs := rfl

@[simp] theorem onArb_keeps (i : Nat) (f : Arb → Arb) (s : State) :
    (onArb i f s).ctl = s.ctl ∧ (onArb i f s).elog = s.elog ∧ (onArb i f s).wdog = s.wdog ∧
    (onArb i f s).port = s.port ∧ (onArb i f s).pages = s.pages ∧ (onArb i f s).out = s.out ∧
    (onArb i f s).reqs = s.reqs ∧ (onArb i f s).gens = s.gens ∧ (onArb i f s).seq = s.seq ∧
    (onArb i f s).tens = s.tens ∧ (onArb i f s).sow = s.sow ∧ (onArb i f s).disp = s.disp ∧
    (onArb i f s).plots = s.plots ∧ (onArb i f s).seed = s.seed ∧ (onArb i f s).gh = s.gh ∧
    (onArb i f s).prn = s.prn ∧ (onArb i f s).led = s.led ∧ (onArb i f s).teth = s.teth ∧ (onArb i f s).pwr = s.pwr ∧
    (onArb i f s).trc = s.trc ∧ (onArb i f s).tails = s.tails ∧ (onArb i f s).nocHeld = s.nocHeld ∧
    (onArb i f s).free = s.free ∧ (onArb i f s).pending = s.pending := by
  simp only [onArb, and_self]

@[simp] theorem onTeth_writes (f : Teth → Teth) (s : State) : (onTeth f s).teth = f s.teth := rfl

@[simp] theorem onTeth_keeps (f : Teth → Teth) (s : State) :
    (onTeth f s).ctl = s.ctl ∧ (onTeth f s).elog = s.elog ∧ (onTeth f s).wdog = s.wdog ∧ (onTeth f s).port = s.port ∧
    (onTeth f s).pages = s.pages ∧ (onTeth f s).out = s.out ∧ (onTeth f s).reqs = s.reqs ∧
    (onTeth f s).gens = s.gens ∧ (onTeth f s).seq = s.seq ∧ (onTeth f s).tens = s.tens ∧ (onTeth f s).sow = s.sow ∧
    (onTeth f s).disp = s.disp ∧ (onTeth f s).plots = s.plots ∧ (onTeth f s).seed = s.seed ∧ (onTeth f s).gh = s.gh ∧
    (onTeth f s).prn = s.prn ∧ (onTeth f s).led = s.led ∧ (onTeth f s).arbs = s.arbs ∧ (onTeth f s).pwr = s.pwr ∧
    (onTeth f s).trc = s.trc ∧ (onTeth f s).tails = s.tails ∧ (onTeth f s).nocHeld = s.nocHeld ∧
    (onTeth f s).free = s.free ∧ (onTeth f s).pending = s.pending := by
  simp only [onTeth, and_self]

@[simp] theorem onPwr_writes (f : Pwr → Pwr) (s : State) : (onPwr f s).pwr = f s.pwr := rfl

@[simp] theorem onPwr_keeps (f : Pwr → Pwr) (s : State) :
    (onPwr f s).ctl = s.ctl ∧ (onPwr f s).elog = s.elog ∧ (onPwr f s).wdog = s.wdog ∧ (onPwr f s).port = s.port ∧
    (onPwr f s).pages = s.pages ∧ (onPwr f s).out = s.out ∧ (onPwr f s).reqs = s.reqs ∧ (onPwr f s).gens = s.gens ∧
    (onPwr f s).seq = s.seq ∧ (onPwr f s).tens = s.tens ∧ (onPwr f s).sow = s.sow ∧ (onPwr f s).disp = s.disp ∧
    (onPwr f s).plots = s.plots ∧ (onPwr f s).seed = s.seed ∧ (onPwr f s).gh = s.gh ∧ (onPwr f s).prn = s.prn ∧
    (onPwr f s).led = s.led ∧ (onPwr f s).arbs = s.arbs ∧ (onPwr f s).teth = s.teth ∧ (onPwr f s).trc = s.trc ∧
    (onPwr f s).tails = s.tails ∧ (onPwr f s).nocHeld = s.nocHeld ∧ (onPwr f s).free = s.free ∧
    (onPwr f s).pending = s.pending := by
  simp only [onPwr, and_self]

@[simp] theorem putReads_writes (l : List HostRd) (s : State) : (putReads l s).out = { s.out with reads := s.out.reads ++ l } := rfl

@[simp] theorem putReads_keeps (l : List HostRd) (s : State) :
    (putReads l s).ctl = s.ctl ∧ (putReads l s).elog = s.elog ∧ (putReads l s).wdog = s.wdog ∧
    (putReads l s).port = s.port ∧ (putReads l s).pages = s.pages ∧ (putReads l s).reqs = s.reqs ∧
    (putReads l s).gens = s.gens ∧ (putReads l s).seq = s.seq ∧ (putReads l s).tens = s.tens ∧
    (putReads l s).sow = s.sow ∧ (putReads l s).disp = s.disp ∧ (putReads l s).plots = s.plots ∧
    (putReads l s).seed = s.seed ∧ (putReads l s).gh = s.gh ∧ (putReads l s).prn = s.prn ∧
    (putReads l s).led = s.led ∧ (putReads l s).arbs = s.arbs ∧ (putReads l s).teth = s.teth ∧
    (putReads l s).pwr = s.pwr ∧ (putReads l s).trc = s.trc ∧ (putReads l s).tails = s.tails ∧
    (putReads l s).nocHeld = s.nocHeld ∧ (putReads l s).free = s.free ∧ (putReads l s).pending = s.pending := by
  simp only [putReads, and_self]

@[simp] theorem egress_keeps (i n : Nat) (s : State) :
    (egress i n s).ctl = s.ctl ∧ (egress i n s).elog = s.elog ∧ (egress i n s).wdog = s.wdog ∧
    (egress i n s).port = s.port ∧ (egress i n s).pages = s.pages ∧ (egress i n s).out = s.out ∧
    (egress i n s).reqs = s.reqs ∧ (egress i n s).gens = s.gens ∧ (egress i n s).seq = s.seq ∧
    (egress i n s).tens = s.tens ∧ (egress i n s).sow = s.sow ∧ (egress i n s).disp = s.disp ∧
    (egress i n s).plots = s.plots ∧ (egress i n s).seed = s.seed ∧ (egress i n s).gh = s.gh ∧
    (egress i n s).prn = s.prn ∧ (egress i n s).led = s.led ∧ (egress i n s).teth = s.teth ∧
    (egress i n s).pwr = s.pwr ∧ (egress i n s).trc = s.trc ∧ (egress i n s).tails = s.tails ∧
    (egress i n s).nocHeld = s.nocHeld ∧ (egress i n s).free = s.free ∧ (egress i n s).pending = s.pending := by
  simp only [egress, onArb, and_self]

@[simp] theorem hostWrite_writes (i p n : Nat) (w : HostWr) (s : State) :
    (hostWrite i p n w s).out = { s.out with host := s.out.host ++ [⟨s.pasidOf p, w⟩] } := rfl

@[simp] theorem hostWrite_keeps (i p n : Nat) (w : HostWr) (s : State) :
    (hostWrite i p n w s).ctl = s.ctl ∧ (hostWrite i p n w s).elog = s.elog ∧ (hostWrite i p n w s).wdog = s.wdog ∧
    (hostWrite i p n w s).port = s.port ∧ (hostWrite i p n w s).pages = s.pages ∧
    (hostWrite i p n w s).reqs = s.reqs ∧ (hostWrite i p n w s).gens = s.gens ∧ (hostWrite i p n w s).seq = s.seq ∧
    (hostWrite i p n w s).tens = s.tens ∧ (hostWrite i p n w s).sow = s.sow ∧ (hostWrite i p n w s).disp = s.disp ∧
    (hostWrite i p n w s).plots = s.plots ∧ (hostWrite i p n w s).seed = s.seed ∧ (hostWrite i p n w s).gh = s.gh ∧
    (hostWrite i p n w s).prn = s.prn ∧ (hostWrite i p n w s).led = s.led ∧ (hostWrite i p n w s).teth = s.teth ∧
    (hostWrite i p n w s).pwr = s.pwr ∧ (hostWrite i p n w s).trc = s.trc ∧ (hostWrite i p n w s).tails = s.tails ∧
    (hostWrite i p n w s).nocHeld = s.nocHeld ∧ (hostWrite i p n w s).free = s.free ∧
    (hostWrite i p n w s).pending = s.pending := by
  simp only [hostWrite, egress_keeps, and_self]

@[simp] theorem putCopy_writes (i : Nat) (c : CopyReq) (s : State) :
    (putCopy i c s).out = { s.out with copies := s.out.copies ++ [c], reads := s.out.reads ++ c.reads } := rfl

@[simp] theorem putCopy_keeps (i : Nat) (c : CopyReq) (s : State) :
    (putCopy i c s).ctl = s.ctl ∧ (putCopy i c s).elog = s.elog ∧ (putCopy i c s).wdog = s.wdog ∧
    (putCopy i c s).port = s.port ∧ (putCopy i c s).pages = s.pages ∧ (putCopy i c s).reqs = s.reqs ∧
    (putCopy i c s).gens = s.gens ∧ (putCopy i c s).seq = s.seq ∧ (putCopy i c s).tens = s.tens ∧
    (putCopy i c s).sow = s.sow ∧ (putCopy i c s).disp = s.disp ∧ (putCopy i c s).plots = s.plots ∧
    (putCopy i c s).seed = s.seed ∧ (putCopy i c s).gh = s.gh ∧ (putCopy i c s).prn = s.prn ∧
    (putCopy i c s).led = s.led ∧ (putCopy i c s).teth = s.teth ∧ (putCopy i c s).pwr = s.pwr ∧
    (putCopy i c s).trc = s.trc ∧ (putCopy i c s).tails = s.tails ∧ (putCopy i c s).nocHeld = s.nocHeld ∧
    (putCopy i c s).free = s.free ∧ (putCopy i c s).pending = s.pending := by
  simp only [putCopy, onArb, and_self]

@[simp] theorem onLane_writes (k : Nat) (f : Lane → Lane) (s : State) :
    (onLane k f s).prn = { s.prn with lanes := lupd k f s.prn.lanes } := rfl

@[simp] theorem onLane_keeps (k : Nat) (f : Lane → Lane) (s : State) :
    (onLane k f s).ctl = s.ctl ∧ (onLane k f s).elog = s.elog ∧ (onLane k f s).wdog = s.wdog ∧
    (onLane k f s).port = s.port ∧ (onLane k f s).pages = s.pages ∧ (onLane k f s).out = s.out ∧
    (onLane k f s).reqs = s.reqs ∧ (onLane k f s).gens = s.gens ∧ (onLane k f s).seq = s.seq ∧
    (onLane k f s).tens = s.tens ∧ (onLane k f s).sow = s.sow ∧ (onLane k f s).disp = s.disp ∧
    (onLane k f s).plots = s.plots ∧ (onLane k f s).seed = s.seed ∧ (onLane k f s).gh = s.gh ∧
    (onLane k f s).led = s.led ∧ (onLane k f s).arbs = s.arbs ∧ (onLane k f s).teth = s.teth ∧
    (onLane k f s).pwr = s.pwr ∧ (onLane k f s).trc = s.trc ∧ (onLane k f s).tails = s.tails ∧
    (onLane k f s).nocHeld = s.nocHeld ∧ (onLane k f s).free = s.free ∧ (onLane k f s).pending = s.pending := by
  simp only [onLane, onPrn, and_self]

end Sys2Proof.Machine
end

