-- ==== Sys2Proof/WellFormed.lean ====
section
/-! DEFINITION. Which terms of Instr stand for a command of the block: the operands lie in the ranges the spec gives them and
their lists have the lengths of the records they stand for. The meanings are total and do not rest on these checks. -/

namespace Sys2Proof

/-- The checks, by name. -/
inductive IllFormed where
  | profileStops
  | bedModels
  | cyclicEntries
  | notBadOpcode
  | accessSize
  | accessValue
  | offset
  | core
  | sampleNodes
  | partialList
  | guesses
  | tokens
  | members
  | graftSlot
  | requestSlot
  | selectRow
  | argumentBlock
  | frameKind
deriving DecidableEq, Repr

/-- The bytes of a function's window: 2 MiB for the PF, 64 KiB for a VF (01 R22). -/
def barBytes (fn : Fin 17) : Nat := if fn.val = 16 then 0x200000 else 0x10000

/-- The length and the opcode pass the common checks of 04 R83 on the path that carries them, so that the message is no
BAD_OPCODE. -/
def passesCommon (page : Fin 17) (onRing : Bool) (length opcode : U8) : Bool :=
  let o := opcode.toNat
  let units := if o = 0x01 ∨ o = 0x11 then 2 else if o = 0x06 ∨ o = 0x48 then 3 else 1
  let listed := (1 ≤ o && o ≤ 8) || o = 0x10 || o = 0x11 || (0x20 ≤ o && o ≤ 0x25) || (0x40 ≤ o && o ≤ 0x4C)
  let denied := if page.val = 16 then o = 1 || (5 ≤ o && o ≤ 7) else o = 0x20 || 0x40 ≤ o
  let path := if onRing then o ≠ 0x10 else o = 0x02 || o = 0x10
  listed && path && length.toNat = units && !denied

/-- The header of a message and the way it travels. -/
def Via.header : Via → Hdr
  | .ring h => h
  | .urgent _ _ h => h

/-- A message of the submission ring. -/
def Via.onRing : Via → Bool
  | .ring _ => true
  | .urgent .. => false

/-- A check that fails adds its name. -/
def need (ok : Bool) (e : IllFormed) : List IllFormed := if ok then [] else [e]

/-- Four stop sequences of at most eight tokens (04 SET_PROFILE fields). -/
def stopsOk (f : ProfileF) : Bool := f.stop.length = 4 && f.stop.all (fun l => l.length ≤ 8)

/-- A graft slot number is below 4,096 (08 R219). -/
def graftSlotOk (n : Nat) : Bool := n < 4096

/-- A request slot is below 2^20 (02 R32). -/
def reqSlotOk (n : Nat) : Bool := n < 2 ^ 20

/-- The checks of a command's operands. -/
def Instr.check : Instr → List IllFormed
  | .setProfile _ _ f => need (stopsOk f) .profileStops
  | .profile _ _ f bias => need (stopsOk f && bias.length = f.biasCount.toNat) .profileStops
  | .bedConfig _ _ f => need (f.ctxModel.length = 4) .bedModels
  | .setCyclic _ _ f => need (f.entries.length = 64) .cyclicEntries
  | .badOpcode p v o => need (!passesCommon p v.onRing v.header.length o) .notBadOpcode
  | .readLatch fn off => need (off < barBytes fn) .offset
  | .pairedRegisterWrite fn off _ => need (off < barBytes fn) .offset
  | .rcRead fn off _ => need (off < barBytes fn) .offset
  | .registerWrite fn off wide v => need (off < barBytes fn) .offset ++ need (wide || v.toNat < 2 ^ 32) .accessValue
  | .regAccess fn off bits _ v =>
    need (off < barBytes fn) .offset ++ need (bits = 8 || bits = 16 || bits = 32 || bits = 64) .accessSize
      ++ need (v.toNat < 2 ^ bits) .accessValue
  | .powerSample p => need (p.nodes.length = 24) .sampleNodes
  | .coreFault f => need (f.core < 800) .core
  | .workItemComplete c _ => need (c < 800) .core
  | .tileBoundaryPark c => need (c < 800) .core
  | .joiningCoreRestoreDone c => need (c < 800) .core
  | .wdogBite b => need (b.hung.all (· < 800)) .core
  | .partialList l => need (l.entries.length = l.count.toNat) .partialList
  | .guessRecord g => need (g.guesses.length = 4) .guesses
  | .tokens _ es => need (es.all (fun e => e.tokens.length ≤ 5)) .tokens
  | .rollcall _ _ present intact => need (present.all (· < 1024) && intact.all (· < 1024)) .members
  | .graftLoadDone n _ _ => need (graftSlotOk n) .graftSlot
  | .seedbedRemovalDone m n _ => need (m.isSome || graftSlotOk n) .graftSlot
  | .reloadStart (.graft n _) => need (graftSlotOk n) .graftSlot
  | .reloadDone (.graft n _) _ => need (graftSlotOk n) .graftSlot
  | .spillMoveDone n _ => need (reqSlotOk n) .requestSlot
  | .restoreMoveDone n _ _ => need (reqSlotOk n) .requestSlot
  | .selectDone _ _ seen => need (seen.rows.all (fun r => 1 ≤ r.length && r.length ≤ 4194304)) .selectRow
  | .argumentBlockAck w => need (w.stack.all (fun i => i.rows.length ≤ 8192)) .argumentBlock
  | .ringCfgWrite _ r v => need (match r with | .sqCfg | .cqCfg => v.toNat < 2 ^ 32 | _ => true) .accessValue
  | .ownFrameReturned kind _ _ _ => need (1 ≤ kind.toNat && kind.toNat ≤ 8) .frameKind
  | .frameLoss kind _ _ => need (1 ≤ kind.toNat && kind.toNat ≤ 8) .frameKind
  | _ => []

/-- A well-formed command passes every check. -/
def WellFormed (i : Instr) : Prop := i.check = []

end Sys2Proof
end

