-- ==== Sys2Proof/Tests/Slice0.lean ====
section
/-! SUPPORT. Tests: ill-formed terms that WellFormed refuses, small checks against the spec's own figures, and for each
statement a state and operands that meet its hypotheses (`wit_<statement>`). -/

namespace Sys2Proof.Tests

open Sys2Proof.Machine

/-! ### Records to test with -/

def hdr (len : U8) : Hdr := { fence := false, noIrq := true, gen := 0, tag := 7, length := len, rsv := false }

def prof : ProfileF :=
  { profile := 0, topK := 1, draftMax := 0, temp := 0, topP := 0x3F800000, minP := 0, seed := 0, stopLen := 0, biasCount := 0,
    biasAddr := 0, stop := [[], [], [], []], rsv := false }

def bedF : BedF := { bed := 0, firstCore := 0, cores := 4, ctxValid := 0, ctxModel := [0, 0, 0, 0], rsv := false }

def cyc : CyclicF := { tenantA := 1, tenantB := 2, length := 0, entries := List.replicate 64 (0, 0), rsv := false }

def fmeta : FrameMeta :=
  { origin := 1, hops := 0, group := 0, epoch := 0, full := false, fresh := false, part := 0, last := true, step := 1, words := 0,
    crc := 0, alien := 0, cut := false, stomp := false }

def plist : PList :=
  { row := 0, parity := true, dpos := 0, shard := 0, count := 0, lse := 0, max := 0, entries := [], core := true, unit := 0 }

def guess : Guess := { row := 0, parity := true, dpos := 0, heads := 0, guesses := [0, 0, 0, 0] }

def commit : CommitE :=
  { row := 0, tokens := [], status := 0, accepted := 0, trunc := 0, draftOk := 0, stopMatch := 0, draw := 0 }

def sample : Sample := { seq := 1, module := 800, nodes := List.replicate 24 8, coolant := 320 }

def coreFault : CoreFault := { core := 0, kind := .swapSave, item := none, bed := 0, ctx := 0 }

def bite : BiteSeen := { hung := [], row := none, job := none, island := 0, origin := 0, unit := 0 }

/-! ### Byte images, laid out by hand from the tables of the spec -/

/-- 03 R64: opcode, PHASE, GEN, TAG, LENGTH 1, STATUS, SQ_HEAD, RESULT. -/
theorem test_image_cqe :
    (Cqe.bytes { opcode := 2, phase := true, gen := 3, tag := 0x1234, status := 5, sqHead := 9, result := 0x10 }).take 18
      = [2, 1, 3, 0, 0x34, 0x12, 1, 0, 5, 0, 0, 0, 9, 0, 0, 0, 0x10, 0] := by decide +kernel
/-- 10 R277: token, position with DRAFT_ACCEPTED in bit 24, LCC, status, ACCEPTED. -/
theorem test_image_record :
    Rec.bytes { token := 0x01020304, position := 7, draft := true, lcc := 0x64, accepted := 2 }
      = [4, 3, 2, 1, 7, 0, 0, 1, 0x64, 0, 0, 0, 0, 2, 0, 0] := by decide +kernel
/-- 09 R237: ROW 1, PARITY, DPOS 2 and SHARD 3 are bits 0, 13, 15 and 17, 18 of the first word. -/
theorem test_image_list :
    (listBytes { plist with row := 1, dpos := 2, shard := 3 }).take 5 = [1, 0xA0, 6, 0, 0] := by decide +kernel
/-- 13 R337: the check value of CRC-32 over the digits 1 to 9. -/
theorem test_crc32 : crc32 [0x31, 0x32, 0x33, 0x34, 0x35, 0x36, 0x37, 0x38, 0x39] = 0xCBF43926 := by decide +kernel

/-! ### Ill-formed terms, one for each check -/

theorem test_wf_profileStops : (Instr.setProfile 3 (hdr 3) { prof with stop := [] }).check = [.profileStops] := by decide
theorem test_wf_bedModels : (Instr.bedConfig 16 (hdr 1) { bedF with ctxModel := [0] }).check = [.bedModels] := by decide
theorem test_wf_cyclicEntries : (Instr.setCyclic 16 (hdr 3) { cyc with entries := [] }).check = [.cyclicEntries] := by decide
theorem test_wf_notBadOpcode : (Instr.badOpcode 3 (.ring (hdr 1)) 0x02).check = [.notBadOpcode] := by decide
theorem test_wf_badOpcode : (Instr.badOpcode 3 (.ring (hdr 1)) 0x20).check = [] := by decide
theorem test_wf_offset : (Instr.readLatch 16 0x200000).check = [.offset] := by decide
theorem test_wf_accessSize : (Instr.regAccess 16 0 24 false 0).check = [.accessSize] := by decide
theorem test_wf_accessValue : (Instr.registerWrite 16 0x5000 false 0x100000000).check = [.accessValue] := by decide
theorem test_wf_sampleNodes : (Instr.powerSample { sample with nodes := [] }).check = [.sampleNodes] := by decide
theorem test_wf_core : (Instr.tileBoundaryPark 800).check = [.core] := by decide
theorem test_wf_partialList : (Instr.partialList { plist with count := 1 }).check = [.partialList] := by decide
theorem test_wf_guesses : (Instr.guessRecord { guess with guesses := [] }).check = [.guesses] := by decide
theorem test_wf_tokens : (Instr.tokens fmeta [{ commit with tokens := [1, 2, 3, 4, 5, 6] }]).check = [.tokens] := by decide
theorem test_wf_members : (Instr.rollcall fmeta 0 [1024] []).check = [.members] := by decide
theorem test_wf_graftSlot : (Instr.reloadStart (.graft 4096 0)).check = [.graftSlot] := by decide
theorem test_wf_requestSlot : (Instr.spillMoveDone 1048576 ⟨0, false⟩).check = [.requestSlot] := by decide
theorem test_wf_selectRow : (Instr.selectDone 3 0 ⟨[[]]⟩).check = [.selectRow] := by decide
theorem wf_rows (l : List (BitVec 13)) (h : 8192 < l.length) : (Instr.argumentBlockAck ⟨[], [⟨0, l, true⟩], 0⟩).check = [.argumentBlock] := by
  simp [Instr.check, need, Nat.not_le.2 h]
theorem test_wf_argumentBlock : (Instr.argumentBlockAck ⟨[], [⟨0, List.replicate 8193 0, true⟩], 0⟩).check = [.argumentBlock] :=
  wf_rows _ (by rw [List.length_replicate]; decide)
theorem test_wf_frameKind : (Instr.frameLoss 9 0 0).check = [.frameKind] := by decide
theorem test_wf_good : (Instr.cancel 3 (.urgent 2 true (hdr 1)) ⟨0, 0, false⟩).check = [] := by decide


/-! ### States that meet the hypotheses of the statements -/

/-- A page that is open, with both rings on and eight units delivered. -/
def pg : Page := { isOpen := true, sqEn := true, cqEn := true, sqTail := 8, gardener := 1 }

/-- The block in READY, with the management page and the page of tenant 3 open. -/
def st : State :=
  { State.reset with
    ctl := { phase := .ready, lcc := 1000000000 }
    pages := (List.range 17).map (fun i => if i = 3 ∨ i = 16 then pg else {}) }

/-- The same before the block is ready. -/
def inPhase (p : Phase) : State := { st with ctl := { st.ctl with phase := p } }

def adm : AdmitF :=
  { promptAddr := 0, promptLen := 128, maxNew := 8, deadline := 0, model := 0, cls := 0, graftSlot := 0, graftValid := false,
    graftVer := 0, profile := 0, spool := 0, holdOnEnd := false, noMatch := false, noOffer := false, graftCurrent := false,
    turnTtl := 0, budgetTime := 0, budgetBytes := 0, budgetEnergy := 0, rsv := false }

def hd : U32 := mkHandle 3 5 1

/-- A request of tenant 3 in slot 5. -/
def req (x : RState) (row : Option (BitVec 13)) : Req :=
  { handle := hd, adm := adm, order := 0, born := 0, since := 0, state := x, copied := true, model := 0, graft := none, row := row }

/-- `st` with that request. -/
def withReq (r : Req) : State := { st with reqs := [(5, r)], gens := [(5, 1)] }

def handleF : HandleF := ⟨hd, 0, false⟩

def desc : ModelDesc :=
  { descVer := 3, vocab := 64, contextLen := 1024, eos := 0, kvBytes := 128, plotCount := 12, crossover := 1, fillLimit := 1,
    layerFirst := 0, layerCount := 1, draftHeads := 0, weightFormat := 0, scratch := 1, staging := 1, tokenizer := 0, modelId := 7,
    weightBytes := 4096, regionCount := 1, kernelCount := 0, regionTableOff := 0, kernelTableOff := 0, rsv := false }

/-- A model in slot 0. -/
def withSlot (x : SlotState) : State :=
  { st with gh := { st.gh with slots := { state := x, desc := some desc } :: List.replicate 31 {} } }

/-! ### Witnesses: the whole machine and the handling of messages -/

theorem wit_StepIdle : st.pending = [] := by decide
theorem wit_QueueKept : Sizes st ∧ exec (.debugReadout 0) st = .next (readOut 0 st) := ⟨by decide, rfl⟩
theorem wit_ClockKept : Sizes st ∧ exec (.debugReadout 0) st = .next (readOut 0 st) ∧ Sizes st ∧ ∃ t, exec .coldReset st = .next t :=
  ⟨by decide, rfl, by decide, _, rfl⟩
theorem wit_SizesKept : Sizes st ∧ step st = .next (tick st) := ⟨by decide, rfl⟩
theorem wit_RunNeverStops : Sizes st ∧ Known st ∧ st.pending.head? ≠ some .supplySag ∧ .supplySag ∉ st.pending := by decide
theorem wit_SagNeedsColdReset : Known st ∧ ¬ Known { st with ctl := { st.ctl with sagged := true } } ∧ Instr.expiryScan ≠ .coldReset := by
  decide
theorem wit_RingMessageHandled : Fetched 3 (.queryReq 3 (hdr 1) handleF) (hdr 1) st := by
  and_intros <;> decide
theorem wit_UrgentMessageHandled :
    let c : Instr := .cancel 3 (.urgent 7 true (hdr 1)) handleF
    let s := inPhase .sleeping
    msgHead c = some (3, .urgent 7 true (hdr 1)) ∧ 3 < s.pages.length ∧ Known s ∧ Quiet s ∧ s.serves 3 = true
      ∧ ((s.page 3).slots.getD 7 {}).busy = false := by
  dsimp only; and_intros <;> decide
theorem wit_ChecksInOrder :
    let v (g l : U8) : Via := .ring { hdr l with gen := g }
    let q (g l : U8) : Instr := .queryReq 3 { hdr l with gen := g } { handleF with rsv := true }
    ({ hdr 1 with gen := 1 }).gen ≠ (st.page 3).gen
      ∧ (hdr 5).gen = (st.page 3).gen ∧ ¬ ((hdr 5).length ≠ 0 ∧ (hdr 5).length.toNat ≤ 4)
      ∧ pathOk (v 0 4) (.badOpcode 3 (v 0 4) 0) = false
      ∧ pathOk (v 0 1) (.fwInfo 3 (hdr 1) false) = true ∧ opMgmtOnly (msgOpcode (.fwInfo 3 (hdr 1) false)) = true
      ∧ pathOk (v 0 2) (q 0 2) = true ∧ (hdr 2).length.toNat ≠ opUnits (msgOpcode (q 0 2))
      ∧ (hdr 1).length.toNat = opUnits (msgOpcode (q 0 1)) ∧ msgOpcode (q 0 1) ≠ 0x01 ∧ fieldsOk 3 (q 0 1) = false
      ∧ (Fetched 3 (.badOpcode 3 (.ring (hdr 4)) 0xFF) (hdr 4) st ∧ opListed 0xFF = false)
      ∧ (Fetched 3 (.badOpcode 3 (.ring (hdr 1)) 0x20) (hdr 1) st
        ∧ preCheck 3 (.ring (hdr 1)) (.badOpcode 3 (.ring (hdr 1)) 0x20) (fetched 3 (.badOpcode 3 (.ring (hdr 1)) 0x20) st)
          = some stDenied) := by
  dsimp only; and_intros <;> decide
theorem wit_RefusedMessageFrame :
    let c : Instr := .queryReq 3 (hdr 2) handleF
    Fetched 3 c (hdr 2) st ∧ preCheck 3 (.ring (hdr 2)) c (fetched 3 c st) = some stBadField ∧ stBadField ≠ stNotCurrent := by
  dsimp only; and_intros <;> decide

/-! ### Witnesses: the messages -/

theorem wit_TimeExchanged :
    let c : Instr := .timeXchg 3 (.urgent 0 false (hdr 1)) ⟨5, false⟩
    Fetched 3 (.timeXchg 3 (.ring (hdr 4)) ⟨5, false⟩) (hdr 4) st ∧ (hdr 4).gen = (st.page 3).gen ∧ (hdr 4).length ≠ 0
      ∧ 3 < st.pages.length ∧ 0 < (st.page 3).slots.length ∧ Known st ∧ Quiet st ∧ st.serves 3 = true
      ∧ ((st.page 3).slots.getD 0 {}).busy = false ∧ preCheck 3 (.urgent 0 false (hdr 1)) c (posted 3 0 c st) = none := by
  dsimp only; and_intros <;> decide
theorem wit_QueriesAnswer :
    let c : Instr := .queryReq 3 (hdr 1) handleF
    let r := req .queued none
    Passes 16 (.fwInfo 16 (hdr 1) false) (hdr 1) st
      ∧ Passes 3 c (hdr 1) st ∧ ((fetched 3 c st).named 3 hd).2 = none
      ∧ Passes 3 c (hdr 1) (withReq r) ∧ ((fetched 3 c (withReq r)).named 3 hd).2 = some r
      ∧ Passes 3 (.queryLedger 3 (hdr 1) ⟨3, false, 0, 64, false⟩ true) (hdr 1) st := by
  dsimp only; and_intros <;> decide
theorem wit_LedgerQueried :
    let c (h : U32) : Instr := .queryLedger 16 (hdr 1) ⟨3, true, h, 64, false⟩ false
    let r := req .queued none
    Passes 3 (.queryLedger 3 (hdr 1) ⟨3, false, 0, 64, false⟩ false) (hdr 1) st
      ∧ Passes 16 (c hd) (hdr 1) (withReq r) ∧ ((fetched 16 (c hd) (withReq r)).named 16 hd).2 = some r
      ∧ Passes 16 (c 0) (hdr 1) (withReq r) ∧ ((fetched 16 (c 0) (withReq r)).named 16 0).2 = none := by
  dsimp only; and_intros <;> decide

/-- A tenant 3 that may send ADMIT to a resident model 0. -/
def admitSt : State :=
  let s := withSlot .resident
  { s with tens := s.tens.set 3 { profiles := [(0, ⟨prof, []⟩)], spools := [(0, { log2 := 4, hdrAddr := 0, ringAddr := 0 })] } }
theorem wit_AdmitAllocates :
    let c (f : AdmitF) : Instr := .admitReq 3 (hdr 2) f
    Passes 3 (c { adm with maxNew := 0 }) (hdr 2) admitSt
      ∧ admitCheck 3 (hdr 2) { adm with maxNew := 0 } (fetched 3 (c { adm with maxNew := 0 }) admitSt) = some stBadField
      ∧ Passes 3 (c adm) (hdr 2) admitSt ∧ admitCheck 3 (hdr 2) adm (fetched 3 (c adm) admitSt) = none := by
  dsimp only; and_intros <;> decide
abbrev Named (c : Instr) (r : Req) : Prop :=
  Passes 3 c (hdr 1) (withReq r) ∧ ((fetched 3 c (withReq r)).named 3 hd).2 = some r
theorem wit_RequestMessages :
    let cancel : Instr := .cancel 3 (.ring (hdr 1)) handleF
    let pause : Instr := .pause 3 (hdr 1) { handleF with ttl := 9 }
    Named cancel (req .queued none) ∧ Named cancel (req .decode (some 8191))
      ∧ Named cancel { req .decode none with cancelPending := true }
      ∧ Named pause (req .admitted none) ∧ Named pause (req .decode (some 8191))
      ∧ Named (.resume 3 (hdr 1) handleF) (req .cold none) ∧ (withReq (req .cold none)).extending hd = false
      ∧ (withReq (req .cold none)).resuming hd = false := by
  dsimp only; and_intros <;> decide
theorem wit_Extend :
    let c : Instr := .extend 3 (hdr 1) ⟨hd, 1, 0, 1, false⟩
    let s : State := { withSlot .resident with reqs := [(5, req .paused none)], gens := [(5, 1)] }
    Passes 3 c (hdr 1) s ∧ ((fetched 3 c s).named 3 hd).2 = some (req .paused none)
      ∧ (req .paused none).logEnd + 1 + 1 < s.contextLen 0 := by
  dsimp only; and_intros <;> decide
def sel : SelectF :=
  { src := 0, dst := 0, rows := 1, rowLen := 1, stride := 4, format := 0, k := 1, smallest := false, space := false,
    threshEn := false, thresh := 0, rsv := false }
theorem wit_ProfilesSpoolsAndSelects :
    let job : Started := ⟨hdr 2, 0x11, .select sel, false⟩
    let full := st.onPage 3 (fun g => { g with started := List.replicate 16 job })
    let spool : SpoolF := ⟨65535, 16, 64, 256, false⟩
    let mine := st.onTen 3 (fun x => { x with spools := [(65535, { log2 := 4, hdrAddr := 0, ringAddr := 0, owner := some hd })] })
    Passes 3 (.setProfile 3 (hdr 3) prof) (hdr 3) st
      ∧ Passes 3 (.openSpool 3 (hdr 1) spool false) (hdr 1) mine
      ∧ Passes 3 (.openSpool 3 (hdr 1) spool true) (hdr 1) st ∧ st.spool 3 65535 = none
      ∧ Passes 3 (.select 3 (hdr 2) { sel with space := true }) (hdr 2) st
      ∧ Passes 3 (.select 3 (hdr 2) sel) (hdr 2) st ∧ selectOk sel = true
      ∧ Passes 3 (.select 3 (hdr 2) sel) (hdr 2) full
      ∧ (full.page 3).started.length = 16 ∧ (full.page 3).started.all (fun x => x.wait.isSelect) = true := by
  dsimp only; and_intros <;> decide
theorem wit_TenantLifecycle :
    let opn (t : BitVec 4) : Instr := .tenantOpen 16 (hdr 1) ⟨t, 0, false, false⟩
    let rst (p : Fin 17) (t : BitVec 4) (b : Bool) : Instr := .tenantReset p (hdr 1) ⟨t, b, false⟩
    let other : State := { st with pages := (List.range 17).map (fun i => if i = 16 then pg else {}) }
    Passes 16 (opn 3) (hdr 1) st ∧ (st.page 3).isOpen = true
      ∧ Passes 16 (opn 15) (hdr 1) st ∧ (st.page 15).isOpen = false ∧ (∃ g ∈ st.pages.take 16, g.isOpen = true ∧ g.pasid = 0)
      ∧ Passes 16 (opn 15) (hdr 1) other ∧ (∀ g ∈ other.pages.take 16, ¬ (g.isOpen = true ∧ g.pasid = 0))
      ∧ Passes 3 (rst 3 3 true) (hdr 1) st ∧ Passes 3 (rst 3 3 false) (hdr 1) st ∧ (st.page 3).stopping = none
      ∧ Passes 16 (rst 16 15 false) (hdr 1) st ∧ Passes 16 (rst 16 3 true) (hdr 1) st := by
  dsimp only; and_intros <;> decide
def node : Node :=
  { hash := 0, parent := none, depth := 1, plot := 0, stack := 0, key := ⟨0, 3, none, 3, 0⟩, stamp := 0, children := 0, pins := 0, toks := [] }
theorem wit_UnpinReleases :
    let c : Instr := .seedbedUnpin 3 (hdr 1) ⟨4, false⟩
    let s := { st with seed := { st.seed with nodes := [(9, { node with pins := 1 })] } }.onTen 3 (fun x =>
      { x with pins := [⟨4, 0, [9]⟩] })
    let c' : Instr := .seedbedUnpin 16 (hdr 1) ⟨4, false⟩
    Passes 3 c (hdr 1) st ∧ (∀ x ∈ (st.ten 3).pins, x.id ≠ 4)
      ∧ Passes 16 c' (hdr 1) s ∧ (∀ j < 3, ∀ y ∈ (s.ten j).pins, y.id ≠ 4)
      ∧ Passes 3 c (hdr 1) s ∧ (s.ten 3).pins.find? (fun x => x.id = 4) = some ⟨4, 0, [9]⟩ ∧ [9].Nodup
      ∧ mget 9 s.seed.nodes = some { node with pins := 1 } := by
  dsimp only; and_intros <;> decide
theorem wit_PinAndFlush :
    let c : Instr := .coldFlush 3 (hdr 1) ⟨hd, false, false⟩
    let r := req .paused none
    Passes 3 c (hdr 1) (withReq r) ∧ ((fetched 3 c (withReq r)).named 3 hd).2 = some r ∧ r.state = .paused := by
  dsimp only; and_intros <;> decide
def loadF : ModelLoadF :=
  { slot := 0, fallback := 0, fbValid := false, srcSpace := 0, descAddr := 0, srcAddr := 0, rsv := false }
def gdesc : GraftDesc := { descVer := 1, deltaCount := 0, baseModelId := 7, deltaTableOff := 0, graftBytes := 0, rsv := false }
def graftF : GraftF := { graftSlot := 4095, base := 0, srcSpace := 0, version := 0, descAddr := 0, srcAddr := 0, rsv := false }
def gver : GVer :=
  { slot := 4095, ver := 1, base := 0, state := .resident, back := .resident, desc := gdesc, srcSpace := 0, descAddr := 0, srcAddr := 0 }
theorem wit_GreenhouseMessages :
    let load : Instr := .modelLoad 16 (hdr 1) loadF (some desc)
    let big : Instr := .modelLoad 16 (hdr 1) loadF (some { desc with weightBytes := 0xFFFFFFFFFFFF })
    let evict : Instr := .modelEvict 16 (hdr 1) ⟨0, false⟩
    let s := withSlot .resident
    let g : State := { s with gh := { s.gh with grafts := [gver], newest := [(4095, 1)] } }
    Passes 16 load (hdr 1) s ∧ (s.slot 0).state ≠ .empty
      ∧ Passes 16 load (hdr 1) st ∧ (loadRoom desc (fetched 16 load st)).isSome = true
      ∧ Passes 16 big (hdr 1) st ∧ loadRoom { desc with weightBytes := 0xFFFFFFFFFFFF } (fetched 16 big st) = none
      ∧ Passes 16 (.modelLoad 16 (hdr 1) loadF none) (hdr 1) st
      ∧ Passes 16 (.modelLoad 16 (hdr 1) loadF (some { desc with rsv := true })) (hdr 1) st
      ∧ Passes 16 evict (hdr 1) st ∧ (st.slot 0).state = .empty
      ∧ Passes 16 evict (hdr 1) s ∧ (s.slot 0).state = .resident ∧ s.modelUsers 0 = 0 ∧ s.bedNames 0 = false
      ∧ Passes 16 (.graftLoad 16 (hdr 1) graftF (some gdesc)) (hdr 1) s ∧ s.slotNamed 0 = true ∧ s.hasGraft 4095 = false
      ∧ s.stackUsed + gdesc.graftBytes.toNat ≤ stackRoom
      ∧ Passes 16 (.graftReplace 16 (hdr 1) graftF (some gdesc)) (hdr 1) g ∧ g.hasGraft 4095 = true
      ∧ g.gver 4095 (g.newestVer 4095 + 1) = none ∧ g.stackUsed + gdesc.graftBytes.toNat ≤ stackRoom
      ∧ Passes 16 (.graftRetire 16 (hdr 1) ⟨4095, false⟩) (hdr 1) g ∧ Passes 16 (.graftRetire 16 (hdr 1) ⟨4095, false⟩) (hdr 1) s := by
  dsimp only; and_intros <;> decide
theorem wit_SettingsTaken :
    let bed : Instr := .bedConfig 16 (hdr 1) bedF
    let tr (l : BitVec 5) : TraceF := ⟨true, l, 1, 0xFFFF, 4096, false⟩
    Passes 16 bed (hdr 1) st ∧ bedCheck bedF (fetched 16 bed st) = none
      ∧ Passes 16 (.setShares 16 (hdr 1) ⟨15, 0, 8192, 3, false⟩) (hdr 1) st
      ∧ Passes 16 (.setCyclic 16 (hdr 3) { cyc with length := 64 }) (hdr 3) st ∧ cyc.tenantA ≠ cyc.tenantB
      ∧ Passes 16 (.setDeadlinePolicy 16 (hdr 1) ⟨0, 0, 0, false⟩) (hdr 1) st
      ∧ Passes 16 (.setBudget 16 (hdr 1) ⟨0, 100, 1048576, 0, 0, 0, 0, false⟩) (hdr 1) st
      ∧ Passes 16 (.traceConfig 16 (hdr 1) (tr 7)) (hdr 1) st ∧ Passes 16 (.traceConfig 16 (hdr 1) (tr 8)) (hdr 1) st
      ∧ Passes 16 (.traceConfig 16 (hdr 1) (tr 20)) (hdr 1) st ∧ Passes 16 (.traceConfig 16 (hdr 1) (tr 21)) (hdr 1) st
      ∧ Passes 16 (.thermalQuery 16 (hdr 1) ⟨0, false⟩) (hdr 1) st ∧ Passes 16 (.thermalQuery 16 (hdr 1) ⟨0xFFF, false⟩) (hdr 1) st := by
  dsimp only; and_intros <;> decide

/-! ### Witnesses: register accesses -/

theorem writes_of {fn : Fin 17} {off : Nat} {wide : Bool} {r : Reg} {s : State} (h : Reaches fn off wide r s)
    (hp : (match pageAt (absOff fn off) with | some p => (s.page p).isOpen | none => true) = true)
    (hi : s.wdog.resetting.getLsbD r.island = false) : Writes fn off wide r s := by
  refine ⟨h, fun p e => ?_, hi⟩
  rw [e] at hp
  exact hp

/-- The rings of tenant 3 off. -/
def off : State := st.onPage 3 (fun g => { g with sqEn := false, cqEn := false })

/-- Two completions written and not read. -/
def cqSt : State := st.onPage 3 (fun g => { g with cqTail := 2 })

theorem wit_RegisterWriteTaken : Writes 16 0x5000 false .pwrLimit st := writes_of (by decide) (by decide) (by decide)
theorem wit_DoorbellsTaken :
    Writes (aptFn (.vf 3)) (aptOff (.vf 3) 0x20) false (.page 3 .sqTail) st
      ∧ (63 < 2 ^ (st.page 3).sqLog2.toNat ∧ (st.page 3).begun ≤ (63 + 64 - 0) % 64) ∧ 2 ^ (st.page 3).sqLog2.toNat ≤ 64
      ∧ (Writes (aptFn (.pf 3)) (aptOff (.pf 3) 0x20) false (.page 3 .sqTail) (st.onPage 3 (fun g => { g with begun := 1 }))
        ∧ ¬ 1 ≤ (0 + 64 - 0) % 64)
      ∧ Writes (aptFn (.pf 3)) (aptOff (.pf 3) 0x38) false (.page 3 .cqHead) cqSt
      ∧ (2 + 64 - 0) % 64 ≤ ((cqSt.page 3).cqTail.toNat + 64 - 0) % 64 ∧ ¬ (3 + 64 - 0) % 64 ≤ ((cqSt.page 3).cqTail.toNat + 64 - 0) % 64 :=
  ⟨writes_of (by decide) (by decide) (by decide), by decide, by decide,
    ⟨writes_of (by decide) (by decide) (by decide), by decide⟩, writes_of (by decide) (by decide) (by decide), by decide, by decide⟩
theorem wit_PageRegisters :
    Writes (aptFn (.vf 3)) (aptOff (.vf 3) 0x08) false (.page 3 .ringCtrl) off ∧ 3 < off.pages.length
      ∧ Writes (aptFn (.pf 3)) (aptOff (.pf 3) 0x10) true (.page 3 .sqBase) off
      ∧ Writes (aptFn (.pf 3)) (aptOff (.pf 3) 0x28) true (.page 3 .cqBase) off
      ∧ Writes (aptFn (.pf 3)) (aptOff (.pf 3) 0x18) false (.page 3 .sqCfg) off
      ∧ Writes (aptFn (.pf 3)) (aptOff (.pf 3) 0x30) false (.page 3 .cqCfg) st
      ∧ Writes (aptFn (.vf 3)) (aptOff (.vf 3) (0x140 + 7 * 0x80)) false (.page 3 (.urgGo 7)) st :=
  ⟨writes_of (by decide) (by decide) (by decide), by decide, writes_of (by decide) (by decide) (by decide),
    writes_of (by decide) (by decide) (by decide), writes_of (by decide) (by decide) (by decide),
    writes_of (by decide) (by decide) (by decide), writes_of (by decide) (by decide) (by decide)⟩
theorem wit_LimitsTaken : Writes pf 0x5000 false .pwrLimit st ∧ Writes pf 0x5008 true .thermLimit st
    ∧ Writes pf 0x3000 false .wdogLimit st :=
  ⟨writes_of (by decide) (by decide) (by decide), writes_of (by decide) (by decide) (by decide),
    writes_of (by decide) (by decide) (by decide)⟩
theorem wit_ArbiterRegisters :
    let bad := onArb 3 (fun a => { a with shadow := [] }) st
    Writes pf (arbBase 3 + 0x08) false (.arb 3 .window) st
      ∧ (Writes pf (arbBase 0 + 0xA0 + 4 * 30) false (.arb 0 (.quota 30)) st ∧ 30 < (st.arb 0).debug)
      ∧ Writes pf (arbBase 3 + 0x18) false (.arb 3 .clear) st
      ∧ (Writes pf (arbBase 0 + 0x20) false (.arb 0 .commit) st ∧ (st.arb 0).mapOk = true)
      ∧ (Writes pf (arbBase 3 + 0x20) false (.arb 3 .commit) bad ∧ (bad.arb 3).mapOk = false)
      ∧ Writes pf 0x4040 false (.arb 0 .depth) st :=
  ⟨writes_of (by decide) (by decide) (by decide), ⟨writes_of (by decide) (by decide) (by decide), by decide⟩,
    writes_of (by decide) (by decide) (by decide), ⟨writes_of (by decide) (by decide) (by decide), by decide⟩,
    ⟨writes_of (by decide) (by decide) (by decide), by decide⟩, writes_of (by decide) (by decide) (by decide)⟩
theorem wit_ConfigRegisters :
    let on : State := { st with plots := { st.plots with poolEn := true } }
    (Writes pf (tierOff .poolBase) true (.tier .poolBase) on ∧ on.tierIdle .poolBase = false)
      ∧ (Writes pf (tierOff (.hostSize 15)) true (.tier (.hostSize 15)) st ∧ st.tierIdle (.hostSize 15) = true)
      ∧ Writes pf 0x7010 true .groupId st ∧ Writes pf 0x7018 true .memberIndex st
      ∧ (Writes pf 0x7000 true .tetherCtrl st ∧ st.teth.en = false ∧ st.teth.sizeM1 = 0 ∧ st.teth.index = 0 ∧ st.teth.sampler = 0)
      ∧ Writes pf 0x8008 false .fwCtrl st ∧ Writes pf 0x8008 false .fwCtrl (inPhase .failed) ∧ Writes pf 0x6020 false .traceTail st :=
  ⟨⟨writes_of (by decide) (by decide) (by decide), by decide⟩, ⟨writes_of (by decide) (by decide) (by decide), by decide⟩,
    writes_of (by decide) (by decide) (by decide), writes_of (by decide) (by decide) (by decide),
    ⟨writes_of (by decide) (by decide) (by decide), by decide⟩, writes_of (by decide) (by decide) (by decide),
    writes_of (by decide) (by decide) (by decide), writes_of (by decide) (by decide) (by decide)⟩
theorem wit_PairedWrites :
    (Reg.tier .poolBase).paired = true ∧ locate (absOff 16 0x810C) = some (.tier .poolBase, 0x8108, true) ∧ 0x810C % 4 = 0
      ∧ inBar 16 0x810C = true ∧ Known st ∧ st.freezing = false ∧ st.wdog.resetting.getLsbD (Reg.tier .poolBase).island = false
      ∧ pageAt (absOff 16 0x810C) = none := by decide
theorem wit_LccReads : Known (inPhase .bootWait) := by decide
theorem wit_ReadsClearAndLatch :
    let s := setPort (fun q => { q with latch := [(16, (0x8A28, 5))] }) st
    Reaches 16 0x8A28 true .dlActions st
      ∧ (Known s ∧ s.freezing = false ∧ inBar 16 0x8A2C = true ∧ 0x8A2C % 4 = 0
        ∧ locate (absOff 16 0x8A2C) = some (.dlActions, 0x8A28, true) ∧ mget (16 : Fin 17).val s.port.latch = some (0x8A28, 5)) := by
  dsimp only; and_intros <;> decide
theorem wit_ReadsFrame : 0x8A2C % 4 = 0 ∧ ∃ t, exec (.readLatch 16 0x8A2C) st = .next t := ⟨by decide, _, rfl⟩
theorem wit_BadAccesses :
    let z : State := { st with ctl := { st.ctl with byCtrl := true } }
    Known st ∧ inBar 3 0x20 = true ∧ ¬ (16 = 32 ∧ 0x20 % 4 = 0) ∧ ¬ (16 = 64 ∧ 0x20 % 8 = 0) ∧ st.freezing = false
      ∧ Known z ∧ z.freezing = true
      ∧ (inBar 16 0x9000 = true ∧ regAt (absOff 16 0x9000) = none ∧ locate (absOff 16 0x9000) = none ∧ pageAt (absOff 16 0x9000) = none
        ∧ st.wdog.resetting.getLsbD 17 = false)
      ∧ (inBar 3 0xFF0 = true ∧ regAt (absOff 3 0xFF0) = none ∧ locate (absOff 3 0xFF0) = none ∧ pageAt (absOff 3 0xFF0) = some 3
        ∧ absOff 3 0xFF0 % 0x10000 ≠ 0 ∧ (st.page 3).isOpen = true ∧ (st.page 4).isOpen = false) := by dsimp only; and_intros <;> decide
theorem wit_ClosedPage :
    Known st ∧ st.freezing = false ∧ inBar 4 0x20 = true ∧ 0x20 % 4 = 0 ∧ pageAt (absOff 4 0x20) = some 4 ∧ (st.page 4).isOpen = false
      ∧ st.wdog.resetting.getLsbD (islandAt (absOff 4 0x20)) = false ∧ regAt (absOff 4 0x20) = some (.page 4 .sqTail)
      ∧ PReg.sqTail ≠ .pageId ∧ PReg.sqTail.wide = false := by decide

/-! ### Witnesses: block control -/

/-- `st` while it is frozen. -/
def frz : State := { st with ctl := { st.ctl with byCtrl := true, byDebug := true } }

theorem wit_BlockResetStarts : Known st ∧ Sizes st ∧ st.freezing = false ∧ Known frz ∧ Sizes frz ∧ frz.freezing = true := by decide
theorem wit_DormantControl :
    let d (p : Phase) : State := { st with ctl := { st.ctl with phase := p, dormant := true } }
    let g : State := { st with teth := { st.teth with en := true, sizeM1 := 1 } }
    (Known st ∧ st.freezing = false ∧ st.ctl.phase = .ready ∧ st.wdog.stalled = false ∧ st.teth.en = false)
      ∧ (inPhase .init).ctl.phase ≠ .ready ∧ (Known g ∧ g.freezing = false ∧ g.teth.en = true ∧ g.teth.sizeM1 ≠ 0)
      ∧ (Known (d .dormant) ∧ (d .dormant).freezing = false ∧ (d .dormant).ctl.dormant = true ∧ (d .dormant).ctl.phase = .dormant)
      ∧ (Known (d .sleeping) ∧ (d .sleeping).freezing = false ∧ (d .sleeping).ctl.phase = .sleeping) := by
  dsimp only; and_intros <;> decide
theorem wit_FreezeSources :
    Known st ∧ st.freezing = false ∧ st.teth.lock = false ∧ st.ctl.phase ≠ .dormant
      ∧ Known (inPhase .dormant) ∧ (inPhase .dormant).freezing = false ∧ (inPhase .dormant).ctl.phase = .dormant
      ∧ Known frz ∧ frz.freezing = true ∧ frz.ctl.frozen = false ∧ frz.ctl.byCtrl = true ∧ frz.ctl.byDebug = true := by decide

/-! ### Witnesses: power, islands, phases and reports -/

theorem wit_IslandEvents :
    let r : State := { st with wdog := { st.wdog with resetting := 1 } }
    let v := st.onPage 16 (fun g => { g with vecs := [{ en := true, pending := 1 }] })
    let mk (s : State) : State := { s with out := { s.out with masked := [(16, 0)] } }
    let hd (s : State) : State := { s with out := { s.out with held := [(16, 0)] } }
    (Known st ∧ st.ctl.phase = .ready ∧ st.freezing = false) ∧ (r.freezing = false ∧ r.wdog.resetting.getLsbD 0 = true)
      ∧ (Known v ∧ ((v.page 16).vecs.getD 0 {}).ripe v.ctl.lcc = true)
      ∧ ((st.page 16).vecs.getD 0 {}).ripe st.ctl.lcc = false
      ∧ (16, 0) ∉ v.out.masked
      ∧ (((mk v).page 16).vecs.getD 0 {}).ripe (mk v).ctl.lcc = true ∧ (16, 0) ∈ (mk v).out.masked ∧ (16, 0) ∉ (mk v).out.held
      ∧ (((mk (hd v)).page 16).vecs.getD 0 {}).ripe (mk (hd v)).ctl.lcc = true ∧ (16, 0) ∈ (mk (hd v)).out.held
      ∧ (((hd st).page 16).vecs.getD 0 {}).ripe (hd st).ctl.lcc = false ∧ (16, 0) ∈ (hd st).out.held ∧ (16, 0) ∉ (hd st).out.masked := by
  dsimp only; and_intros <;> decide
theorem wit_PowerSampleTaken : Known st ∧ st.freezing = false ∧ st.ctl.phase ≠ .dormant := by decide
theorem wit_PhasesChange :
    let b : State := { inPhase .init with ctl := { (inPhase .init).ctl with initOf := .blockReset, fwAccepted := true, fwReread := true } }
    (Known (inPhase .verifying) ∧ (inPhase .verifying).freezing = false ∧ (inPhase .verifying).ctl.phase = .verifying)
      ∧ (inPhase .init).ctl.phase = .init ∧ (inPhase .init).ctl.initOf = .start
      ∧ (b.ctl.phase = .init ∧ b.ctl.initOf = .blockReset ∧ b.ctl.fwAccepted = true ∧ b.ctl.fwReread = true ∧ b.freezing = false)
      ∧ (inPhase .init).ctl.fwAccepted = false ∧ (inPhase .init).ctl.fwReread = false
      ∧ (inPhase .waking).ctl.phase = .waking
      ∧ ((inPhase .sleeping).ctl.phase = .sleeping ∧ (inPhase .sleeping).wdog.stalled = false) := by
  dsimp only; and_intros <;> decide
/-- A stalled block whose atomic region is the second 2 MiB. -/
def halted : State := { st with ctl := { st.ctl with atomic := some 0x200000 }, wdog := { st.wdog with stalled := true } }
theorem wit_TrafficHeldOrDropped :
    isTraffic .collectiveComplete = true ∧ Known st ∧ Runs st ∧ frz.freezing = true ∧ (inPhase .init).freezing = false
      ∧ (inPhase .init).awake = false ∧ (∀ r, Instr.collectiveComplete ≠ .hostAccessRefused r)
      ∧ (halted.freezing = false ∧ halted.wdog.stalled = true ∧ halted.inAtomic 0x200000 = true ∧ halted.inAtomic 0x400000 = false) :=
  ⟨by decide, by decide, by decide, by decide, by decide, by decide, fun _ h => (by cases h), by decide, by decide, by decide, by decide⟩
def poison (x : PoisonAt) : Poison := { addr := 0, step := 0, bed := 0, core := true, unit := 0, place := x }
theorem wit_ReportsTaken :
    let n : State := { st with seed := { st.seed with nodes := [(9, node)] } }
    let t : State := { st with trc := { st.trc with en := true } }
    let a : State := { st with ctl := { st.ctl with atomic := some 0 } }
    (Runs a ∧ a.inAtomic 0x1FFFFF = true ∧ a.inAtomic 0x200000 = false) ∧ Runs st ∧ (poison (.weights 0 0)).place = .weights 0 0
      ∧ (Runs n ∧ (poison (.node 9)).place = .node 9 ∧ mget 9 n.seed.nodes = some node)
      ∧ (st.page 3).sqEn = true ∧ (Runs t ∧ t.trc.en = true)
      ∧ ¬ (true = true ∧ st.wdog.fenced.contains 799 = true)
      ∧ st.wdog.fenced.contains coreFault.core = false ∧ coreFault.kind = .swapSave := by dsimp only; and_intros <;> decide

/-! ### Witnesses: the step and its work -/

/-- A step that executes, with a stack item and a collective outstanding. -/
def stepOf (x : Step) : State := { st with sow := { st.sow with exec := some x } }
def step1 : Step :=
  { num := 1, members := [], small := [], dispatched := true, stack := [{ idx := 0, stack := 0, rows := [] }], coll := 1 }
def member : Member := { handle := hd, depth := 0, chunk := none, joins := false, cyclic := false, row := some 0 }
theorem wit_StepsSealed :
    let x : Laid := { members := [member], fallen := [] }
    let l : State := { st with sow := { st.sow with laid := [x] } }
    let f : State := { st with teth := { st.teth with en := true, sizeM1 := 1, index := 1, formed := true } }
    (Runs st ∧ st.mayLayOut = true)
      ∧ (Runs l ∧ l.stepLaid = true ∧ l.sow.exec = none ∧ l.composing = true ∧ l.ctl.phase = .ready ∧ l.teth.held = false
        ∧ l.grouped = false)
      ∧ (Runs f ∧ f.composing = true ∧ f.ctl.phase = .ready ∧ f.sow.exec = none ∧ f.grouped = true ∧ f.leader = false ∧ f.teth.formed = true)
      ∧ st.ctl.phase = .ready ∧ st.ctl.resumeHold = false ∧ st.sow.exec = none ∧ st.stepLaid = false := by
  dsimp only; and_intros <;> decide
def item : Item :=
  { idx := 0, kernel := 0, cls := .decode, bed := 0, ctx := 0, bound := true, epoch := 0, flow := none, seq := 0, affinity := none,
    deps := 0, waitGate := 0, sigGate := none, args := 0, blk := { model := none, tables := [], grafts := [] }, step := 1, part := 0, rows := [], state := .placed 0 }
def core : Core := { bed := 0, join := 0, running := some 0, flagged := true }
def bed0 : Bed := { cores := 1, ctxs := { model := some 0, resident := true } :: List.replicate 3 {} }
/-- `step1` with an item placed on core 0 of bed 0. -/
def work (c : Core) : State :=
  { stepOf step1 with disp := { items := [item], nextIdx := 1, beds := bed0 :: List.replicate 31 {}, cores := [(0, c)], await := [(0, 0)] } }
def prow : PRow :=
  { row := 0, handle := hd, k := 1, d := 4, t := 1, wave := 0, lane := 0, prof := prof, tokens := [], pos := List.replicate 5 {},
    state := .opened, skips := 0, out := none }
theorem wit_StepWorkDone :
    let free : Core := { core with running := none, flagged := false }
    let p : State := { stepOf step1 with prn := { rows := [prow] } }
    let held : StackItem := { idx := 0, stack := 0, rows := [1], proj := true }
    let w : State := { stepOf { step1 with stack := [held] } with prn := { rows := [prow, { prow with row := 1, wave := 1 }] } }
    let bad : StepWork := ⟨[⟨0, .swap, 0, 0, 0, [], 0, 0, none, 0⟩], [], 0⟩
    (Runs (stepOf { step1 with dispatched := false }) ∧ bad.items.all (itemPlaced (ungate [9, 10, 14] (stepOf step1)) step1) = false
        ∧ ([] : List ItemIn).all (itemPlaced (ungate [9, 10, 14] (stepOf step1)) step1) = true
        ∧ (gatesOf []).all (ungate [9, 10, 14] (stepOf step1)).gateFree = true)
      ∧ (Runs w ∧ w.stackHeld held = true)
      ∧ (let lv : Core := { core with leaving := true }
        (work lv).core 0 = some lv ∧ lv.running = some 0 ∧ lv.flagged = true)
      ∧ (let sw := onBed 0 (fun b => { b with sw := some ⟨[0], 1, .drain, [], []⟩ }) (work free)
        (sw.bed 0).sw = some ⟨[0], 1, .drain, [], []⟩ ∧ sw.accepts 0 item = true)
      ∧ (work { free with join := 1 }).accepts 0 item = false
      ∧ (Runs (work free) ∧ (work free).disp.await = [(0, 0)] ∧ (work free).item 0 = some item ∧ (work free).accepts 0 item = true
        ∧ ((work free).bed 0).sw = none)
      ∧ (Runs (work core) ∧ (work core).core 0 = some core ∧ core.running = some 0 ∧ (work core).item 0 = some item
        ∧ core.flagged = true ∧ core.leaving = false)
      ∧ step1.stack.find? (fun i => i.idx = 0) = some { idx := 0, stack := 0, rows := [] } ∧ (stepOf step1).stackHeld { idx := 0, stack := 0, rows := [] } = false ∧ step1.coll ≠ 0
      ∧ Runs p ∧ p.laneOf plist.row = some 0 ∧ (stepOf step1).laneOf plist.row = none
        ∧ ¬ (plist.core = true ∧ p.wdog.fenced.contains plist.unit = true) ∧ ¬ (guess.core = true ∧ p.wdog.fenced.contains guess.unit = true)
        ∧ (plist.core = true ∧ [plist.unit].contains plist.unit = true)
      ∧ (p.openRow guess.row guess.parity = some prow ∧ 4 ≤ prow.d ∧ (prow.pos.getD 4 {}).guess = none) := by
  dsimp only; and_intros <;> decide
theorem wit_ContextsSwitch :
    let sw (p : SwPhase) : State := { st with disp := { st.disp with beds := { bed0 with sw := some ⟨[], 1, p, [], []⟩ } :: List.replicate 31 {} } }
    let want : State := { withSlot .resident with disp :=
      { items := [{ item with ctx := 1, state := .ready }], nextIdx := 1
        beds := { bed0 with ctxs := [{ model := some 0, resident := true }, { model := some 0 }, {}, {} ] } :: List.replicate 31 {}
        cores := [(0, { core with running := none, flagged := false })] } }
    let tear : State := { st with disp := { st.disp with beds := { bed0 with ctxs := [{ tearing := true }] } :: List.replicate 31 {} } }
    let fit : State := { withSlot .resident with disp :=
      { st.disp with beds := { bed0 with ctxs := [{ model := some 0, tearing := true }] } :: List.replicate 31 {} } }
    let join : State := { st with disp := { st.disp with cores := [(799, { core with joining := true })] } }
    (Runs want ∧ (want.bed 0).sw = none ∧ switchIn want 0 = some 1 ∧ (want.ctx 0 1).model = some 0)
      ∧ (Runs (sw .save) ∧ ((sw .save).bed 0).sw = some ⟨[], 1, .save, [], []⟩)
      ∧ (Runs (sw .restore) ∧ ((sw .restore).bed 0).sw = some ⟨[], 1, .restore, [], []⟩)
      ∧ (Runs tear ∧ (tear.ctx 0 0).tearing = true ∧ (tear.ctx 0 0).model = none)
      ∧ (let v := onCtx 0 0 (fun x => { x with tearing := false }) fit
        Runs fit ∧ (fit.ctx 0 0).tearing = true ∧ (v.ctx 0 0).model = some 0 ∧ v.slotUp 0 = true ∧ v.fits 0 [] 0 = true)
      ∧ (Runs join ∧ join.core 799 = some { core with joining := true }) := by
  dsimp only; and_intros <;> decide

/-! ### Witnesses: completions of the block's own work -/

def move (c : MoveFor) : Move :=
  { slot := 5, handle := hd, plot := 0, cls := c, flying := true, frame := 0, run := none, dead := false, bytes := 0 }
theorem wit_CopiesEnd :
    let wait (o : U8) (w : Wait) := st.onPage 3 (fun g => { g with started := [⟨hdr 1, o, w, false⟩] })
    let ext : ExtendF := ⟨hd, 1, 0, 1, false⟩
    let s2 : State := { wait 5 (.extend hd ext) with reqs := [(5, req .paused none)] }
    let s5 := st.onTen 3 (fun x => { x with spools := [(65535, { log2 := 4, hdrAddr := 0, ringAddr := 0, head := 16 })] })
    let mv (c : MoveFor) : State := { st with plots := { st.plots with moves := [move c] } }
    let re : State := withReq { req .cold none with restore := some ⟨false, [], none, false⟩ }
    let r1 : Req := { req .queued none with copied := false, adm := { adm with promptLen := 1 } }
    st.gdnDown (st.page 3).gardener.toNat = false ∧ (Runs (withReq r1) ∧ (withReq r1).reqH hd = some r1 ∧ r1.copied = false ∧ [(0 : U32)].length = r1.adm.promptLen.toNat)
      ∧ (Runs s2 ∧ s2.reqH hd = some (req .paused none) ∧ s2.extendOf hd = some ext ∧ [(0 : U32)].length = ext.count.toNat)
      ∧ (Runs (wait 6 (.bias { prof with biasCount := 1 })) ∧ (wait 6 (.bias { prof with biasCount := 1 })).biasOf 3 7 = some { prof with biasCount := 1 })
      ∧ (Runs (wait 0x11 (.select sel)) ∧ (wait 0x11 (.select sel)).selectOf 3 7 = some sel ∧ [[(0 : U32)]].length = sel.rows.toNat
        ∧ rowsFit sel [[0]] = true ∧ (wait 0x11 (.select sel)).lanesFree = true
        ∧ (stepOf { step1 with dispatched := false }).lanesFree = false)
      ∧ (Runs s5 ∧ s5.spool 3 65535 = some { log2 := 4, hdrAddr := 0, ringAddr := 0, head := 16 } ∧ ((16 : U32) - 0).toNat ≤ 2 ^ 4)
      ∧ (Runs (mv .pressure) ∧ (mv .pressure).moveAt 5 0 false = some (move .pressure))
      ∧ (Runs (mv .restore) ∧ (mv .restore).moveAt 5 0 true = some (move .restore))
      ∧ (Runs re ∧ (sortBy (fun (a b : Req) => decide (a.heldSeq < b.heldSeq)) ((re.reqs.map (fun e => e.2)).filter (fun r =>
        match r.restore with | some x => !x.running | none => false))).head?.isSome = true) := by
  dsimp only; and_intros <;> decide
theorem wit_ModelWorkEnds :
    let load := withSlot .loading
    let graft : State := { st with gh := { st.gh with grafts := [{ gver with state := .loading, walked := true }] } }
    let taint (b : Bool) : State := { st with gh := { st.gh with slots := [{ state := .tainted, reloading := b }] } }
    let walk : State := { st with seed := { st.seed with walks := [.model 31] } }
    (Runs load ∧ load.gdnDown 0 = false ∧ (load.slot 0).state = .loading ∧ load.desc 0 = some desc ∧ loadCause desc [⟨0, 4096, 0, 0, false⟩] [] = 0)
      ∧ (Runs graft ∧ graft.gver 4095 1 = some { gver with state := .loading, walked := true } ∧ (graft.slot 0).state ≠ .loading
        ∧ (load.slot 0).state = .loading)
      ∧ loadCause desc [] [] ≠ 0 ∧ reloadCause .refused ≠ 0 ∧ reloadCause (.readBack 1 0) = 0 ∧ ((taint true).slot 0).taint.drop 1 = []
      ∧ (let two : State := { st with gh := { st.gh with slots := [{ state := .tainted, reloading := true, taint := [0, 1] }] } }
        Runs two ∧ (two.slot 0).taint.drop 1 ≠ [])
      ∧ (Runs (taint false) ∧ ((taint false).slot 0).state = .tainted ∧ ((taint false).slot 0).reloading = false
        ∧ (taint false).mayReload ((taint false).slot 0).taintStep = true)
      ∧ (Runs (taint true) ∧ ((taint true).slot 0).state = .tainted ∧ ((taint true).slot 0).reloading = true)
      ∧ (Runs walk ∧ walk.seed.walks.contains (.model (BitVec.ofNat 5 (31 : Fin 32).val)) = true) := by
  dsimp only; and_intros <;> decide
theorem wit_TenantsProgress :
    let q : State := { withSlot .resident with reqs := [(5, req .queued none)] }
    let b := st.onTen 15 (fun x => { x with period := 1 })
    let n : State := { st with seed := { st.seed with nodes := [(9, node)] } }
    let d := st.onPage 3 (fun g => { g with stopping := some ⟨true, 0, false⟩ })
    let v := expireReq hd (ungate (13 :: q.pageIslands 3) q)
    (Runs q ∧ q.sow.short = 0 ∧ q.nextTenant = some 3 ∧ q.gdnDown (q.page 3).gardener.toNat = false ∧ q.queuedOf 3 = [req .queued none]
        ∧ (v.reqH hd = some (req .queued none) ∧ v.graftUp (req .queued none) = true ∧ v.slotUp 0 = true))
      ∧ (Runs b ∧ (b.ten 15).period ≠ 0 ∧ (b.ten 15).periodAt.toNat + (b.ten 15).period.toNat * 1000000000 ≤ b.ctl.lcc.toNat)
      ∧ (Runs n ∧ (n.seed.nodes.map (fun e => e.1)).find? (fun n' => decide (n.seed.sweep ≤ n')) = some 9)
      ∧ (Runs d ∧ (d.page 3).stopping = some ⟨true, 0, false⟩ ∧ 0 ≤ d.sow.comp ∧ d.tenRows 3 = []) := by
  dsimp only; and_intros <;> decide

/-! ### Witnesses: heat, watchdog, arbiters, Tether and trace -/

theorem wit_ThermalEvents :
    let now := st.ctl.lcc
    let hot : State := { st with pwr := { st.pwr with nodes := List.replicate 24 { est := 3000, asked := true, lastAsk := some 0 }, lcc := now } }
    let cold : State := { st with pwr := { st.pwr with ladders := List.replicate 13 { b := 1, moved := some 0, cool := some 0 }, lcc := now } }
    let mild : State := { st with pwr := { st.pwr with nodes := List.replicate 24 { est := 0, lastAsk := some 0 } } }
    (Runs st ∧ st.gdnDown 0 = false ∧ st.pwr.lcc.toNat + 100000 ≤ st.ctl.lcc.toNat ∧ st.pwr.lcc ≠ st.ctl.lcc ∧ hot.pwr.lcc = hot.ctl.lcc)
      ∧ (Runs hot ∧ hot.over 12 = true ∧ (hot.pwr.ladders.getD 12 {}).rested 5 hot.ctl.lcc = true ∧ (hot.pwr.ladders.getD 12 {}).b ≠ 15)
      ∧ (Runs cold ∧ cold.over 0 = false ∧ cold.coolNow 0 = true ∧ cold.pwr.silent = false ∧ (cold.pwr.ladders.getD 0 {}).b ≠ 0
        ∧ (cold.pwr.ladders.getD 0 {}).rested 50 cold.ctl.lcc = true ∧ (cold.pwr.ladders.getD 0 {}).cool = some 0
        ∧ (0 : U64).toNat + 50000000 ≤ cold.ctl.lcc.toNat)
      ∧ (st.node 23).lastAsk = none ∧ (hot.node 11).asked = true ∧ (hot.node 11).lastAsk = some 0
      ∧ (hot.limitOf 23 - 80 ≤ (hot.node 23).est ∧ (0 : U64).toNat + 10000000 ≤ hot.ctl.lcc.toNat)
      ∧ (Runs mild ∧ (mild.node 0).lastAsk = some 0 ∧ ¬ mild.limitOf 0 - 80 ≤ (mild.node 0).est ∧ mild.pwr.turn = 0
        ∧ mild.pwr.turnAt.toNat + 100000000 ≤ mild.ctl.lcc.toNat ∧ ¬ mild.limitOf 1 - 80 ≤ (mild.node 1).est ∧ mild.pwr.turn ≠ 1)
      ∧ st.pwr.lastAt.toNat + 1000000 ≤ st.ctl.lcc.toNat := by
  dsimp only; and_intros <;> decide
theorem wit_PowerFrame : ∃ t, exec (.droop 17) st = .next t := ⟨_, rfl⟩
/-- A step without outstanding work, whose only item runs, and the same with a stack item. -/
theorem wit_WatchdogAndGardeners :
    let w := work { core with flagged := false }
    let quiet : State := { w with sow := { w.sow with exec := some { step1 with stack := [], coll := 0 } } }
    let gone : StackItem := { idx := 0, stack := 0, rows := [], issued := true }
    let stuck : State := { w with sow := { w.sow with exec := some { step1 with stack := [gone] } } }
    (Runs stuck ∧ stuck.armed = true ∧ stuck.wdog.progress.toNat + stuck.wdog.limit.toNat * 1000 < stuck.ctl.lcc.toNat ∧ stuck.stuck = []
        ∧ stuck.hung bite.hung = [] ∧ stuck.sow.exec = some { step1 with stack := [gone] } ∧ gone.issued = true ∧ stuck.hasHung gone.at_ = true)
      ∧ (Runs quiet ∧ quiet.armed = true ∧ quiet.wdog.progress.toNat + quiet.wdog.limit.toNat * 1000 < quiet.ctl.lcc.toNat
        ∧ quiet.stuck = [] ∧ quiet.hung bite.hung = [] ∧ (∀ x, quiet.sow.exec = some x →
          (∀ i ∈ x.stack, i.issued = false ∨ quiet.hasHung i.at_ = false) ∧ (quiet.grouped = true → x.coll = 0 ∨ quiet.hasHung x.start = false))
        ∧ quiet.copies = false ∧ quiet.shortRows = [])
      ∧ (Runs st ∧ st.armed = false) := by
  dsimp only; and_intros <;> first | decide | (intro x h; cases h; decide)
theorem wit_WatchdogAndGardeners_cores :
    let g (c : Nat) : State := { st with wdog := { st.wdog with gdnTimes := [(c, [1, 2, 3])] } }
    let r : State := { st with wdog := { st.wdog with gdnRestarting := 128 } }
    (Runs st ∧ st.gdnDown 0 = false) ∧ (Runs r ∧ r.gdnDown 7 = true)
      ∧ (Runs (g 0) ∧ (g 0).wdog.gdnOut.getLsbD 0 = false ∧ (g 0).thrice 0 = true)
      ∧ (Runs (g 7) ∧ (g 7).wdog.gdnOut.getLsbD 7 = false ∧ (g 7).thrice 7 = true ∧ (g 7).wdog.gdnOut.getLsbD 1 = false)
      ∧ st.thrice 7 = false
      ∧ r.wdog.gdnRestarting.getLsbD 7 = true ∧ st.wdog.gdnRestarting.getLsbD 7 = false := by
  dsimp only; and_intros <;> decide
theorem wit_HighestPositionWins :
    let a := (arbPosts 1 (postsOf [0, 5] [1, 2]) (ungate [12] st)).arb 1
    let h := onArb 1 (fun a => { a with holder := some 5, left := 2 }) st
    let b := (arbPosts 1 [] (ungate [12] h)).arb 1
    Runs st ∧ Sizes st ∧ a.isEvent (st.ingestHeld 1) = true ∧ a.rolled.winner = some 5
      ∧ (Runs h ∧ Sizes h ∧ b.holder = some 5 ∧ b.free (h.ingestHeld 1) = false ∧ b.requests b.debug = false) := by
  dsimp only; and_intros <;> decide
theorem wit_ArbiterEvents :
    let r := onArb 3 (fun a => { a with rollDue := true }) st
    let h := onArb 3 (fun a => { a with holder := some 1, left := 2 }) st
    (Runs st ∧ Sizes st ∧ (st.arb 3).rollDue = false)
      ∧ (Runs r ∧ Sizes r ∧ (r.arb 3).rollDue = true ∧ ((arbPosts 3 [(1, 1)] (ungate [13] r)).arb 3).isEvent (r.ingestHeld 3) = true
        ∧ ((arbPosts 3 [] (ungate [13] r)).arb 3).isEvent (r.ingestHeld 3) = false)
      ∧ (Runs h ∧ Sizes h ∧ (h.arb 3).holder = some 1 ∧ 1 ≠ (h.arb 3).debug
        ∧ (h.arb 3).free (h.ingestHeld 3) = false ∧ (h.arb 3).debug < (h.arb 3).inp.length ∧ 1 < (h.arb 3).inp.length
        ∧ (h.arb 3).egress = false ∧ (st.arb 0).depth ≠ 0 ∧ 0 < (h.arb 3).inputs
        ∧ ∀ i, i < (h.arb 3).inputs → i ≠ (h.arb 3).debug → (h.arb 3).rank i < (h.arb 3).rank (h.arb 3).debug) := by
  dsimp only; and_intros <;> decide

/-- A member of a group of two whose port runs. -/
def ring (index : BitVec 10) : State :=
  { st with
    out := { st.out with tetherEn := true }
    teth := { st.teth with en := true, sizeM1 := 1, index := index, lock := true } }
/-- A frame as its sender makes it: with its WORDS and its CRC. -/
def sent (f : FrameOut) : FrameMeta := f.sealed.mt
def m0 : FrameMeta := { fmeta with origin := 0 }
def status : StatusE := { free := 0, hot := 0, slow := false, intact := true, ballast := 0, manifestStep := 0, grafts := [], restored := [] }
theorem wit_FramesTaken :
    let l := ring 0
    let f := ring 1
    (TakesFrame (.manifest (sent (.manifest m0 [])) []) f ∧ f.leader = false) ∧ TakesFrame (.stepToken (sent (.stepToken m0 [])) []) f
      ∧ TakesFrame (.tokens (sent (.tokens fmeta [])) []) l
      ∧ (TakesFrame (.status (sent (.status fmeta status)) status) l ∧ l.leader = true)
      ∧ TakesFrame (.slow (sent (.slow fmeta 1 2)) 1 2) l ∧ TakesFrame (.profile (sent (.profile m0 3 prof [])) 3 prof []) f
      ∧ TakesFrame (.break_ (sent (.break_ m0))) f
      ∧ Rings l ∧ l.ringUp = true ∧ frameOf (.slow fmeta 0 0) = some (.slow fmeta 0 0) ∧ (FrameOut.slow fmeta 0 0).mt.origin ≠ l.teth.index
      ∧ (FrameOut.slow fmeta 0 0).good = false
      ∧ (FrameOut.slow { fmeta with stomp := true } 0 0).sealed.good = true ∧ (FrameOut.slow { fmeta with group := 1 } 0 0).mt.group ≠ l.teth.id
      ∧ ((FrameOut.slow { fmeta with epoch := 1 } 0 0).kind ≠ 0x01 ∧ (FrameOut.slow { fmeta with epoch := 1 } 0 0).mt.epoch ≠ l.teth.epoch)
      ∧ (FrameOut.slow m0 0 0).mt.origin = l.teth.index ∧ (FrameOut.slow m0 0 0).good = false ∧ (FrameOut.slow m0 0 0).kind ≠ 0x01
      ∧ (FrameOut.slow m0 0 0).sealed.good = true ∧ (FrameOut.slow m0 0 0).sealed.mt.alien = 0 := by
  dsimp only; and_intros <;> decide +kernel
set_option maxRecDepth 100000 in
theorem wit_RingEvents :
    let o (b : Bool) : OwnFrame := ⟨6, 1, 0, 0, b, .slow fmeta 0 0⟩
    let f := ring 1
    let l := ring 0
    let own (b : Bool) : State := { l with teth := { l.teth with own := [o b] } }
    let hold : State := { l with teth := { l.teth with held := true, heldAt := 0, holdLimit := 1 } }
    let un : State := { l with teth := { l.teth with lock := false } }
    (Rings (own true) ∧ (own true).ringUp = true ∧ (own true).ownFrame 6 1 0 = some (o true)
        ∧ (o true).sent.toNat + l.teth.lossUs.toNat * 1000 ≤ l.ctl.lcc.toNat)
      ∧ (Rings (own false) ∧ (own false).ownFrame 6 1 0 = some (o false))
      ∧ (f.ringUp = true ∧ (0 : BitVec 10) ≠ f.teth.index ∧ f.takes (FrameOut.rollcall m0 0 [0] [0]).sealed = true ∧ f.wdog.stalled = false ∧ f.leader = false)
      ∧ ((0 : BitVec 10) = l.teth.index ∧ l.leader = true ∧ l.teth.formed = false ∧ (FrameOut.rollcall m0 0 [0, 1] [0]).sealed.good = true
        ∧ fmeta.group = l.teth.id ∧ fmeta.epoch = l.teth.epoch ∧ l.colls = 0 ∧ (stepOf step1).colls ≠ 0
        ∧ ∀ i, i < l.teth.sizeM1.toNat + 1 → i ∈ [0, 1])
      ∧ (l.calling = true ∧ l.teth.rollAt.toNat + l.teth.lossUs.toNat * 1000 ≤ l.ctl.lcc.toNat)
      ∧ (Rings hold ∧ hold.grouped = true ∧ hold.teth.held = true ∧ hold.teth.abandoned = false ∧ hold.teth.holdLimit ≠ 0
        ∧ hold.teth.heldAt.toNat + hold.teth.holdLimit.toNat * 10000000 < hold.ctl.lcc.toNat)
      ∧ l.teth.lock = true
      ∧ (Rings un ∧ un.teth.lock = false ∧ un.out.tetherEn = true ∧ un.grouped = true ∧ un.sow.exec = none) := by
  dsimp only; and_intros <;> decide +kernel
set_option maxRecDepth 10000 in
theorem wit_TraceRecords :
    let r : TraceRec := ⟨1, 0, 0, 0, 0, none, 0, 0, 0, 0⟩
    let t (n : U32) : Trc := { en := true, log2 := 8, events := 0x01000001, tenants := 0x8000, head := n, bufs := [[r], [], [], [r]] }
    let full : Trc := { t 0 with bufs := [List.replicate 128 r] }
    (t 0).en = true ∧ (t 0).events.getLsbD 24 = true ∧ (t 0).tenants.getLsbD 15 = true ∧ (t 0).events.getLsbD 25 = false
      ∧ ¬ 128 ≤ ((t 0).bufs.getD (traceBuf 0 0) []).length ∧ 128 ≤ (full.bufs.getD (traceBuf 0 0) []).length
      ∧ (t 0).bufs.getD (traceBuf 3 0) [] = [r] ∧ ((t 0).head - (t 0).tail).toNat ≠ 2 ^ (t 0).log2.toNat
      ∧ ((t 256).head - (t 256).tail).toNat = 2 ^ (t 256).log2.toNat
      ∧ ({ st with trc := { t 0 with served := 7 } } : State).traceInput 7 = some 3 := by decide

/-! ### A pin of one plot -/

/-- A request whose first plot is offered and in the Seedbed. -/
def pinReq : Req := { req .decode (some 0) with log := List.replicate 128 1, table := [⟨0, 0, 0, true, 0⟩] }
def pinHash : Nat := fnv (fnv fnvBasis (st.keyOf pinReq 0).bytes) (tokBytes (plotToks pinReq.log 0))
def pinSt : State :=
  { withReq pinReq with seed := { st.seed with nodes :=
    [(pinHash % seedNodes, { node with hash := BitVec.ofNat 64 pinHash, depth := 0, key := st.keyOf pinReq 0, toks := pinReq.log })] }
                        plots := { st.plots with refs := [(0, 2)] } }
set_option maxRecDepth 20000 in
theorem wit_Pin :
    let c : Instr := .seedbedPin 3 (hdr 1) ⟨hd, 1, 0, false⟩
    Passes 3 c (hdr 1) pinSt ∧ ((fetched 3 c pinSt).named 3 hd).2 = some pinReq ∧ 1 ≤ pinReq.adm.promptLen.toNat / 128
      ∧ pinReq.offeredTo 1 = true ∧ (chainIn pinSt pinReq 0 1).1.length = 1 ∧ (pinSt.ten 3).pins.length < 256
      ∧ (let m : Instr := .seedbedPin 16 (hdr 1) ⟨hd, 1, 1, false⟩
        Passes 16 m (hdr 1) pinSt ∧ ((fetched 16 m pinSt).named 16 hd).2 = some pinReq
          ∧ (publish 5 (pinSt.keyOf pinReq 1) [0] none pinSt).2.length = 1 ∧ (pinSt.ten 16).pins.length < 256)
      ∧ Passes 3 (.seedbedPin 3 (hdr 1) ⟨hd, 1, 1, false⟩) (hdr 1) pinSt := by
  dsimp only; and_intros <;> decide +kernel

/-! ### Witnesses: the other forms -/

theorem wit_RingMessageHandled_waits :
    let c : Instr := .queryReq 3 (hdr 1) handleF
    let s := st.onPage 3 (fun g => { g with sqEn := false })
    msgHead c = some (3, .ring (hdr 1)) ∧ 3 < s.pages.length ∧ Known s ∧ Quiet s ∧ ¬ Fetches 3 c s := by
  dsimp only; and_intros <;> decide
theorem wit_RequestMessages_forms :
    let u : Instr := .cancel 3 (.urgent 7 true (hdr 1)) handleF
    let takes (c : Instr) (r : Req) (s : State) : Prop :=
      Posts 3 7 true c (hdr 1) s ∧ ((posted 3 7 c s).named 3 hd).2 = some r
    let res : Instr := .resume 3 (hdr 1) handleF
    let turn : Req := { req .paused none with turnEnd := true }
    let busy := (withReq (req .paused none)).onPage 4 (fun g => { g with started := [⟨hdr 1, 4, .resume hd, false⟩] })
    (takes u (req .ended none) (withReq (req .ended none)) ∧ takes u (req .queued none) (withReq (req .queued none))
        ∧ takes u (req .decode (some 0)) (withReq (req .decode (some 0)))
        ∧ takes u { req .decode (some 0) with cancelPending := true } (withReq { req .decode (some 0) with cancelPending := true })
        ∧ Posts 3 7 true u (hdr 1) st ∧ ((posted 3 7 u st).named 3 hd).2 = none)
      ∧ (Named res turn ∧ turn.turnEnd = true ∧ (withReq turn).extending hd = false)
      ∧ Named res (req .decode (some 0)) ∧ Named res (req .ended none)
      ∧ (Passes 3 res (hdr 1) busy ∧ ((fetched 3 res busy).named 3 hd).2 = some (req .paused none) ∧ busy.resuming hd = true) := by
  dsimp only; and_intros <;> decide
theorem wit_Messages_forms :
    let close := st.onPage 3 (fun g => { g with stopping := some ⟨false, 0, false⟩ })
    let rst (t : BitVec 4) : Instr := .tenantReset 16 (hdr 1) ⟨t, true, false⟩
    let led (h : U32) : Instr := .queryLedger 3 (hdr 1) ⟨3, true, h, 64, false⟩ true
    let r := req .queued none
    (Passes 16 (rst 3) (hdr 1) close ∧ (close.page 3).stopping ≠ none) ∧ (Passes 16 (rst 4) (hdr 1) st ∧ (st.page 4).isOpen = false)
      ∧ (Passes 3 (led hd) (hdr 1) (withReq r) ∧ ((fetched 3 (led hd) (withReq r)).named 3 hd).2 = some r)
      ∧ (Passes 3 (led 0) (hdr 1) st ∧ ((fetched 3 (led 0) st).named 3 0).2 = none)
      ∧ (Passes 3 (.select 3 (hdr 2) { sel with k := 0 }) (hdr 2) st ∧ selectOk { sel with k := 0 } = false)
      ∧ (Passes 16 (.bedConfig 16 (hdr 1) { bedF with firstCore := 799 }) (hdr 1) st
        ∧ (bedCheck { bedF with firstCore := 799 } (fetched 16 (.bedConfig 16 (hdr 1) { bedF with firstCore := 799 }) st)).isSome = true)
      ∧ Passes 16 (.setCyclic 16 (hdr 3) { cyc with tenantB := 1, length := 64 }) (hdr 3) st := by
  dsimp only; and_intros <;> decide
set_option maxRecDepth 20000 in
theorem wit_PinAndFlush_forms :
    let pin (n : BitVec 18) : Instr := .seedbedPin 3 (hdr 1) ⟨hd, n, 0, false⟩
    let r := req .queued none
    let full := pinSt.onTen 3 (fun x => { x with pins := List.replicate 256 ⟨0, 0, []⟩ })
    let fl (b : Bool) : Instr := .coldFlush 3 (hdr 1) ⟨if b then 0 else hd, b, false⟩
    (Passes 3 (pin 2) (hdr 1) (withReq r) ∧ ¬ 2 ≤ r.adm.promptLen.toNat / 128)
      ∧ (Passes 3 (pin 1) (hdr 1) (withReq r) ∧ ¬ r.offeredTo 1 = true)
      ∧ (Passes 3 (pin 1) (hdr 1) full ∧ pinReq.offeredTo 1 = true ∧ (chainIn full pinReq 0 1).1.length = 1 ∧ 256 ≤ (full.ten 3).pins.length)
      ∧ Passes 3 (fl true) (hdr 1) (withReq (req .paused none))
      ∧ (Named (fl false) (req .cold none) ∧ Named (fl false) (req .ended none) ∧ Named (fl false) (req .decode (some 0)))
      ∧ (Passes 3 (fl false) (hdr 1) st ∧ ((fetched 3 (fl false) st).named 3 hd).2 = none) := by
  dsimp only; and_intros <;> decide +kernel
theorem wit_GreenhouseMessages_forms :
    let self : Instr := .modelLoad 16 (hdr 1) { loadF with fbValid := true } (some desc)
    let s := withSlot .loading
    let g : State := { s with gh := { s.gh with grafts := [{ gver with ver := 2 }], newest := [(4095, 1)] } }
    let big : GraftDesc := { gdesc with graftBytes := 0xFFFFFFFFFFFF }
    (Passes 16 self (hdr 1) st ∧ (st.slot 0).state = .empty)
      ∧ (Passes 16 (.modelEvict 16 (hdr 1) ⟨0, false⟩) (hdr 1) s ∧ (s.slot 0).state = .loading)
      ∧ (Passes 16 (.graftLoad 16 (hdr 1) graftF none) (hdr 1) st ∧ st.slotNamed 0 = false)
      ∧ (Passes 16 (.graftLoad 16 (hdr 1) graftF none) (hdr 1) s ∧ s.slotNamed 0 = true ∧ s.hasGraft 4095 = false)
      ∧ (Passes 16 (.graftLoad 16 (hdr 1) graftF (some big)) (hdr 1) s ∧ stackRoom < s.stackUsed + big.graftBytes.toNat)
      ∧ (Passes 16 (.graftReplace 16 (hdr 1) graftF (some gdesc)) (hdr 1) g ∧ g.hasGraft 4095 = true
        ∧ g.gver 4095 (g.newestVer 4095 + 1) ≠ none) := by
  dsimp only; and_intros <;> decide
theorem wit_Registers_forms :
    let r : State := { st with wdog := { st.wdog with resetting := 0x8000 } }
    let on : State := { st with teth := { st.teth with en := true } }
    let big : State := { st with teth := { st.teth with sizeM1 := 1 } }
    let out : State := { st with teth := { st.teth with index := 1 } }
    (Known r ∧ r.freezing = false ∧ inBar 16 0x5000 = true ∧ 0x5000 % 4 = 0 ∧ r.wdog.resetting.getLsbD (islandAt (absOff 16 0x5000)) = true
        ∧ isLowHalf (absOff 16 0x5000) false = false ∧ (r.wdog.heldWrites.filter (fun x => x.island = islandAt (absOff 16 0x5000))).length < 64)
      ∧ (Known frz ∧ frz.freezing = true ∧ inBar 3 0x20 = true ∧ regAt (absOff 3 0x20) = some (.page 3 .sqTail))
      ∧ (Writes pf 0x7000 true .tetherCtrl on ∧ on.teth.en = true)
      ∧ (Writes pf 0x7000 true .tetherCtrl big ∧ big.teth.sizeM1 ≠ 0 ∧ big.ctl.phase = .ready)
      ∧ (Writes pf 0x7000 true .tetherCtrl out ∧ ¬ out.teth.index.toNat ≤ out.teth.sizeM1.toNat)
      ∧ (Known frz ∧ frz.freezing = true ∧ inBar 16 0x8A28 = true ∧ 0x8A28 % 8 = 0 ∧ regAt (absOff 16 0x8A28) = some .dlActions
        ∧ Reg.dlActions.wide = true ∧ Reg.dlActions.answered = false) :=
  ⟨by decide, by decide, ⟨writes_of (by decide) (by decide) (by decide), by decide⟩,
    ⟨writes_of (by decide) (by decide) (by decide), by decide⟩, ⟨writes_of (by decide) (by decide) (by decide), by decide⟩, by decide⟩
theorem wit_ArbiterRegisters_debug :
    Writes pf (arbBase 0 + 0xA0 + 4 * 31) false (.arb 0 (.quota 31)) st ∧ (st.arb 0).debug ≤ 31 :=
  ⟨writes_of (by decide) (by decide) (by decide), by decide⟩
theorem wit_Control_forms :
    let z : State := { frz with ctl := { frz.ctl with dormant := true } }
    let n : State := { frz with ctl := { frz.ctl with phase := .init } }
    let l : State := { st with teth := { st.teth with lock := true } }
    let d : State := { frz with ctl := { frz.ctl with frozen := true } }
    (Known frz ∧ frz.freezing = true ∧ frz.noDormant = false ∧ n.noDormant = true ∧ z.ctl.dormant = true ∧ frz.ctl.dormant = false)
      ∧ (Known l ∧ l.freezing = false ∧ l.ctl.phase ≠ .dormant ∧ l.teth.lock = true) ∧ (Known d ∧ d.ctl.frozen = true)
      ∧ isOwn (.sensorRead 0) = true ∧ frz.pending = [] ∧ frz.ctl.phase ≠ .dormant := by
  dsimp only; and_intros <;> decide
theorem wit_Events_forms :
    let spool : Spool := { log2 := 4, hdrAddr := 0, ringAddr := 0, owner := some hd, head := 16 }
    let s := (withReq (req .decode (some 0))).onTen 3 (fun x => { x with spools := [(65535, spool)] })
    let run : ColdRun := { tier := .host 3, base := 0, len := 1 }
    let mv : State := { st with plots := { st.plots with moves := [{ move .restore with run := some run }] } }
    let gr (b : Bool) : State := { st with gh := { st.gh with grafts := [{ gver with state := .tainted, reloading := b, taint := [0] }] } }
    let lock : State := { ring 0 with teth := { (ring 0).teth with lock := false, en := false } }
    (Runs s ∧ s.spool 3 65535 = some spool ∧ s.reqH hd = some (req .decode (some 0)) ∧ (spool.head - 0).toNat ≤ 2 ^ spool.log2.toNat
        ∧ 2 ^ spool.log2.toNat < (spool.head - 0xFFFFFFFF).toNat)
      ∧ (Runs mv ∧ mv.moveAt 5 0 true = some { move .restore with run := some run })
      ∧ (Runs (gr true) ∧ (gr true).gver 4095 1 = some { gver with state := .tainted, reloading := true, taint := [0] })
      ∧ (Runs (gr false) ∧ (gr false).gver 4095 1 = some { gver with state := .tainted, reloading := false, taint := [0] }
        ∧ (gr false).mayReload 0 = true)
      ∧ (let walk : State := { st with seed := { st.seed with walks := [.graft 4095 1] } }
        Runs walk ∧ walk.seed.walks.contains (.graft (BitVec.ofNat 12 4095) 1) = true)
      ∧ (Rings lock ∧ lock.teth.lock = false ∧ lock.out.tetherEn = true ∧ lock.grouped = false) := by
  dsimp only; and_intros <;> decide

end Sys2Proof.Tests
end

section
/-! SUPPORT. Reads at the register port, and the proof of O32: what a read command of 32-bit registers answers, and what the two words
of the LCC read and latch (03 R79; 17 R423, R424). -/

namespace Sys2Proof.Machine

/-! ### Read commands of 32-bit registers -/

theorem locate_of_regAt {off : Nat} {r : Reg} (hr : regAt off = some r) : locate off = some (r, off, false) := by
  simp only [locate, hr]

theorem islandAt_of_regAt {off : Nat} {r : Reg} (hr : regAt off = some r) : islandAt off = r.island := by
  simp only [islandAt, locate_of_regAt hr]

/-- An aligned 32-bit read of a 32-bit register is a read of that word. -/
theorem readCmd_word (fn : Fin 17) (off : Nat) (r : Reg) (s : State) (hk : Known s) (hb : inBar fn off = true) (ha : off % 4 = 0)
    (hr : regAt (absOff fn off) = some r) (hw : r.wide = false) :
    readCmd fn off 32 s = .next (answer (readWord r (readBy fn r s)).1 (readWord r (readBy fn r s)).2) := by
  rw [readCmd_next fn off 32 s hk hb, islandAt_of_regAt hr]
  simp only [portAccess, portRead, ha, decide_true, Bool.and_self, Bool.true_or, if_true, Bool.false_eq_true, if_false,
    Nat.reduceEqDiff, decide_false, read32, locate_of_regAt hr, hw, Bool.not_false]
  rfl

/-- An aligned 64-bit read of two 32-bit registers reads the lower word and then, in the state that this leaves, the upper one. -/
theorem readCmd_twoWords (fn : Fin 17) (off : Nat) (r q : Reg) (s : State) (hk : Known s) (hb : inBar fn off = true)
    (ha : off % 8 = 0) (hr : regAt (absOff fn off) = some r) (hq : regAt (absOff fn off + 4) = some q) (hw : r.wide = false) :
    let lower := readWord r (readBy fn r s)
    let upper := readWord q lower.2
    readCmd fn off 64 s = .next (answer (lower.1 + upper.1 * 2 ^ 32) upper.2) := by
  rw [readCmd_next fn off 64 s hk hb, islandAt_of_regAt hr]
  simp only [portAccess, portRead, ha, decide_true, Bool.and_self, Bool.or_true, if_true, Bool.false_eq_true, if_false,
    read64, hr, hq, hw]
  rfl

/-! ### The two words of the LCC -/

/-- The state with the upper half of the LCC in the latch of LCC_HI (03 R79). -/
def latchLcc (s : State) : State := onCtl (fun c => { c with lccLatch := BitVec.ofNat 32 (c.lcc.toNat / 2 ^ 32) }) s

/-- The freeze responder answers LCC_LO, so that it reads and latches the same in a frozen block (17 R429). -/
theorem readWord_lccLo (s : State) : readWord .lccLo s = (s.ctl.lcc.toNat % 2 ^ 32, latchLcc s) := by
  simp only [readWord, State.portVal, State.portClear, Reg.answered, Bool.not_true, Bool.and_false, Bool.false_eq_true, if_false,
    if_true]
  rfl

theorem readWord_lccHi (s : State) : readWord .lccHi s = (s.ctl.lccLatch.toNat, s) := by
  simp only [readWord, State.portVal, State.portClear, Reg.answered, Bool.not_true, Bool.and_false, Bool.false_eq_true, if_false,
    reduceCtorEq]
  rfl

theorem exec_rcRead_lccWide (s : State) (hk : Known s) :
    exec (.rcRead pf 0x1000 true) s = .next (answer (s.ctl.lcc.toNat % 2 ^ 32
      + (BitVec.ofNat 32 (s.ctl.lcc.toNat / 2 ^ 32)).toNat * 2 ^ 32) (latchLcc (readBy pf .lccLo s))) := by
  change readCmd pf 0x1000 64 s = _
  rw [readCmd_twoWords pf 0x1000 .lccLo .lccHi s hk (by decide) (by decide) (by decide) (by decide) rfl, readWord_lccLo,
    readWord_lccHi]
  rfl

theorem exec_lccLo (s : State) (hk : Known s) :
    exec .lccLo s = .next (answer (s.ctl.lcc.toNat % 2 ^ 32) (latchLcc (readBy pf .lccLo s))) := by
  change readCmd pf 0x1000 32 s = _
  rw [readCmd_word pf 0x1000 .lccLo s hk (by decide) (by decide) (by decide) rfl, readWord_lccLo]
  rfl

theorem exec_rcRead_lccHi (s : State) (hk : Known s) :
    exec (.rcRead pf 0x1004 false) s = .next (answer s.ctl.lccLatch.toNat (readBy pf .lccHi s)) := by
  change readCmd pf 0x1004 32 s = _
  rw [readCmd_word pf 0x1004 .lccHi s hk (by decide) (by decide) (by decide) rfl, readWord_lccHi]
  rfl

/-! ### The halves as words -/

theorem ofNat_lowHalf (v : U64) : BitVec.ofNat 64 (v.toNat % 2 ^ 32) = v &&& 0xFFFFFFFF := by
  have hmask : (0xFFFFFFFF : U64).toNat = 2 ^ 32 - 1 := rfl
  apply BitVec.eq_of_toNat_eq
  rw [BitVec.toNat_and, hmask, Nat.and_two_pow_sub_one_eq_mod, BitVec.toNat_ofNat]
  omega

theorem ofNat_highHalf (v : U64) : BitVec.ofNat 64 (BitVec.ofNat 32 (v.toNat / 2 ^ 32)).toNat = v >>> 32 := by
  have hv := v.isLt
  apply BitVec.eq_of_toNat_eq
  rw [BitVec.toNat_ushiftRight, Nat.shiftRight_eq_div_pow, BitVec.toNat_ofNat, BitVec.toNat_ofNat]
  omega

theorem ofNat_joinHalves (v : U64) :
    BitVec.ofNat 64 (v.toNat % 2 ^ 32 + (BitVec.ofNat 32 (v.toNat / 2 ^ 32)).toNat * 2 ^ 32) = v := by
  have hv := v.isLt
  apply BitVec.eq_of_toNat_eq
  rw [BitVec.toNat_ofNat, BitVec.toNat_ofNat]
  omega

/-- Settles O32: the 64-bit read joins the word of LCC_LO to the upper half that reading it has latched, and a later read of LCC_HI
looks at that latch alone, which no change of the LCC touches. -/
theorem lccReads : Obligations.LccReads := by
  intro s hk
  refine ⟨⟨_, exec_rcRead_lccWide s hk, ?_⟩, _, exec_lccLo s hk, ?_, fun now => ⟨_, exec_rcRead_lccHi _ hk, ?_⟩⟩
  · exact ofNat_joinHalves s.ctl.lcc
  · exact ofNat_lowHalf s.ctl.lcc
  · exact ofNat_highHalf s.ctl.lcc

end Sys2Proof.Machine
end

section
/-! SUPPORT. Which request a handle names, what the delivery of a ring message that is fetched at once does, and the answers of
QUERY_LEDGER (03 R66, R67; 04 R84, R103). -/

namespace Sys2Proof.Machine

/-! ### Handles -/

/-- A handle names the request in its slot whose own handle it is: one of an earlier generation names none (02 R33). -/
theorem reqH_eq_some_iff (h : U32) (s : State) (r : Req) : s.reqH h = some r ↔ s.req (hSlot h) = some r ∧ r.handle = h := by
  unfold State.reqH
  cases s.req (hSlot h) with
  | none => simp only [reduceCtorEq, false_and]
  | some q =>
    by_cases hq : q.handle = h
    · simp only [hq, if_true, Option.some.injEq]
      exact ⟨fun e => ⟨e, e ▸ hq⟩, And.left⟩
    · simp only [hq, if_false, reduceCtorEq, Option.some.injEq, false_iff, not_and]
      exact fun e hr => hq (e ▸ hr)

/-- The page of a message restricts the handles it may name, and nothing else does (04 R84). -/
theorem reqOf_eq_some_iff (p : Nat) (h : U32) (s : State) (r : Req) :
    s.reqOf p h = some r ↔ s.reqH h = some r ∧ (p = mgmt ∨ hTenant h = p) := by
  unfold State.reqOf
  cases s.reqH h with
  | none => simp only [reduceCtorEq, false_and]
  | some q =>
    by_cases hp : p = mgmt ∨ hTenant h = p
    · simp only [hp, Bool.or_eq_true, decide_eq_true_eq, if_true, and_true]
    · simp only [hp, Bool.or_eq_true, decide_eq_true_eq, if_false, reduceCtorEq, and_false]

/-- Settles O16: the two lookups are restated as one condition each. -/
theorem handleScope : Obligations.HandleScope := by
  intro p h s r
  rw [reqOf_eq_some_iff, reqH_eq_some_iff, and_assoc]

/-! ### A ring message that is fetched at once -/

/-- The state in which message `c` has come last into the ring of page `p` (03 R65). -/
def ringed (p : Nat) (c : Instr) (s : State) : State := s.onPage p (fun g => { g with ring := g.ring ++ [c] })

theorem deliver_ring {p : Nat} {c : Instr} {h : Hdr} (s : State) (hc : msgHead c = some (p, .ring h)) :
    deliver c s = settle (ringed p c s) := by
  simp only [deliver, hc, ringed]

theorem page_ringed {p : Nat} (c : Instr) {s : State} (hp : p < s.pages.length) :
    (ringed p c s).page p = { s.page p with ring := (s.page p).ring ++ [c] } :=
  (page_onPage s p p _ hp).trans (if_pos rfl)

/-- A message that waits in a page's ring changes nothing that decides whether the page may fetch one. -/
theorem fetches_ringed {p : Nat} {c : Instr} {s : State} (hp : p < s.pages.length) (hf : Fetches p c s) :
    Fetches p c (ringed p c s) := by
  obtain ⟨hserves, hready, hfetch⟩ := hf
  refine ⟨?_, hready, ?_⟩
  · unfold State.serves
    rw [page_ringed c hp]
    exact hserves
  · rw [page_ringed c hp]
    exact hfetch

theorem unitReads_ringed {p : Nat} (c : Instr) (n : Nat) {s : State} (hp : p < s.pages.length) :
    (ringed p c s).unitReads p n = s.unitReads p n := by
  simp only [State.unitReads, State.pasidOf, page_ringed c hp]

/-- The fetch of the only message of a ring leaves the ring as it was before the message came. -/
theorem fetchMsg_ringed {p : Nat} {c : Instr} {s : State} (hp : p < s.pages.length) (q : Quiet s) :
    fetchMsg p c (ringed p c s) = fetchMsg p c s := by
  have hring : ∀ g ∈ s.pages, (g.ring ++ [c]).tail = g.ring.tail := fun g hg => by
    rw [(q g hg).1, List.nil_append, List.tail_cons, List.tail_nil]
  simp only [fetchMsg, unitReads_ringed c _ hp, page_ringed c hp]
  simp only [ringed, State.onPage, onCtl, putReads, lupd_lupd]
  congr 1
  refine lupd_congr p _ _ s.pages fun g hg => ?_
  simp only [Function.comp_apply, hring g hg]

/-- The one message that waits, on a page that may fetch it, is handled on the state of its fetch (03 R66, R67). -/
theorem deliver_fetched {p : Nat} {c : Instr} {h : Hdr} {s : State} (hc : msgHead c = some (p, .ring h)) (h17 : p < 17)
    (hp : p < s.pages.length) (q : Quiet s) (hf : Fetches p c s) :
    deliver c s = freed (handle p (.ring h) c (s.page p).headAddr (fetchMsg p c s)) := by
  have hhdr : msgHdr c = h := by simp only [msgHdr, hc, viaHdr]
  rw [deliver_ring s hc, ← fetchMsg_ringed hp q, ← hhdr]
  exact settle_ring p c s q hp h17 (fetches_ringed hp hf)

/-- A message that its page fetches as it comes is handled at once. -/
theorem exec_fetched {page : Fin 17} {c : Instr} {h : Hdr} {s : State} (hf : Fetched page.val c h s) :
    exec c s = .next (freed (handle page.val (.ring h) c (s.page page.val).headAddr (fetched page.val c s))) := by
  obtain ⟨hc, hp, hknown, hquiet, hfetches⟩ := hf
  rw [exec_message c _ _ s hc, live_next _ s _ hknown]
  exact congrArg _ (deliver_fetched (s := ungate (s.pageIslands page.val) s) hc page.isLt hp hquiet hfetches)

/-! ### QUERY_LEDGER -/

/-- The record of QUERY_LEDGER leaves through the page's gardener core, and the tenant of the page is charged its bytes (04 R103, 11 R287). -/
def ledgerWritten (p : Nat) (f : LedgerF) (rec : LedgerRec) (s : State) : State :=
  chargeTen p 128 (hostWrite (egressGardener (s.page p).gardener.toNat) p 128 (.ledger p f.outAddr rec) s)

/-- The answer of QUERY_LEDGER where the host takes the record. -/
def ledgerAnswered (p : Nat) (h : Hdr) (f : LedgerF) (rec : LedgerRec) (s : State) : State :=
  reply p h 0x22 stOk [(16, s.ctl.lcc.toNat)] (ledgerWritten p f rec s)

theorem hQueryLedger_tenant (p : Nat) (h : Hdr) (f : LedgerF) (s : State) (hf : f.perReq = false) :
    hQueryLedger p h f false s = ledgerAnswered p h f (tenRecord f.tenant.toNat s) s := by
  simp only [hQueryLedger, hf, Bool.false_eq_true, if_false]
  rfl

theorem hQueryLedger_request (p : Nat) (h : Hdr) (f : LedgerF) (s : State) (r : Req) (hf : f.perReq = true)
    (hr : (s.named p f.handle).2 = some r) :
    hQueryLedger p h f false s = ledgerAnswered p h f (reqRecord r) (s.named p f.handle).1 := by
  simp only [hQueryLedger, hf, if_true, hr]
  rfl

theorem hQueryLedger_badHandle (p : Nat) (h : Hdr) (f : LedgerF) (refused : Bool) (s : State) (hf : f.perReq = true)
    (hr : (s.named p f.handle).2 = none) :
    hQueryLedger p h f refused s = reply p h 0x22 stBadHandle [] (s.named p f.handle).1 := by
  simp only [hQueryLedger, hf, if_true, hr]

/-- QUERY_LEDGER that passes the common checks of R83 is handled on the state of its fetch. -/
theorem exec_queryLedger (page : Fin 17) (h : Hdr) (f : LedgerF) (refused : Bool) (s : State)
    (hp : Passes page.val (.queryLedger page h f refused) h s) :
    exec (.queryLedger page h f refused) s
      = .next (freed (hQueryLedger page.val h f refused (fetched page.val (.queryLedger page h f refused) s))) := by
  obtain ⟨hfetched, hcheck⟩ := hp
  rw [exec_fetched hfetched]
  simp only [handle, hcheck]

/-- Settles O15: the message is handled on the state of its fetch, and writing and charging the record leave the LCC of the snapshot. -/
theorem ledgerQueried : Obligations.LedgerQueried := by
  intro page h f s c written hp s' n
  have hexec : exec c s = .next (freed (hQueryLedger page.val h f false s')) := exec_queryLedger page h f false s hp
  refine ⟨fun hf => ?_, fun r hf hr => ?_, fun hf hr => ?_⟩
  · rw [hexec, hQueryLedger_tenant page.val h f s' hf]
    rfl
  · rw [hexec, hQueryLedger_request page.val h f s' r hf hr]
    rfl
  · rw [hexec, hQueryLedger_badHandle page.val h f false s' hf hr]

end Sys2Proof.Machine
end

section
/-! SUPPORT. A cycle of an arbiter, and the proof of O55: which requester wins an event, what a cycle does with the holder, and what it
leaves of the rest of the state (12 R315 to R317, R323). -/

namespace Sys2Proof.Machine

/-! ### The winner of an event -/

/-- Input `i` requests and is not masked, so that an event may grant it (R315). -/
abbrev Arb.Eligible (a : Arb) (i : Nat) : Prop := i < a.inputs ∧ a.requests i = true ∧ a.masked i = false

/-- The inputs that an event may grant, in ascending order. -/
def Arb.candidates (a : Arb) : List Nat := (List.range a.inputs).filter (fun i => a.requests i && !a.masked i)

theorem Arb.mem_candidates {a : Arb} {i : Nat} : i ∈ a.candidates ↔ a.Eligible i := by
  simp only [Arb.candidates, List.mem_filter, List.mem_range, Bool.and_eq_true, Bool.not_eq_true']

/-- The better of the best input so far and the next one: the next one only where it ranks higher. -/
def Arb.better (a : Arb) (best : Option Nat) (i : Nat) : Option Nat :=
  match best with
  | none => some i
  | some x => if a.rank x < a.rank i then some i else some x

theorem Arb.winner_eq (a : Arb) : a.winner = a.candidates.foldl a.better none := rfl

/-- The best of a list of inputs and a first one is among them, and none of them ranks higher. -/
theorem Arb.foldl_better_some (a : Arb) (x : Nat) (l : List Nat) :
    ∃ y, l.foldl a.better (some x) = some y ∧ y ∈ x :: l ∧ ∀ j ∈ x :: l, a.rank j ≤ a.rank y := by
  induction l generalizing x with
  | nil => exact ⟨x, rfl, by simp, by simp⟩
  | cons i l ih =>
    rw [List.foldl_cons]
    by_cases hlt : a.rank x < a.rank i
    · rw [show a.better (some x) i = some i from if_pos hlt]
      obtain ⟨y, hy, hmem, hmax⟩ := ih i
      refine ⟨y, hy, List.mem_cons_of_mem x hmem, List.forall_mem_cons.2 ⟨?_, hmax⟩⟩
      exact hlt.le.trans (hmax i List.mem_cons_self)
    · rw [show a.better (some x) i = some x from if_neg hlt]
      obtain ⟨y, hy, hmem, hmax⟩ := ih x
      obtain ⟨hx, hl⟩ := List.forall_mem_cons.1 hmax
      refine ⟨y, hy, ?_, List.forall_mem_cons.2 ⟨hx, List.forall_mem_cons.2 ⟨(Nat.le_of_not_lt hlt).trans hx, hl⟩⟩⟩
      simp only [List.mem_cons] at hmem ⊢
      tauto

/-- There is no winner where no input may be granted; else one that may wins, and none that may ranks higher (R315). -/
theorem Arb.winner_cases (a : Arb) :
    (a.winner = none ∧ ∀ i, ¬ a.Eligible i)
      ∨ ∃ y, a.winner = some y ∧ a.Eligible y ∧ ∀ j, a.Eligible j → a.rank j ≤ a.rank y := by
  simp only [Arb.winner_eq, ← Arb.mem_candidates]
  cases a.candidates with
  | nil => exact .inl ⟨rfl, fun _ => List.not_mem_nil⟩
  | cons x l => exact .inr (a.foldl_better_some x l)

/-- The winner may be granted, and no input that may ranks higher (R315). -/
theorem Arb.eligible_of_winner {a : Arb} {i : Nat} (h : a.winner = some i) :
    a.Eligible i ∧ ∀ j, a.Eligible j → a.rank j ≤ a.rank i := by
  obtain ⟨hnone, -⟩ | ⟨y, hy, hbest⟩ := a.winner_cases
  · simp [hnone] at h
  · obtain rfl : y = i := Option.some.inj (hy.symm.trans h)
    exact hbest

theorem Arb.winner_eq_none_iff (a : Arb) : a.winner = none ↔ ∀ i, ¬ a.Eligible i := by
  obtain ⟨hnone, hno⟩ | ⟨y, hy, hmay, -⟩ := a.winner_cases
  · exact iff_of_true hnone hno
  · exact iff_of_false (by simp [hy]) (fun h => h y hmay)

/-! ### The holder after a cycle -/

@[simp] theorem Arb.count_holder (a : Arb) : a.count.holder = a.holder := by
  simp only [Arb.count, apply_ite Arb.holder, ite_self]

@[simp] theorem Arb.grant_holder (a : Arb) (i : Nat) (lcc : U64) : (a.grant i lcc).holder = some i := rfl

/-- An event gives the port to its winner, and to nobody where there is none (R315, R316). -/
theorem Arb.event_holder (a : Arb) (lcc : U64) : (a.event lcc).holder = a.rolled.winner := by
  unfold Arb.event
  cases h : a.rolled.winner <;> simp [h]

theorem Arb.cycle_of_isEvent {a : Arb} {hold : Bool} (lcc : U64) (h : a.isEvent hold = true) : a.cycle hold lcc = a.event lcc :=
  if_pos h

/-- In a cycle in which the port does not get free its holder keeps it, or the debug port revokes it (R317, R323). -/
theorem Arb.cycle_of_not_free {a : Arb} {hold : Bool} {h : Nat} (lcc : U64) (hh : a.holder = some h) (hf : a.free hold = false) :
    a.cycle hold lcc = a.moves h := by
  simp only [Arb.cycle, Arb.isEvent, hf, hh, Bool.false_and, Bool.false_eq_true, if_false]

@[simp] theorem Arb.hinted_holder (a : Arb) (n : Nat) : (a.hinted n).holder = a.holder := by
  unfold Arb.hinted
  repeat' split
  all_goals rfl

/-- A holder that the debug port does not revoke keeps the port and moves a beat (R317, R323). -/
theorem Arb.moves_of_not_revoked {a : Arb} {h : Nat} (hh : a.holder = some h) (hd : h = a.debug ∨ a.requests a.debug = false) :
    (a.moves h).holder = some h ∧ (a.moves h).left = a.left - 1 := by
  have hcond : (decide (h ≠ a.debug) && a.requests a.debug) = false := by
    obtain hd | hd := hd <;> simp [hd]
  simp only [Arb.moves, hcond, Bool.false_eq_true, if_false, Arb.hinted_holder, and_true]
  exact hh

/-! ### What a cycle leaves of the state -/

theorem arb_onArb_self (f : Arb → Arb) {i : Nat} {s : State} (h : i < s.arbs.length) : (onArb i f s).arb i = f (s.arb i) :=
  (getD_lupd_cases i i f _ s.arbs).trans (if_pos ⟨rfl, h⟩)

/-- A change of arbiter `inst`, of the trace, and of the ports but for the enable of the Tether port. -/
def OnlyArb (inst : Nat) (t s : State) : Prop :=
  ∃ as tr o, t = { s with arbs := as, trc := tr, out := o } ∧ o.tetherEn = s.out.tetherEn ∧ ∀ k, k ≠ inst → t.arb k = s.arb k

theorem OnlyArb.refl (inst : Nat) (s : State) : OnlyArb inst s s := ⟨s.arbs, s.trc, s.out, rfl, rfl, fun _ _ => rfl⟩

theorem OnlyArb.trans {inst : Nat} {u t s : State} (h : OnlyArb inst u t) (k : OnlyArb inst t s) : OnlyArb inst u s := by
  obtain ⟨as, tr, o, hu, hen, harb⟩ := h
  obtain ⟨_, _, _, rfl, hen', harb'⟩ := k
  exact ⟨as, tr, o, hu, hen.trans hen', fun k hk => (harb k hk).trans (harb' k hk)⟩

theorem onlyArb_onArb (inst : Nat) (f : Arb → Arb) (s : State) : OnlyArb inst (onArb inst f s) s :=
  ⟨lupd inst f s.arbs, s.trc, s.out, rfl, rfl, fun k hk => arb_onArb_ne s inst k f hk⟩

theorem onlyArb_each {α : Type} {inst : Nat} (l : List α) (f : α → State → State) (s : State)
    (h : ∀ a s, OnlyArb inst (f a s) s) : OnlyArb inst (each l f s) s := by
  unfold each
  induction l generalizing s with
  | nil => exact .refl inst s
  | cons a l ih => exact (ih (f a s)).trans (h a s)

theorem tetherEn_traceIssue (k : Nat) (s : State) : (traceIssue k s).out.tetherEn = s.out.tetherEn := by
  unfold traceIssue
  dsimp only
  repeat' split
  all_goals rfl

theorem tetherEn_traceGrant (i : Nat) (s : State) : (traceGrant i s).out.tetherEn = s.out.tetherEn := by
  unfold traceGrant
  split
  · exact tetherEn_traceIssue _ s
  · rfl

theorem onlyArb_traceGrant (inst i : Nat) (s : State) : OnlyArb inst (traceGrant i s) s := by
  have hen := tetherEn_traceGrant i s
  obtain ⟨tr, o, h⟩ := traceGrant_form i s
  rw [h] at hen ⊢
  exact ⟨s.arbs, tr, o, rfl, hen, fun _ _ => rfl⟩

theorem onlyArb_arbPosts (inst : Nat) (posts : List (Fin 32 × Nat)) (s : State) : OnlyArb inst (arbPosts inst posts s) s := by
  simp only [arbPosts]
  refine (onlyArb_onArb inst _ _).trans ?_
  split
  next h0 =>
    subst h0
    exact (onlyArb_each _ _ _ (fun _ u => onlyArb_onArb 0 _ u)).trans (onlyArb_onArb 0 _ s)
  next => exact onlyArb_onArb inst _ s

/-- The cycle itself, after the requests of its start and before the record that a trace source writes. -/
def arbCycled (inst : Nat) (posts : List (Fin 32 × Nat)) (s : State) : State :=
  onArb inst (fun a => a.cycle (s.ingestHeld inst) s.ctl.lcc) (arbPosts inst posts s)

/-- A cycle may end with a trace record, which leaves the arbiters as they are (18 R436). -/
theorem arbCycle_cases (inst : Nat) (posts : List (Fin 32 × Nat)) (s : State) :
    arbCycle inst posts s = arbCycled inst posts s ∨ ∃ h, arbCycle inst posts s = traceGrant h (arbCycled inst posts s) := by
  have heq : onArb inst (fun a => a.cycle ((arbPosts inst posts s).ingestHeld inst) (arbPosts inst posts s).ctl.lcc)
      (arbPosts inst posts s) = arbCycled inst posts s := by
    obtain ⟨_, _, _, h, -⟩ := onlyArb_arbPosts inst posts s
    rw [arbCycled, h]
    rfl
  simp only [arbCycle, heq]
  repeat' split
  · exact .inr ⟨_, rfl⟩
  · exact .inl rfl
  · exact .inl rfl

theorem onlyArb_arbCycle (inst : Nat) (posts : List (Fin 32 × Nat)) (s : State) : OnlyArb inst (arbCycle inst posts s) s := by
  have h : OnlyArb inst (arbCycled inst posts s) s := (onlyArb_onArb inst _ _).trans (onlyArb_arbPosts inst posts s)
  obtain e | ⟨i, e⟩ := arbCycle_cases inst posts s
  · rwa [e]
  · rw [e]
    exact (onlyArb_traceGrant inst i _).trans h

/-- What the arbiter itself is after a cycle. -/
theorem arb_arbCycle {inst : Nat} (posts : List (Fin 32 × Nat)) {s : State} (h : inst < s.arbs.length) :
    (arbCycle inst posts s).arb inst = ((arbPosts inst posts s).arb inst).cycle (s.ingestHeld inst) s.ctl.lcc := by
  have hlen : inst < (arbPosts inst posts s).arbs.length := by
    obtain ⟨-, -, -, -, -, harbs, -⟩ := kept_arbPosts inst posts s
    exact harbs ▸ h
  have hcycled := arb_onArb_self (fun a => a.cycle (s.ingestHeld inst) s.ctl.lcc) hlen
  obtain e | ⟨i, e⟩ := arbCycle_cases inst posts s
  · rw [e]
    exact hcycled
  · obtain ⟨tr, o, hform⟩ := traceGrant_form i (arbCycled inst posts s)
    rw [e, hform]
    exact hcycled

/-! ### A further event of the arbiter's island -/

/-- The islands that an event of the islands `is` concerns: they, and those with work (16 R408). -/
def hitIslands (is : List Nat) (s : State) : List Nat := (List.range 18).filter (fun i => is.contains i || s.busy i)

/-- The islands `l` leave Idle now (16 R408). -/
def wakeIslands (l : List Nat) (c : Ctl) : Ctl :=
  { c with
    gated := c.gated &&& ~~~(BitVec.ofNat 18 ((l.map (2 ^ ·)).sum))
    worked := l.foldl (fun w i => w.set i c.lcc) c.worked }

theorem ungate_eq (is : List Nat) (s : State) : ungate is s = onCtl (wakeIslands (hitIslands is s)) s := rfl

theorem getElem?_foldl_set {α : Type} (x : α) (l : List Nat) (w : List α) (k : Nat) :
    (l.foldl (fun w i => w.set i x) w)[k]? = if k ∈ l then w[k]?.map (fun _ => x) else w[k]? := by
  induction l generalizing w with
  | nil => simp
  | cons i l ih =>
    rw [List.foldl_cons, ih]
    obtain rfl | hi := eq_or_ne i k
    · rw [List.getElem?_set_self', Option.map_eq_map, Option.map_map]
      exact (ite_self _).trans (if_pos List.mem_cons_self).symm
    · simp [List.getElem?_set_ne hi, hi.symm]

theorem wakeIslands_wakeIslands (l : List Nat) (c : Ctl) : wakeIslands l (wakeIslands l c) = wakeIslands l c := by
  have hgated (g m : BitVec 18) : g &&& m &&& m = g &&& m := by rw [BitVec.and_assoc, BitVec.and_self]
  have hworked : l.foldl (fun w i => w.set i c.lcc) (l.foldl (fun w i => w.set i c.lcc) c.worked)
      = l.foldl (fun w i => w.set i c.lcc) c.worked := by
    refine List.ext_getElem? fun k => ?_
    rw [getElem?_foldl_set]
    split
    next hk => rw [getElem?_foldl_set, if_pos hk, Option.map_map]; rfl
    next => rfl
  simp only [wakeIslands, hgated, hworked]

/-- Waking islands gives no island work. -/
theorem hitIslands_ungate (is js : List Nat) (s : State) : hitIslands is (ungate js s) = hitIslands is s := rfl

/-- A change of one arbiter alone leaves every island but its own as busy as it was. -/
theorem busy_of_onlyArb {inst i : Nat} {t s : State} (h : OnlyArb inst t s) (hi : i ≠ arbIsland inst) : t.busy i = s.busy i := by
  obtain ⟨as, tr, o, rfl, hen, harb⟩ := h
  have hport : ∀ k, arbIsland k = i → State.arb { s with arbs := as, trc := tr, out := o } k = s.arb k :=
    fun k hk => harb k (fun e => hi (e ▸ hk.symm))
  clear harb hi
  unfold State.busy
  -- Islands 11 to 14 each look at their own arbiter, island 16 at the enable of the Tether port, the others at neither (12 R313).
  split
  case h_4 => rw [hport 2 rfl]
  case h_5 => rw [hport 1 rfl]
  case h_6 => rw [hport 3 rfl]
  case h_7 => rw [hport 0 rfl]
  case h_9 => exact hen
  all_goals rfl

theorem hitIslands_of_onlyArb {inst : Nat} {t s : State} (h : OnlyArb inst t s) :
    hitIslands [arbIsland inst] t = hitIslands [arbIsland inst] s := by
  refine List.filter_congr fun i _ => ?_
  obtain rfl | hi := eq_or_ne i (arbIsland inst)
  · simp
  · rw [busy_of_onlyArb h hi]

/-- A cycle leaves no island to wake for a further event of its arbiter's island. -/
theorem ungate_of_onlyArb {inst : Nat} {t s : State} (h : OnlyArb inst t (ungate [arbIsland inst] s)) :
    ungate [arbIsland inst] t = t := by
  rw [ungate_eq, hitIslands_of_onlyArb h, hitIslands_ungate]
  obtain ⟨as, tr, o, rfl, -, -⟩ := h
  have hctl := wakeIslands_wakeIslands (hitIslands [arbIsland inst] s) s.ctl
  simp only [ungate_eq, onCtl, hctl]

theorem pages_reqs_of_onlyArb {inst : Nat} {t s : State} (h : OnlyArb inst t s) : t.pages = s.pages ∧ t.reqs = s.reqs := by
  obtain ⟨as, tr, o, rfl, -, -⟩ := h
  exact ⟨rfl, rfl⟩

theorem runs_of_onlyArb {inst : Nat} {t s : State} (h : OnlyArb inst t s) (hr : Runs s) : Runs t := by
  obtain ⟨as, tr, o, rfl, -, -⟩ := h
  exact hr

/-! ### The command -/

theorem exec_arbitrationEvent (inst : Fin 4) (posts : List (Fin 32)) (cycles : List (List (Fin 32 × Nat))) (beats : List Nat)
    {s : State} (hr : Runs s) : exec (.arbitrationEvent inst posts cycles beats) s
      = .next (arbEvent inst.val posts cycles beats (ungate [arbIsland inst.val] s)) := by
  obtain ⟨hknown, hawake, hfreezing⟩ := hr
  exact own_next _ s _ hknown hawake hfreezing

/-- A command that goes on after its first cycle is the command of the other cycles on the state that the first one leaves. -/
theorem exec_arbitrationEvent_cons (inst : Fin 4) (raised : List (Fin 32 × Nat)) (more : List (List (Fin 32 × Nat)))
    (posts : List (Fin 32)) (beats : List Nat) {s : State} (hr : Runs s) :
    exec (.arbitrationEvent inst posts (raised :: more) beats) s
      = exec (.arbitrationEvent inst posts more beats) (arbCycle inst.val raised (ungate [arbIsland inst.val] s)) := by
  have honly := onlyArb_arbCycle inst.val raised (ungate [arbIsland inst.val] s)
  rw [exec_arbitrationEvent inst posts (raised :: more) beats hr,
    exec_arbitrationEvent inst posts more beats (runs_of_onlyArb honly hr), ungate_of_onlyArb honly]
  rfl

/-- Settles O55: the command is a cycle of `Arb.cycle`, whose event grants the port to the winner of R315, and which changes the arbiter
and the trace alone. -/
theorem highestPositionWins : Obligations.HighestPositionWins := by
  intro inst posts beats s hr hz hold raised b r may
  obtain ⟨-, -, harbs, -⟩ := hz
  obtain ⟨t, ht⟩ : ∃ t, t = arbCycle inst.val raised (ungate [arbIsland inst.val] s) := ⟨_, rfl⟩
  have hcycle : t.arb inst.val = b.cycle hold s.ctl.lcc := ht ▸ arb_arbCycle raised (harbs.symm ▸ inst.isLt)
  have honly : OnlyArb inst.val t (ungate [arbIsland inst.val] s) := ht ▸ onlyArb_arbCycle _ _ _
  refine ⟨t, ht ▸ exec_arbitrationEvent inst posts [] beats hr,
    fun more ps bs => ht ▸ exec_arbitrationEvent_cons inst raised more ps bs hr, fun hevent => ?_, fun h hh hf hd => ?_, ?_⟩
  · rw [hcycle, Arb.cycle_of_isEvent _ hevent, Arb.event_holder]
    exact ⟨fun i hi => Arb.eligible_of_winner hi, Arb.winner_eq_none_iff r⟩
  · rw [hcycle, Arb.cycle_of_not_free _ hh hf]
    exact Arb.moves_of_not_revoked hh hd
  · have hkept := pages_reqs_of_onlyArb honly
    obtain ⟨_, _, _, -, -, hothers⟩ := honly
    exact ⟨hothers, hkept⟩

end Sys2Proof.Machine
end

section
/-! SUPPORT. The limits of heat, and the proof of O52: the limit of each node, the node that each ladder follows, and what a ladder
compares (14 R359, R364). -/

namespace Sys2Proof.Machine

/-! ### The limit of a node (14 R359) -/

theorem limitOf_die (s : State) {i : Nat} (h : i < 12) : s.limitOf i = (s.pwr.die.toNat : Int) := if_pos h

theorem limitOf_stack (s : State) {i : Nat} (h : 12 ≤ i) : s.limitOf i = (s.pwr.stackT.toNat : Int) := if_neg (Nat.not_lt.mpr h)

/-! ### The node that a ladder follows (14 R364) -/

/-- The search for the hottest die node starts at node 0 and moves to die nodes only. -/
theorem ladderNode_die_lt (s : State) : s.ladderNode 0 < 12 := by
  rw [State.ladderNode, if_pos rfl]
  refine List.foldlRecOn (motive := (· < 12)) (List.range 12) _ (by decide) fun best hbest i hi => ?_
  split
  · exact List.mem_range.mp hi
  · exact hbest

theorem ladderNode_stack (s : State) {l : Nat} (h : l ≠ 0) : s.ladderNode l = 11 + l := if_neg h

theorem ladderNode_lt_iff (s : State) (l : Nat) : s.ladderNode l < 12 ↔ l = 0 := by
  obtain rfl | h := eq_or_ne l 0
  · exact iff_of_true (ladderNode_die_lt s) rfl
  · rw [ladderNode_stack s h]
    omega

/-! ### What a ladder compares (14 R364) -/

theorem over_iff (s : State) (l : Nat) : s.over l = true ↔ s.limitOf (s.ladderNode l) < (s.node (s.ladderNode l)).est :=
  decide_eq_true_iff

theorem coolNow_iff (s : State) (l : Nat) :
    s.coolNow l = true ↔ (s.node (s.ladderNode l)).est ≤ s.limitOf (s.ladderNode l) - (s.pwr.hyst.toNat : Int) :=
  decide_eq_true_iff

/-- Settles O52: the die ladder alone follows a die node, and every ladder compares its node with that node's limit and the one
hysteresis. -/
theorem limitsByNode : Obligations.LimitsByNode := fun s =>
  ⟨fun _ => limitOf_die s, fun _ h _ => limitOf_stack s h,
    fun l _ => ⟨ladderNode_lt_iff s l, over_iff s l, coolNow_iff s l⟩⟩

end Sys2Proof.Machine
end

section
/-! SUPPORT. What every command does to the queue, the clock, the mark of a supply sag and the sizes of the fixed tables, and the proofs of
O6, O3, O4, O5 and O7: the forms of Laws/Commands.lean, each command under its form, and an induction over runs. -/

namespace Sys2Proof.Machine

/-! ### Commands that stop on an unknown state alone, and else keep what `Kept` names -/

/-- The outcome `o` of a command in state `s` is a fault where the state is unknown and else a next state that keeps what `Kept` names. -/
def Steady (o : Host.Outcome State Fault Refusal) (s : State) : Prop :=
  ∃ op : State → State, o = liveQuiet s op ∧ ∀ u, Sized u → Kept (op u) u

theorem steady_live (is : List Nat) (s : State) {op : State → State} (h : ∀ u, Sized u → Kept (op u) u) :
    Steady (live is s op) s :=
  ⟨_, rfl, fun u hz => (h (ungate is u) hz).trans (kept_ungate is u)⟩

theorem steady_liveQuiet (s : State) {op : State → State} (h : ∀ u, Sized u → Kept (op u) u) : Steady (liveQuiet s op) s :=
  ⟨op, rfl, h⟩

theorem steady_liveSettle (is : List Nat) (s : State) {op : State → State} (h : ∀ u, Sized u → Kept (op u) u) :
    Steady (liveSettle is s op) s :=
  steady_live is s fun u hz => (kept_settle _).trans (h u hz)

theorem steady_own (is : List Nat) (s : State) {op : State → State} (h : ∀ u, Sized u → Kept (op u) u) :
    Steady (own is s op) s :=
  steady_live is s fun u hz => Kept.ite (h u hz) Kept.rfl'

theorem steady_ownSettle (is : List Nat) (s : State) {op : State → State} (h : ∀ u, Sized u → Kept (op u) u) :
    Steady (ownSettle is s op) s :=
  steady_own is s fun u hz => (kept_settle _).trans (h u hz)

theorem steady_ownLogged (is : List Nat) (s : State) {op : State → State} (h : ∀ u, Sized u → Kept (op u) u) :
    Steady (ownLogged is s op) s :=
  steady_live is s fun u hz => Kept.ite (h u hz) Kept.rfl'

theorem steady_onRing (s : State) {op : State → State} (h : ∀ u, Sized u → Kept (op u) u) : Steady (onRing s op) s :=
  steady_live [16] s fun u hz => Kept.ite Kept.rfl' ((kept_settle _).trans (h u hz))

theorem steady_inboundSettle (c : Instr) (s : State) : Steady (inboundSettle c s) s :=
  steady_live _ s fun u _ => Kept.ite (kept_nocHeld c u) ((kept_settle _).trans (kept_nocTake c u))

theorem steady_writeCmd (fn : Fin 17) (off bits : Nat) (v : U64) (s : State) : Steady (writeCmd fn off bits v s) s :=
  steady_liveSettle _ s fun u hz => Kept.ite (kept_portAccess fn off bits true v u hz) Kept.rfl'

theorem steady_readCmd (fn : Fin 17) (off bits : Nat) (s : State) : Steady (readCmd fn off bits s) s :=
  steady_live _ s fun u hz => Kept.ite (kept_portAccess fn off bits false 0 u hz) Kept.rfl'

theorem steady_message {c : Instr} {p : Nat} {v : Via} (s : State) (hc : msgHead c = some (p, v)) : Steady (exec c s) s := by
  rw [exec_message c p v s hc]
  exact steady_live _ s fun u _ => kept_deliver c u

theorem steady_traffic {c : Instr} (s : State) (hc : isTraffic c = true) : Steady (exec c s) s := by
  rw [exec_traffic c s hc]
  exact steady_inboundSettle c s

theorem steady_regAccess (fn : Fin 17) (off bits : Nat) (write : Bool) (v : U64) (s : State) :
    Steady (execRegAccess fn off bits write v s) s := by
  unfold execRegAccess
  split
  · exact steady_writeCmd ..
  · exact steady_readCmd ..

/-- BLOCK_RESET is latched while the block is frozen (18 R440). -/
theorem steady_blockReset (src : ResetFrom) (s : State) : Steady (execBlockReset src s) s :=
  steady_live [] s fun u hz => by
    cases src
    · have hlow := kept_discardLow pf.val u
      exact Kept.ite ((kept_onCtl _ _ fun _ => ⟨rfl, rfl⟩).trans hlow) ((kept_blockReset _ (hlow.sized hz)).trans hlow)
    · exact Kept.ite (kept_onCtl _ _ fun _ => ⟨rfl, rfl⟩) (kept_blockReset u hz)

theorem steady_dormantEnter (s : State) : Steady (execDormantEnter s) s :=
  steady_live [] s fun u _ => by
    refine Kept.trans ?_ (kept_discardLow pf.val u)
    exact Kept.ite (kept_regRefused ..) (Kept.ite (kept_onCtl _ _ fun _ => ⟨rfl, rfl⟩) (kept_sleep _))

theorem steady_dormantExit (s : State) : Steady (execDormantExit s) s :=
  steady_live [] s fun u _ => by
    refine Kept.trans ?_ (kept_discardLow pf.val u)
    exact Kept.ite Kept.rfl' (Kept.ite (kept_onCtl _ _ fun _ => ⟨rfl, rfl⟩) (kept_wake _))

/-! ### Every command under its form -/

/-- The commands that access registers through the port (17 R423). -/
def isPort : Instr → Bool
  | .sqTail .. | .cqHead .. | .sqEn .. | .cqEn .. | .urgGo .. | .load .. | .traceTail .. | .arbClear .. | .prioCommit ..
  | .quota .. | .window .. | .pendingDepth .. | .coldTierWrite .. | .pwrLimit .. | .thermLimit .. | .wdogLimit ..
  | .tetherCtrlEn .. | .pairedRegisterWrite .. | .registerWrite .. | .ringCfgWrite .. | .groupConfigWrite .. | .lccLo
  | .readLatch .. | .rcRead .. | .ghEventRead | .regAccess .. => true
  | _ => false

/-- The events of the Tether port (13 R354). -/
def isRing : Instr → Bool
  | .lockLost | .lockRegained | .rollcall .. | .manifest .. | .stepToken .. | .tokens .. | .status .. | .slow .. | .profile ..
  | .break_ .. | .ownFrameReturned .. | .frameLoss .. | .rollcallResend | .groupAbandon => true
  | _ => false

theorem steady_port {c : Instr} (s : State) (hc : isPort c = true) : Steady (exec c s) s := by
  cases c with
  | sqTail | cqHead | sqEn | cqEn | urgGo | load | traceTail | arbClear | prioCommit | quota | window | pendingDepth
  | coldTierWrite | pwrLimit | thermLimit | wdogLimit | tetherCtrlEn | pairedRegisterWrite | registerWrite =>
    exact steady_writeCmd ..
  | ringCfgWrite a r v => cases r <;> exact steady_writeCmd ..
  | groupConfigWrite r v => cases r <;> exact steady_writeCmd ..
  | lccLo | readLatch | rcRead | ghEventRead => exact steady_readCmd ..
  | regAccess fn off bits write v => exact steady_regAccess fn off bits write v s
  | _ => exact absurd hc Bool.false_ne_true

theorem steady_ring {c : Instr} (s : State) (hc : isRing c = true) : Steady (exec c s) s := by
  cases c with
  | lockLost => exact steady_onRing s fun u _ => kept_lockLost u
  | lockRegained => exact steady_onRing s fun u _ => kept_lockRegained u
  | rollcall m id present intact => exact steady_onRing s fun u _ => kept_rollcallIn m id present intact u
  | manifest m es => exact steady_onRing s fun u _ => kept_frameIn _ _ u (kept_manifestIn m es)
  | stepToken m es => exact steady_onRing s fun u _ => kept_frameIn _ _ u (kept_stepTokenIn m es)
  | tokens m es => exact steady_onRing s fun u _ => kept_frameIn _ _ u (kept_tokensIn m es)
  | status m e => exact steady_onRing s fun u _ => kept_frameIn _ _ u (kept_statusIn m e)
  | slow m hot ballast => exact steady_onRing s fun u _ => kept_frameIn _ _ u (kept_slowIn m hot ballast)
  | profile m tenant f bias => exact steady_onRing s fun u _ => kept_frameIn _ _ u (kept_profileIn tenant.val f bias)
  | break_ m => exact steady_onRing s fun u _ => kept_frameIn _ _ u kept_breakIn
  | ownFrameReturned kind step part stomp => exact steady_onRing s fun u _ => kept_ownReturned kind step part stomp u
  | frameLoss kind step part => exact steady_onRing s fun u _ => kept_frameLost kind step part u
  | rollcallResend => exact steady_onRing s fun u _ => kept_rollAgain u
  | groupAbandon => exact steady_onRing s fun u _ => kept_abandonGroup u
  | _ => exact absurd hc Bool.false_ne_true

/-- SEAL (05 R124). Its name is also a word of Lean, which no case of a split can name, so it is told apart before one. -/
def isSeal : Instr → Bool
  | .seal => true
  | _ => false

theorem eq_seal_of_isSeal {c : Instr} (h : isSeal c = true) : c = .seal := by
  unfold isSeal at h
  split at h
  · rfl
  · exact absurd h Bool.false_ne_true

/-- An event of the block's own is SEAL or another one. -/
theorem eq_seal_or_other {c : Instr} (hc : isOwn c = true) : c = .seal ∨ (isOwn c && !isSeal c) = true := by
  cases hs : isSeal c
  · exact .inr (by rw [hc]; rfl)
  · exact .inl (eq_seal_of_isSeal hs)

theorem steady_ofOwn {c : Instr} (s : State) (hc : isOwn c = true) : Steady (exec c s) s := by
  obtain rfl | hother := eq_seal_or_other hc
  · exact steady_ownSettle _ s fun u _ => kept_sealMember u
  clear hc
  cases c with
  | sramUe a => exact show Steady (execSramUe a s) s from steady_ownLogged _ s fun u _ => (kept_settle _).trans (kept_sramUe a u)
  | expiryScan => exact steady_ownSettle _ s fun u _ => kept_expiryScan u
  | ledgerRollup t => exact steady_own _ s fun u _ => kept_rollUpTen t.val u
  | budgetPeriod t => exact steady_own _ s fun u _ => kept_budgetPeriod t.val u
  | thermalUpdate => exact steady_own _ s fun u _ => kept_thermalUpdate u
  | ladderMove l => exact steady_own _ s fun u _ => kept_ladderMove l.val u
  | sensorRead i => exact steady_own _ s fun u _ => kept_sensorRead i.val u
  | sensorAnswer i t => exact steady_ownSettle _ s fun u _ => kept_sensorAnswer i.val t u
  | sensorTimeout i => exact steady_ownSettle _ s fun u _ => kept_sensorTimeout i.val u
  | samplesSilent => exact steady_own _ s fun u _ => kept_samplesSilent u
  | wdogBite seen => exact steady_ownSettle _ s fun u _ => kept_wdogBite seen u
  | gdnRestart k why => exact show Steady (execGdnRestart k why s) s from steady_ownLogged _ s fun u _ => kept_gdnRestart k.val u
  | gdnOut k =>
    exact show Steady (execGdnOut k s) s from
      steady_ownLogged _ s fun u _ => (kept_settle _).trans ((kept_takeWaits _).trans (kept_gdnOut k.val u))
  | gdnReattach k ok =>
    exact show Steady (execGdnReattach k ok s) s from
      steady_ownLogged _ s fun u _ => (kept_settle _).trans (kept_gdnBack k.val ok u)
  | spoolTailPoll => exact steady_own _ s fun u _ => kept_tailPoll u
  | arbitrationEvent inst posts cycles beats => exact steady_own _ s fun u _ => kept_arbEvent inst.val posts cycles beats u
  | arbWindowEnd w => exact steady_own _ s fun u _ => kept_arbWindowEnd w.inst.val w.posts u
  | debugRevoke inst use => exact steady_own _ s fun u _ => kept_debugUse inst.val use.beats use.ask u
  | seedbedSweep => exact steady_own _ s fun u _ => (kept_restores _).trans (kept_sweepStep u)
  | sealWithoutStep => exact steady_ownSettle _ s fun u _ => kept_sealNoStepOp u
  | layout => exact steady_ownSettle _ s fun u _ => kept_layoutOp u
  | spoolRelease => exact steady_ownSettle _ s fun u _ => kept_releaseAllRecs u
  | workItemDeliver => exact steady_own _ s fun u _ => kept_deliverItem u
  | contextSwitchStart b => exact steady_own _ s fun u _ => kept_switchStart b.val u
  | admissionAttempt t => exact steady_ownSettle _ s fun u _ => kept_admissionAttempt t.val u
  | restoreStart h => exact steady_own _ s fun u _ => kept_restoreStart h u
  | reloadStart t => exact steady_own _ s fun u _ => kept_reloadStarts t u
  | seedbedRemovalDone m g v => exact steady_ownSettle _ s fun u _ => kept_removalDone m g v u
  | tenantResetDone t refused => exact steady_ownSettle _ s fun u _ => kept_resetDone t.val refused u
  | _ => exact absurd hother Bool.false_ne_true

/-- Every command but COLD_RESET and SUPPLY_SAG has one of the forms above. -/
theorem steady_exec {c : Instr} (s : State) (hreset : c ≠ .coldReset) (hsag : c ≠ .supplySag) : Steady (exec c s) s := by
  cases c with
  | coldReset => exact absurd rfl hreset
  | supplySag => exact absurd rfl hsag
  | admitReq | cancel | pause | resume | extend | setProfile | openSpool | queryReq | timeXchg | select | tenantOpen | tenantReset
  | queryLedger | seedbedPin | seedbedUnpin | coldFlush | modelLoad | modelEvict | graftLoad | graftReplace | graftRetire
  | bedConfig | setShares | setBudget | setCyclic | setDeadlinePolicy | traceConfig | thermalQuery | fwInfo | badOpcode =>
    exact steady_message s rfl
  | poisonIndication | hostAccessRefused | atomicWrite | coreFault | spoolTailRead | argumentBlockAck | workItemComplete
  | stackItemComplete | collectiveComplete | tileBoundaryPark | swapSaveDone | contextRearm | partialList | guessRecord
  | promptCopied | extendTokensCopied | biasListCopied | spillMoveDone | restoreMoveDone | modelLoadDone | graftLoadDone
  | reloadDone | selectDone | teardownEnd | joiningCoreRestoreDone =>
    exact steady_traffic s rfl
  | sqTail | cqHead | sqEn | cqEn | urgGo | load | traceTail | arbClear | prioCommit | quota | window | pendingDepth
  | coldTierWrite | pwrLimit | thermLimit | wdogLimit | tetherCtrlEn | pairedRegisterWrite | registerWrite | ringCfgWrite
  | groupConfigWrite | lccLo | readLatch | rcRead | ghEventRead | regAccess =>
    exact steady_port s rfl
  | lockLost | lockRegained | rollcall | manifest | stepToken | tokens | status | slow | profile | break_ | ownFrameReturned
  | frameLoss | rollcallResend | groupAbandon =>
    exact steady_ring s rfl
  | blockReset src => exact steady_blockReset src s
  | dormantEnter => exact steady_dormantEnter s
  | dormantExit => exact steady_dormantExit s
  | resumeHold =>
    exact show Steady (execResumeHold s) s from
      steady_liveSettle _ s fun u _ => (kept_resumeSteps _).trans (kept_discardLow pf.val u)
  | freezeSet =>
    exact show Steady (execFreezeSet s) s from
      steady_live _ s fun u _ => (kept_freezeCtrl _).trans (kept_discardLow pf.val u)
  | freezeClear =>
    exact show Steady (execFreezeClear s) s from
      steady_liveSettle _ s fun u hz => (kept_thawCtrl _ ((kept_discardLow pf.val u).sized hz)).trans (kept_discardLow pf.val u)
  | droop i => exact steady_live _ s fun u _ => kept_droop i.val u
  | powerSample p => exact show Steady (execPowerSample p s) s from steady_live _ s fun u _ => Kept.ite Kept.rfl' (kept_powerSample p u)
  | freezeSignal => exact steady_live _ s fun u _ => kept_freezeDebug u
  | freezeSignalClear => exact show Steady (execFreezeSignalClear s) s from steady_liveSettle _ s fun u hz => kept_thawDebug u hz
  | freezeDone => exact steady_live _ s fun u _ => kept_freezeDone u
  | debugReadout i => exact steady_liveQuiet s fun u _ => kept_readOut i.val u
  | intCoalRaise page v =>
    exact show Steady (execIntCoalRaise page v s) s from
      steady_live _ s fun u _ => Kept.ite Kept.rfl' (kept_vecEval page.val v.val u)
  | islandResetDone i =>
    exact show Steady (execIslandResetDone i s) s from
      steady_liveSettle _ s fun u hz => Kept.ite Kept.rfl' (kept_islandBack i.val u hz)
  | idleGate i => exact steady_liveQuiet s fun u _ => kept_idleGate i.val u
  | imageVerified seen => exact steady_live _ s fun u _ => kept_imageVerified seen u
  | ready => exact show Steady (execReady s) s from steady_liveSettle _ s fun u _ => kept_startReady u
  | blockResetReady refused =>
    exact show Steady (execBlockResetReady refused s) s from
      steady_liveSettle _ s fun u hz => kept_blockResetReady refused u hz
  | dormantEntryDone => exact steady_live _ s fun u _ => kept_dormantDone u
  | wakeDone seen => exact show Steady (execWakeDone seen s) s from steady_liveSettle _ s fun u hz => kept_wakeDone seen u hz
  | _ => exact steady_ofOwn s rfl

/-! ### One command -/

theorem Steady.kept {o : Host.Outcome State Fault Refusal} {s t : State} (h : Steady o s) (hz : Sized s) (e : o = .next t) : Kept t s := by
  obtain ⟨op, rfl, hop⟩ := h
  exact kept_liveQuiet hz hop e

theorem Steady.next {o : Host.Outcome State Fault Refusal} {s : State} (h : Steady o s) (hk : Known s) : ∃ t, o = .next t := by
  obtain ⟨op, rfl, -⟩ := h
  exact ⟨op s, liveQuiet_next s op hk⟩

theorem liveQuiet_unknown (s : State) (op : State → State) (h : ¬ Known s) : liveQuiet s op = .fault .stateUnknown :=
  if_pos (Bool.eq_true_of_not_eq_false h)

theorem Steady.fault {o : Host.Outcome State Fault Refusal} {s : State} (h : Steady o s) (hk : ¬ Known s) : o = .fault .stateUnknown := by
  obtain ⟨op, rfl, -⟩ := h
  exact liveQuiet_unknown s op hk

theorem exec_supplySag (s : State) (hk : Known s) : exec .supplySag s = .next (supplySag (ungate [] s)) := live_next [] s supplySag hk

theorem exec_unknown {c : Instr} {s : State} (hk : ¬ Known s) (hc : c ≠ .coldReset) : exec c s = .fault .stateUnknown := by
  by_cases hsag : c = .supplySag
  · subst hsag
    change live [] s supplySag = _
    exact liveQuiet_unknown s _ hk
  · exact (steady_exec s hc hsag).fault hk

/-- What a command that answers a next state leaves there: COLD_RESET its own image, a supply sag its mark, any other what `Kept` names. -/
theorem exec_next_cases {c : Instr} {s t : State} (hz : Sized s) (e : exec c s = .next t) :
    (c = .coldReset ∧ t = coldReset s) ∨ (c = .supplySag ∧ t = supplySag (ungate [] s))
      ∨ (c ≠ .coldReset ∧ c ≠ .supplySag ∧ Kept t s) := by
  by_cases hreset : c = .coldReset
  · subst hreset
    exact .inl ⟨rfl, (Host.Outcome.next.inj e).symm⟩
  by_cases hsag : c = .supplySag
  · subst hsag
    by_cases hk : Known s
    · exact .inr (.inl ⟨rfl, (Host.Outcome.next.inj ((exec_supplySag s hk).symm.trans e)).symm⟩)
    · rw [exec_unknown hk hreset] at e
      cases e
  · exact .inr (.inr ⟨hreset, hsag, (steady_exec s hreset hsag).kept hz e⟩)

theorem Sizes.sized {s : State} (h : Sizes s) : Sized s := by
  obtain ⟨hpages, -, harbs, -⟩ := h
  exact ⟨hpages, harbs⟩

theorem Kept.sizes {t s : State} (h : Kept t s) (hz : Sizes s) : Sizes t := by
  obtain ⟨-, -, -, hpages, htens, harbs, hslots⟩ := h
  exact ⟨hpages.trans hz.1, htens.trans hz.2.1, harbs.trans hz.2.2.1, hslots.trans hz.2.2.2⟩

theorem sizes_coldReset (s : State) : Sizes (coldReset s) := ⟨rfl, rfl, rfl, rfl⟩

/-- Settles O3: no form of a command touches the queue. -/
theorem queueKept : Obligations.QueueKept := by
  intro c s t hz e
  obtain ⟨-, rfl⟩ | ⟨-, rfl⟩ | ⟨-, -, hkept⟩ := exec_next_cases hz.sized e
  · rfl
  · rfl
  · exact hkept.1

/-- Settles O4: the LCC moves with `tick` alone. -/
theorem clockKept : Obligations.ClockKept := by
  intro c s t hz e
  obtain ⟨rfl, rfl⟩ | ⟨rfl, rfl⟩ | ⟨hreset, -, hkept⟩ := exec_next_cases hz.sized e
  · rfl
  · rfl
  · obtain ⟨-, hlcc, -⟩ := hkept
    rw [if_neg hreset]
    exact hlcc

theorem exec_sizes {c : Instr} {s t : State} (hz : Sizes s) (e : exec c s = .next t) : Sizes t := by
  obtain ⟨-, rfl⟩ | ⟨-, rfl⟩ | ⟨-, -, hkept⟩ := exec_next_cases hz.sized e
  · exact sizes_coldReset s
  · exact hz
  · exact hkept.sizes hz

/-- A command but a supply sag answers a next state where the state is known, and that state is known again. -/
theorem exec_known {c : Instr} {s : State} (hz : Sizes s) (hk : Known s) (hc : c ≠ .supplySag) :
    ∃ t, exec c s = .next t ∧ Known t := by
  by_cases hreset : c = .coldReset
  · exact ⟨coldReset s, by rw [hreset]; rfl, rfl⟩
  · have hsteady := steady_exec s hreset hc
    obtain ⟨t, e⟩ := hsteady.next hk
    obtain ⟨-, -, hsagged, -⟩ := hsteady.kept hz.sized e
    exact ⟨t, e, hsagged.trans hk⟩

/-! ### Time -/

/-- What passes while no command waits: the clock moves or it does not, and nothing else that `Kept` names changes. -/
theorem kept_tick (s : State) : ∃ u, Kept (tick s) u ∧ (u = s ∨ u = onCtl (fun c => { c with lcc := c.lcc + 10 }) s) := by
  unfold tick
  split
  · exact ⟨s, Kept.ite Kept.rfl' (kept_stopRank s), .inl rfl⟩
  · exact ⟨_, Kept.ite (kept_traceFlush _) Kept.rfl', .inr rfl⟩

theorem tick_invariant {s : State} (hz : Sizes s) :
    Sizes (tick s) ∧ (tick s).ctl.sagged = s.ctl.sagged ∧ (tick s).pending = s.pending := by
  obtain ⟨u, hkept, hu⟩ := kept_tick s
  have hus : Sizes u ∧ u.ctl.sagged = s.ctl.sagged ∧ u.pending = s.pending := by
    obtain rfl | rfl := hu
    · exact ⟨hz, rfl, rfl⟩
    · exact ⟨hz, rfl, rfl⟩
  obtain ⟨hzu, hsagged, hpending⟩ := hus
  have hsizes := hkept.sizes hzu
  obtain ⟨hp, -, hs, -⟩ := hkept
  exact ⟨hsizes, hs.trans hsagged, hp.trans hpending⟩

/-! ### Steps and runs -/

theorem step_nil {s : State} (h : s.pending = []) : step s = .next (tick s) := by
  simp only [step, h]

theorem step_cons {s : State} {c : Instr} {rest : List Instr} (h : s.pending = c :: rest) :
    step s = exec c { s with pending := rest } := by
  simp only [step, h]

/-- Settles O1: the step on a queue that is not empty. -/
theorem stepRunsFront : Obligations.StepRunsFront := fun _ _ _ => step_cons rfl

/-- Settles O5: the queue's rest is no table, and time keeps the tables as every command does. -/
theorem sizesKept : Obligations.SizesKept := by
  intro s t hz e
  cases hp : s.pending with
  | nil =>
    obtain rfl := Host.Outcome.next.inj ((step_nil hp).symm.trans e)
    exact (tick_invariant hz).1
  | cons c rest => exact exec_sizes (s := { s with pending := rest }) hz ((step_cons hp).symm.trans e)

/-- One step of a known state in front of no supply sag, with the queue that it leaves. -/
theorem step_known {s : State} (hz : Sizes s) (hk : Known s) (hc : s.pending.head? ≠ some .supplySag) :
    ∃ t, step s = .next t ∧ Sizes t ∧ Known t ∧ t.pending = s.pending.tail := by
  cases hp : s.pending with
  | nil =>
    obtain ⟨hsizes, hsagged, hpending⟩ := tick_invariant hz
    exact ⟨tick s, step_nil hp, hsizes, hsagged.trans hk, hpending.trans hp⟩
  | cons c rest =>
    have hsag : c ≠ .supplySag := fun e => hc (by rw [hp, e]; rfl)
    have hz' : Sizes { s with pending := rest } := hz
    obtain ⟨t, e, hknown⟩ := exec_known hz' hk hsag
    exact ⟨t, (step_cons hp).trans e, exec_sizes hz' e, hknown, queueKept c _ t hz' e⟩

theorem run_succ (k : Nat) {s t : State} (h : step s = .next t) : core.run (k + 1) s = core.run k t := by
  have hcore : core.step s = .next t := h
  simp only [Host.Core.run, hcore]

/-- Settles O6: by induction on the steps, as what waits after a step waited before it. -/
theorem runNeverStops : Obligations.RunNeverStops := by
  refine ⟨fun s hz hk hc => ?_, fun k => ?_⟩
  · obtain ⟨t, e, hsizes, hknown, -⟩ := step_known hz hk hc
    exact ⟨t, e, hsizes, hknown⟩
  · induction k with
    | zero => exact fun s _ _ _ => ⟨s, rfl⟩
    | succ k ih =>
      intro s hz hk hsag
      obtain ⟨t, e, hsizes, hknown, hpending⟩ := step_known hz hk fun h => hsag (List.mem_of_head? h)
      rw [run_succ k e]
      exact ih t hsizes hknown (hpending ▸ fun h => hsag (List.mem_of_mem_tail h))

/-- Settles O7: `liveQuiet` is the form of every command but COLD_RESET. -/
theorem sagNeedsColdReset : Obligations.SagNeedsColdReset :=
  ⟨exec_supplySag, fun _ _ hk hc => exec_unknown hk hc, fun _ => rfl⟩

/-- Settles O2: `tick`, with the trace flushed on the state whose clock has moved. -/
theorem stepIdle : Obligations.StepIdle := by
  intro s hp u
  rw [step_nil hp]
  simp only [tick, Bool.and_eq_true, decide_eq_true_eq, Bool.not_eq_true', stopRank]
  rfl

end Sys2Proof.Machine
end

section
/-! SUPPORT. What a message command does when no other message waits, and the proofs of O9, O10, O11, O12 and O13: a ring message that may
be fetched, one that waits, an urgent message, and the checks of R83 (03 R62 to R72; 04 R83). -/

namespace Sys2Proof.Machine

/-! ### A ring message that waits -/

theorem msgHead_page_lt {c : Instr} {p : Nat} {v : Via} (hc : msgHead c = some (p, v)) : p < 17 := by
  cases c <;> cases hc <;> exact Fin.isLt _

theorem page_ringed_quiet {p : Nat} (c : Instr) {s : State} (hp : p < s.pages.length) (q : Quiet s) (a : Nat) :
    (ringed p c s).page a = if a = p then { s.page p with ring := [c] } else s.page a := by
  by_cases ha : a = p
  · subst ha
    rw [if_pos rfl, page_ringed c hp, (quiet_page q a).1, List.nil_append]
  · rw [if_neg ha]
    exact page_onPage_ne s p a _ ha

/-- A message that its page may not fetch has no turn. -/
theorem ringKey_of_not_fetches {p : Nat} {c : Instr} {s : State} (hp : p < s.pages.length) (q : Quiet s) (hf : ¬ Fetches p c s) (a : Nat) :
    (ringed p c s).ringKey a = none := by
  by_cases ha : a = p
  · subst ha
    have hserves : (ringed a c s).serves a = s.serves a := by
      unfold State.serves
      rw [page_ringed c hp]
      rfl
    have hpage := page_ringed_quiet c hp q a
    rw [if_pos rfl] at hpage
    simp only [State.ringKey, hpage, hserves]
    refine if_neg fun h => hf ?_
    simp only [Bool.and_eq_true, decide_eq_true_eq] at h
    obtain ⟨⟨hs, hready⟩, hfetch⟩ := h
    exact ⟨hs, hready, hfetch⟩
  · have hring : ((ringed p c s).page a).ring = [] := by
      rw [page_ringed_quiet c hp q a, if_neg ha]
      exact (quiet_page q a).1
    exact ringKey_none _ a hring

theorem pumpRing_of_no_turn (n : Nat) {s : State} (h : ∀ p, s.ringKey p = none) : pumpRing n s = s := by
  cases n with
  | zero => rfl
  | succ n => simp only [pumpRing, leastBy_none s.ringKey _ (fun p _ => h p)]

theorem beginFetch_of_empty {p : Nat} {s : State} (h : (s.page p).ring = []) : beginFetch p s = s := by
  simp only [beginFetch, h]

theorem each_beginFetch_of_empty {l : List Nat} {s : State} (h : ∀ p ∈ l, (s.page p).ring = []) : each l beginFetch s = s := by
  induction l with
  | nil => rfl
  | cons p l ih =>
    change each l beginFetch (beginFetch p s) = s
    rw [beginFetch_of_empty (h p List.mem_cons_self)]
    exact ih fun k hk => h k (List.mem_cons_of_mem p hk)

theorem ring_of_mails {t s : State} (h : Mails t s) (p : Nat) : (t.page p).ring = (s.page p).ring := by
  have hmap : ∀ u : State, (u.page p).ring = ((u.pages.map mailOf).getD p ([], [])).1 := fun u => by
    simp only [State.page, List.getD_eq_getElem?_getD, List.getElem?_map]
    cases u.pages[p]? <;> rfl
  rw [hmap t, hmap s, h]

/-- Where one page alone has a message in its ring, no other begins a fetch. -/
theorem each_beginFetch_one {p : Nat} {s : State} (hp : p < 17) (h : ∀ a, a ≠ p → (s.page a).ring = []) :
    each (List.range 17) beginFetch s = beginFetch p s := by
  obtain ⟨l, r, hlr⟩ := List.append_of_mem (List.mem_range.mpr hp)
  have hnodup : (l ++ p :: r).Nodup := hlr ▸ List.nodup_range
  have hl : p ∉ l := fun hm => List.disjoint_of_nodup_append hnodup hm List.mem_cons_self
  have hr : p ∉ r := (List.nodup_cons.mp (List.nodup_append.mp hnodup).2.1).1
  have hsplit : each (List.range 17) beginFetch s = each r beginFetch (beginFetch p (each l beginFetch s)) := by
    simp only [each, hlr, List.foldl_append, List.foldl_cons]
  rw [hsplit, each_beginFetch_of_empty fun a ha => h a fun e => hl (e ▸ ha)]
  refine each_beginFetch_of_empty fun a ha => ?_
  rw [ring_of_mails (mail_beginFetch p s)]
  exact h a fun e => hr (e ▸ ha)

theorem mail_freed (s : State) : Mails (freed s) s := by
  unfold freed
  split
  · exact mail_restores s
  · exact Mails.rfl'

/-- A message that its page may not fetch stays in its ring; the block may begin to fetch its header (03 R66). -/
theorem settle_waiting {p : Nat} {c : Instr} {s : State} (hp : p < s.pages.length) (h17 : p < 17) (q : Quiet s) (hf : ¬ Fetches p c s) :
    settle (ringed p c s) = beginFetch p (freed (ringed p c s)) := by
  have hurgent : ∀ a, ((ringed p c s).page a).urgQueue = [] := fun a => by
    rw [page_ringed_quiet c hp q a]
    split
    · exact (quiet_page q p).2
    · exact (quiet_page q a).2
  simp only [settle, pumpUrgent_quiet _ _ hurgent, pumpRing_of_no_turn _ (ringKey_of_not_fetches hp q hf)]
  refine each_beginFetch_one h17 fun a ha => ?_
  rw [ring_of_mails (mail_freed _), page_ringed_quiet c hp q a, if_neg ha]
  exact (quiet_page q a).1

/-- A message command of a ring on which nothing else waits answers the settled state of its ring. -/
theorem exec_ring {c : Instr} {p : Nat} {h : Hdr} {s : State} (hc : msgHead c = some (p, .ring h)) (hk : Known s) :
    exec c s = .next (settle (ringed p c (ungate (s.pageIslands p) s))) := by
  rw [exec_message c p _ s hc, live_next _ s _ hk, deliver_ring _ hc]

theorem ringed_of_quiet {p : Nat} (c : Instr) {s : State} (q : Quiet s) :
    ringed p c s = s.onPage p (fun g => { g with ring := [c] }) := by
  simp only [ringed, State.onPage]
  congr 1
  refine lupd_congr p _ _ s.pages fun g hg => ?_
  rw [(q g hg).1, List.nil_append]

/-- Settles O9: the one message that waits has its turn exactly where its page may fetch it. -/
theorem ringMessageHandled : Obligations.RingMessageHandled := by
  intro c p h s
  refine ⟨fun hf => ?_, fun hc hp hk q hf => ?_⟩
  · exact exec_fetched (page := ⟨p, msgHead_page_lt hf.1⟩) hf
  · have q' : Quiet (ungate (s.pageIslands p) s) := q
    have hf' : ¬ Fetches p c (ungate (s.pageIslands p) s) := hf
    have hp' : p < (ungate (s.pageIslands p) s).pages.length := hp
    rw [exec_ring hc hk, settle_waiting hp' (msgHead_page_lt hc) q' hf', ringed_of_quiet c q']

/-! ### An urgent message -/

theorem serves_iff (s : State) (p : Nat) : s.serves p = true ↔ (s.page p).isOpen = true ∧ s.awake = true ∧ s.freezing = false
    ∧ ¬ (s.ctl.resumeHold = true ∧ p ≠ mgmt) ∧ (s.page p).stopping.isNone = true
    ∧ s.gdnDown (s.page p).gardener.toNat = false := by
  simp only [State.serves, Bool.and_eq_true, Bool.not_eq_true', Bool.and_eq_false_iff, decide_eq_false_iff_not, and_assoc,
    not_and_or, Bool.not_eq_true]

/-- What the write of GO does to the slot that takes the message (03 R71). -/
def takeUrg (c : Instr) (lcc : U64) (x : Urg) : Urg :=
  { x with
    msg := urgBits c
    busy := true
    done := false
    lcc := lcc }

theorem posted_eq (p : Nat) (u : Fin 8) (c : Instr) (s : State) : posted p u c s
    = onCtl (fun k => { k with goSeq := k.goSeq + 1 }) ((discardLow p (ungate (s.pageIslands p) s)).onPage p
        (fun g => { g with slots := lupd u.val (takeUrg c s.ctl.lcc) g.slots })) := rfl

/-- The write of the message and then of GO posts the message and queues it. -/
theorem urgStart_posted (p : Nat) (u : Fin 8) (c : Instr) (s : State) :
    urgStart p u.val c ((discardLow p (ungate (s.pageIslands p) s)).onPage p (fun g =>
        { g with slots := lupd u.val (fun x => { x with msg := urgBits c }) g.slots }))
      = (posted p u c s).onPage p (fun g => { g with urgQueue := g.urgQueue ++ [(u.val, s.ctl.goSeq, c)] }) := by
  simp only [posted_eq, urgStart, State.onPage, onCtl, lupd_lupd, Function.comp_def]
  rfl

theorem page_posted {p : Nat} (u : Fin 8) (c : Instr) {s : State} (hp : p < s.pages.length) :
    (posted p u c s).page p = { s.page p with slots := lupd u.val (takeUrg c s.ctl.lcc) (s.page p).slots } :=
  (page_onPage _ p p _ hp).trans (if_pos rfl)

theorem page_posted_ne {p q : Nat} (u : Fin 8) (c : Instr) (s : State) (h : q ≠ p) : (posted p u c s).page q = s.page q :=
  page_onPage_ne _ p q _ h

theorem quiet_posted {p : Nat} (u : Fin 8) (c : Instr) {s : State} (q : Quiet s) : Quiet (posted p u c s) :=
  quiet_onPage (s := discardLow p (ungate (s.pageIslands p) s)) q fun _ hr hu => ⟨hr, hu⟩

/-- GO of a free slot of a page that is served, where nothing else waits, has its message handled at once (03 R71, R72). -/
theorem exec_posted {c : Instr} {p : Nat} {u : Fin 8} {irq : Bool} {h : Hdr} {s : State} (hc : msgHead c = some (p, .urgent u irq h))
    (hp : p < s.pages.length) (hk : Known s) (q : Quiet s) (hserves : s.serves p = true)
    (hfree : ((s.page p).slots.getD u.val {}).busy = false) :
    exec c s = .next (freed (handle p (.urgent u irq h) c (0x100 + u.val * 0x80) (posted p u c s))) := by
  have hs := hserves
  rw [serves_iff] at hs
  obtain ⟨hopen, -, hfreezing, -⟩ := hs
  have hopen' : ((ungate (s.pageIslands p) s).page p).isOpen = true := hopen
  have hfree' : (((ungate (s.pageIslands p) s).page p).slots.getD u.val {}).busy = false := hfree
  have hfreezing' : (discardLow p (ungate (s.pageIslands p) s)).freezing = false := hfreezing
  have hlen : p < (posted p u c s).pages.length := (length_lupd _ _ _).symm ▸ hp
  have hservesAfter : ((posted p u c s).onPage p (fun g => { g with urgQueue := g.urgQueue ++ [(u.val, s.ctl.goSeq, c)] })).serves p
      = true := by
    unfold State.serves
    rw [page_onPage _ p p _ hlen, if_pos rfl, page_posted u c hp]
    exact hserves
  rw [exec_message c p _ s hc, live_next _ s _ hk]
  simp only [deliver, hc, hfreezing', hopen', hfree', Bool.not_true, Bool.false_eq_true, if_false]
  rw [urgStart_posted, settle_urgent p u.val s.ctl.goSeq c _ _ (quiet_posted u c q) hlen (msgHead_page_lt hc) hc hservesAfter]

/-- Settles O10: `exec_posted`. -/
theorem urgentMessageHandled : Obligations.UrgentMessageHandled :=
  fun _ _ _ _ _ _ hc hp hk q hserves hfree => exec_posted hc hp hk q hserves hfree

/-! ### The checks of R83 -/

/-- A message that fails a check completes with its status; one of a stale generation is a page error too. -/
theorem handle_of_preCheck {p : Nat} {via : Via} {c : Instr} {s : State} {st : Nat} (addr : Nat) (h : preCheck p via c s = some st) :
    handle p via c addr s
      = replyVia p via (msgOpcode c) st [] 0 0 (if st = stNotCurrent then pageError p 0x01 addr s else s) := by
  simp only [handle, h]

theorem handle_of_preCheck_current {p : Nat} {via : Via} {c : Instr} {s : State} {st : Nat} (addr : Nat)
    (h : preCheck p via c s = some st) (hst : st ≠ stNotCurrent) :
    handle p via c addr s = replyVia p via (msgOpcode c) st [] 0 0 s := by
  rw [handle_of_preCheck addr h, if_neg hst]

section
variable {p : Nat} {via : Via} {c : Instr} {s : State}

theorem preCheck_stale (h : (viaHdr via).gen ≠ (s.page p).gen) : preCheck p via c s = some stNotCurrent := by
  simp only [preCheck, if_pos h]

theorem preCheck_length (hgen : (viaHdr via).gen = (s.page p).gen)
    (h : ¬ ((viaHdr via).length ≠ 0 ∧ (viaHdr via).length.toNat ≤ 4)) : preCheck p via c s = some stBadField := by
  have hbad : (decide ((viaHdr via).length = 0) || decide (4 < (viaHdr via).length.toNat)) = true := by
    simp only [Bool.or_eq_true, decide_eq_true_eq]
    by_contra hn
    exact h ⟨fun e => hn (.inl e), Nat.not_lt.mp fun e => hn (.inr e)⟩
  simp only [preCheck, hgen, ne_eq, not_true_eq_false, if_false, hbad, if_true]

/-- The checks after the length. -/
theorem preCheck_current (hgen : (viaHdr via).gen = (s.page p).gen)
    (hlen : (viaHdr via).length ≠ 0 ∧ (viaHdr via).length.toNat ≤ 4) : preCheck p via c s =
      if !pathOk via c then some stBadOpcode
      else if (p = mgmt && opTenantOnly (msgOpcode c)) || (p ≠ mgmt && opMgmtOnly (msgOpcode c)) then some stDenied
      else if (viaHdr via).length.toNat ≠ opUnits (msgOpcode c) then some stBadField
      else if msgOpcode c ≠ 0x01 && ((viaHdr via).rsv || !fieldsOk p c) then some stBadField
      else none := by
  obtain ⟨hne, hle⟩ := hlen
  have hok : (decide ((viaHdr via).length = 0) || decide (4 < (viaHdr via).length.toNat)) = false := by
    simp only [hne, decide_false, Bool.false_or, decide_eq_false_iff_not, Nat.not_lt]
    exact hle
  simp only [preCheck, hgen, ne_eq, not_true_eq_false, if_false, hok, Bool.false_eq_true]

theorem pageOk_iff : ((decide (p = mgmt) && opTenantOnly (msgOpcode c)) || (decide (p ≠ mgmt) && opMgmtOnly (msgOpcode c))) = false
    ↔ ¬ (p = mgmt ∧ opTenantOnly (msgOpcode c) = true) ∧ ¬ (p ≠ mgmt ∧ opMgmtOnly (msgOpcode c) = true) := by
  rw [← Bool.not_eq_true]
  simp only [Bool.or_eq_true, Bool.and_eq_true, decide_eq_true_eq, not_or]

end

/-- The page from which message `c` has been fetched (03 R66). -/
def fetchedPage (c : Instr) (g : Page) : Page :=
  { g with
    ring := g.ring.tail
    journal := g.journal.drop (g.journal.length - 255) ++ [{ index := g.sqHead, tag := (msgHdr c).tag }]
    sqHead := BitVec.ofNat 16 ((g.sqHead.toNat + msgUnits c) % 2 ^ g.sqLog2.toNat)
    begun := 0 }

/-- The state of the block in which a message is fetched, but for the page. -/
def fetching (p : Nat) (c : Instr) (s : State) : State :=
  onCtl (fun k => { k with lastGdn := (s.page p).gardener.toNat })
    (putReads (s.unitReads p (msgUnits c)) (ungate (s.pageIslands p) s))

theorem fetched_eq (p : Nat) (c : Instr) (s : State) : fetched p c s = (fetching p c s).onPage p (fetchedPage c) := rfl

theorem page_fetched {p : Nat} (c : Instr) {s : State} (hp : p < s.pages.length) :
    (fetched p c s).page p = fetchedPage c (s.page p) :=
  (page_onPage (fetching p c s) p p _ hp).trans (if_pos rfl)

theorem page_fetched_ne {p q : Nat} (c : Instr) (s : State) (h : q ≠ p) : (fetched p c s).page q = s.page q :=
  page_onPage_ne (fetching p c s) p q _ h

theorem gen_fetched {p : Nat} (c : Instr) {s : State} (hp : p < s.pages.length) : ((fetched p c s).page p).gen = (s.page p).gen := by
  rw [page_fetched c hp]
  rfl

/-- A refused ring message completes with the status of the check that it fails. -/
theorem exec_refused {c : Instr} {p st : Nat} {h : Hdr} {s : State} (hf : Fetched p c h s)
    (hcheck : preCheck p (.ring h) c (fetched p c s) = some st) (hst : st ≠ stNotCurrent) :
    exec c s = .next (freed (reply p h (msgOpcode c) st [] (fetched p c s))) := by
  rw [exec_fetched (page := ⟨p, msgHead_page_lt hf.1⟩) hf, handle_of_preCheck_current _ hcheck hst]
  rfl

/-- Settles O11: the checks in their order, and BAD_OPCODE for a ring message that the ring does not take. -/
theorem checksInOrder : Obligations.ChecksInOrder := by
  constructor
  · intro p via c addr s h o bad lengthOk pageOk
    refine ⟨fun hgen => ?_, fun hgen hlen => ?_, fun hgen hlen hpath => ?_, fun hgen hlen hpath hpage => ?_,
      fun hgen hlen hpath hpage hunits => ?_, fun hgen hlen hpath hpage hunits ho hfields => ?_⟩
    · rw [handle_of_preCheck addr (preCheck_stale hgen), if_pos rfl]
      rfl
    · exact handle_of_preCheck_current addr (preCheck_length hgen hlen) (by decide)
    · refine handle_of_preCheck_current addr ?_ (by decide)
      rw [preCheck_current hgen hlen]
      simp only [hpath, Bool.not_false, if_true]
      rfl
    · refine handle_of_preCheck_current addr ?_ (by decide)
      rw [preCheck_current hgen hlen, Bool.eq_true_of_not_eq_false (mt pageOk_iff.mp hpage)]
      simp only [hpath, Bool.not_true, Bool.false_eq_true, if_false, if_true]
      rfl
    · refine handle_of_preCheck_current addr ?_ (by decide)
      rw [preCheck_current hgen hlen, pageOk_iff.mpr hpage]
      simp only [hpath, Bool.not_true, Bool.false_eq_true, if_false]
      exact if_pos hunits
    · refine handle_of_preCheck_current addr ?_ (by decide)
      have hbad : (decide (msgOpcode c ≠ 0x01) && ((viaHdr via).rsv || !fieldsOk p c)) = true := by
        simp only [Bool.and_eq_true, decide_eq_true_eq, Bool.or_eq_true, Bool.not_eq_true']
        exact ⟨ho, hfields⟩
      rw [preCheck_current hgen hlen, pageOk_iff.mpr hpage, hbad]
      simp only [hpath, Bool.not_true, Bool.false_eq_true, if_false, if_true]
      exact if_neg (not_not_intro hunits)
  · intro page h o s c hf hgen hne hle
    have ⟨_, hp, _⟩ := hf
    have hgen' : (viaHdr (.ring h)).gen = ((fetched page.val c s).page page.val).gen := hgen.trans (gen_fetched c hp).symm
    have hchecked := fun st hst => exec_refused hf (st := st) hst
    refine ⟨fun ho => hchecked stBadOpcode ?_ (by decide), fun st hst => hchecked st hst ?_⟩
    · have hpath : pathOk (.ring h) c = false := by
        simp only [pathOk, viaOnRing, if_true, Bool.and_eq_false_iff, decide_eq_false_iff_not, not_not]
        exact ho.symm
      rw [preCheck_current hgen' ⟨hne, hle⟩]
      simp only [hpath, Bool.not_false, if_true]
    · rintro rfl
      rw [preCheck_current hgen' ⟨hne, hle⟩] at hst
      repeat' split at hst
      all_goals exact absurd hst (by decide)

/-! ### What a completion leaves of a tenant's record -/

/-- A tenant's record but for its totals, the uses of its budgets and their warnings. -/
def Ten.settings (x : Ten) : Ten :=
  { x with
    ctr := {}
    useNs := 0
    useBytes := 0
    useNj := 0
    warnT := false
    warnB := false
    warnE := false }

/-- No tenant's settings have changed. -/
def SameSettings (t s : State) : Prop := t.tens.map Ten.settings = s.tens.map Ten.settings

theorem SameSettings.trans {a b c : State} (h : SameSettings a b) (k : SameSettings b c) : SameSettings a c := Eq.trans h k

theorem SameSettings.of_tens {t s : State} (h : t.tens = s.tens) : SameSettings t s := congrArg (List.map Ten.settings) h

theorem SameSettings.ite {c : Prop} [Decidable c] {a b s : State} (h : SameSettings a s) (k : SameSettings b s) :
    SameSettings (if c then a else b) s := by
  split
  · exact h
  · exact k

theorem sameSettings_onTen (p : Nat) (f : Ten → Ten) (s : State) (h : ∀ x, (f x).settings = x.settings) :
    SameSettings (s.onTen p f) s :=
  map_lupd p f Ten.settings h s.tens

theorem sameSettings_vecEvent (p v : Nat) (s : State) : SameSettings (vecEvent p v s) s := by
  obtain ⟨ps, o, e⟩ := vecEvent_form p v s
  exact .of_tens (by rw [e])

theorem sameSettings_budgetWarn (p : Nat) (s : State) : SameSettings (budgetWarn p s) s := by
  have hwarn (c : Bool) (t : State) : SameSettings (if c then vecEvent p 6 t else t) t :=
    SameSettings.ite (sameSettings_vecEvent p 6 t) rfl
  exact ((hwarn _ _).trans ((hwarn _ _).trans (hwarn _ _))).trans (sameSettings_onTen p _ s (by intro; rfl))

theorem sameSettings_chargeTen (p n : Nat) (s : State) : SameSettings (chargeTen p n s) s :=
  SameSettings.ite (SameSettings.ite (sameSettings_onTen p _ s (by intro; rfl))
    ((sameSettings_budgetWarn p _).trans ((sameSettings_onTen p _ _ (by intro; rfl)).trans (sameSettings_onTen p _ s (by intro; rfl))))) rfl

theorem sameSettings_writeCqe (p : Nat) (c : Cpl) (s : State) : SameSettings (writeCqe p c s) s := by
  unfold writeCqe
  exact SameSettings.ite (sameSettings_chargeTen p 64 _) ((sameSettings_vecEvent p 0 _).trans (sameSettings_chargeTen p 64 _))

theorem sameSettings_reply (p : Nat) (h : Hdr) (op : U8) (st : Nat) (res : List (Nat × Nat)) (s : State) :
    SameSettings (reply p h op st res s) s := by
  have htrace (tag : U16) : SameSettings (traceMsg p op (BitVec.ofNat 16 st).toNat tag s) s := by
    obtain ⟨tr, o, e⟩ := trace_form 24 3 (s.page p).gardener.toNat (if p < 16 then some p else none) 0
      (op.toNat + (BitVec.ofNat 16 st).toNat * 65536) tag.toNat p s
    exact .of_tens (by rw [traceMsg, e])
  exact SameSettings.ite (htrace h.tag) ((sameSettings_writeCqe p _ _).trans (htrace h.tag))

theorem settings_ten {t s : State} (h : SameSettings t s) (p : Nat) : (t.ten p).settings = (s.ten p).settings := by
  have hmap : ∀ u : State, (u.ten p).settings = (u.tens.map Ten.settings).getD p {} := fun u => by
    simp only [State.ten, List.getD_eq_getElem?_getD, List.getElem?_map]
    cases u.tens[p]? <;> rfl
  rw [hmap t, hmap s, h]

theorem Ten.eq_of_settings {x y : Ten} (h : x.settings = y.settings) :
    x = { y with
      ctr := x.ctr
      useNs := x.useNs
      useBytes := x.useBytes
      useNj := x.useNj
      warnT := x.warnT
      warnB := x.warnB
      warnE := x.warnE } := by
  cases x
  cases y
  simp only [Ten.settings, Ten.mk.injEq] at h ⊢
  simp only [h, and_self]

/-- The fetch of a message changes the ports, its page, and the record of the gardener core that fetched it. -/
theorem untouched_fetched (p : Nat) (c : Instr) (s : State) :
    Untouched (fetched p c s) (onCtl (fun k => { k with lastGdn := (s.page p).gardener.toNat }) (ungate (s.pageIslands p) s)) :=
  untouched_form _ _ _ _ _

/-- Settles O12: a refused message is its fetch and its completion, and each changes no more than it may. -/
theorem refusedMessageFrame : Obligations.RefusedMessageFrame := by
  intro c p st h s hf hcheck hst
  have ⟨_, hp, _⟩ := hf
  obtain ⟨huntouched, hothers, hgen, hopen, hstarted, -⟩ := answers_reply p h (msgOpcode c) st [] (fetched p c s)
  rw [page_fetched c hp] at hgen hopen hstarted
  refine ⟨_, exec_refused hf hcheck hst, huntouched.trans (untouched_fetched p c s), fun q hq => ?_, ?_, hgen, hopen, hstarted⟩
  · obtain ⟨hpage, hten⟩ := hothers q hq
    exact ⟨hpage.trans (page_fetched_ne c s hq), hten⟩
  · exact Ten.eq_of_settings (settings_ten (sameSettings_reply p h _ st [] (fetched p c s)) p)

/-! ### TIME_XCHG -/

theorem slots_onPage {p k : Nat} {f : Urg → Urg} {s : State} (hp : p < s.pages.length) (hk : k < (s.page p).slots.length) :
    ((s.onPage p (fun g => { g with slots := lupd k f g.slots })).page p).slots.getD k {} = f ((s.page p).slots.getD k {}) := by
  rw [page_onPage s p p _ hp, if_pos rfl]
  exact (getD_lupd_cases k k f _ _).trans (if_pos ⟨rfl, hk⟩)

/-- An urgent slot whose message has completed (03 R71). -/
def doneUrg (st : Nat) (r0 r1 r2 : U64) (x : Urg) : Urg :=
  { x with
    status := BitVec.ofNat 16 st
    reply0 := r0
    reply1 := r1
    reply2 := r2
    busy := false
    done := true }

/-- A completion in an urgent slot changes that slot, and of the rest what a completion may change. -/
theorem completeUrg_effect {p k : Nat} (irq : Bool) (st : Nat) (r0 r1 r2 : U64) {s : State} (hp : p < s.pages.length)
    (hk : k < (s.page p).slots.length) :
    let t := completeUrg p k irq st r0 r1 r2 s
    Untouched t s ∧ (∀ q, q ≠ p → t.page q = s.page q)
      ∧ (t.page p).slots.getD k {} = doneUrg st r0 r1 r2 ((s.page p).slots.getD k {}) := by
  intro t
  have hslots := slots_onPage (f := doneUrg st r0 r1 r2) hp hk
  have hpages := page_onPage_ne s p (f := fun g => { g with slots := lupd k (doneUrg st r0 r1 r2) g.slots })
  have huntouched : Untouched (s.onPage p fun g => { g with slots := lupd k (doneUrg st r0 r1 r2) g.slots }) s :=
    untouched_form s _ s.out s.tens s.trc
  have ht : t = if irq then vecEvent p 1 (s.onPage p fun g => { g with slots := lupd k (doneUrg st r0 r1 r2) g.slots })
      else s.onPage p fun g => { g with slots := lupd k (doneUrg st r0 r1 r2) g.slots } := rfl
  rw [ht]
  split
  · obtain ⟨hu, hothers, -, -, -, hs, -⟩ :=
      answers_vecEvent p 1 (s.onPage p fun g => { g with slots := lupd k (doneUrg st r0 r1 r2) g.slots })
    exact ⟨hu.trans huntouched, fun q hq => (hothers q hq).1.trans (hpages q hq), by rw [hs, hslots]⟩
  · exact ⟨huntouched, hpages, hslots⟩

/-- The urgent answer of TIME_XCHG on a state in which its slot stands. -/
theorem hTimeXchg_urgent (p : Nat) (u : Fin 8) (irq : Bool) (h : Hdr) (f : TimeF) (s : State) :
    hTimeXchg p (.urgent u irq h) f s = completeUrg p u.val irq stOk f.host s.ctl.lcc 0 (traceMsg p 0x10 stOk h.tag s) := by
  simp only [hTimeXchg, replyVia, BitVec.ofNat_toNat, BitVec.setWidth_eq]

theorem answers_traceMsg (p : Nat) (op : U8) (st : Nat) (tag : U16) (s : State) : Answers p (traceMsg p op st tag s) s :=
  answers_trace p 24 3 _ _ 0 _ _ p s

theorem exec_timeXchg_urgent {page : Fin 17} {u : Fin 8} {irq : Bool} {h : Hdr} {f : TimeF} {s : State}
    (hposts : Posts page.val u irq (.timeXchg page (.urgent u irq h) f) h s) :
    let v := posted page.val u (.timeXchg page (.urgent u irq h) f) s
    exec (.timeXchg page (.urgent u irq h) f) s
      = .next (freed (completeUrg page.val u.val irq stOk f.host s.ctl.lcc 0 (traceMsg page.val 0x10 stOk h.tag v))) := by
  intro v
  obtain ⟨hc, hp, hk, q, hserves, hfree, hcheck⟩ := hposts
  rw [exec_posted hc hp hk q hserves hfree]
  simp only [handle, hcheck, hTimeXchg_urgent]
  rfl

/-- Settles O13: on a ring the opcode check fails; in a slot the answer is `completeUrg` on the posted state. -/
theorem timeExchanged : Obligations.TimeExchanged := by
  constructor
  · intro page h f s hf hgen hne hle
    have ⟨_, hp, _⟩ := hf
    have hgen' := hgen.trans (gen_fetched (.timeXchg page (.ring h) f) hp).symm
    refine exec_refused hf ?_ (by decide)
    rw [preCheck_current (via := .ring h) hgen' ⟨hne, hle⟩]
    rfl
  · intro page u irq h f s c hp hu hk q hserves hfree hcheck
    have hposted := page_posted u c hp
    obtain ⟨htraced, hothers, -, -, -, hslots, -, -, hlen⟩ := answers_traceMsg page.val 0x10 stOk h.tag (posted page.val u c s)
    rw [hposted] at hslots
    have hp' : page.val < (traceMsg page.val 0x10 stOk h.tag (posted page.val u c s)).pages.length :=
      hlen.symm ▸ (length_lupd _ _ _).symm ▸ hp
    have hu' : u.val < ((traceMsg page.val 0x10 stOk h.tag (posted page.val u c s)).page page.val).slots.length :=
      hslots.symm ▸ (length_lupd _ _ _).symm ▸ hu
    obtain ⟨hdone, hpages, hslot⟩ := completeUrg_effect irq stOk f.host s.ctl.lcc 0 hp' hu'
    have hfrom : Untouched (posted page.val u c s)
        (onCtl (fun k => { k with goSeq := k.goSeq + 1 }) (discardLow page.val (ungate (s.pageIslands page.val) s))) :=
      untouched_form (onCtl (fun k => { k with goSeq := k.goSeq + 1 }) (discardLow page.val (ungate (s.pageIslands page.val) s)))
        (posted page.val u c s).pages s.out s.tens s.trc
    refine ⟨_, exec_timeXchg_urgent ⟨rfl, hp, hk, q, hserves, hfree, hcheck⟩, (hdone.trans htraced).trans hfrom,
      fun a ha => (hpages a ha).trans ((hothers a ha).1.trans (page_posted_ne u c s ha)), ?_⟩
    rw [hslot, hslots, (getD_lupd_cases u.val u.val _ _ _).trans (if_pos ⟨rfl, hu⟩)]
    rfl

end Sys2Proof.Machine
end

section
/-! SUPPORT. Ring messages that pass the checks of R83, and the proofs of O14, O18, O19 and O24: the meaning of each message, read branch
by branch (04 R84 to R109). -/

namespace Sys2Proof.Machine

/-- A message that passes the common checks of R83 answers its own meaning on the state of its fetch. -/
theorem exec_passes {page : Fin 17} {c : Instr} {h : Hdr} {s : State} {own : State → State} (hp : Passes page.val c h s)
    (hown : ∀ addr u, preCheck page.val (.ring h) c u = none → handle page.val (.ring h) c addr u = own u) :
    exec c s = .next (freed (own (fetched page.val c s))) := by
  obtain ⟨hf, hcheck⟩ := hp
  rw [exec_fetched hf, hown _ _ hcheck]

/-! ### Queries -/

theorem isOpen_fetched (p : Nat) (c : Instr) (s : State) (q : Nat) : ((fetched p c s).page q).isOpen = (s.page q).isOpen := by
  rw [fetched_eq, page_onPage_cases]
  split <;> rfl

theorem gardener_fetched (p : Nat) (c : Instr) (s : State) (q : Nat) : ((fetched p c s).page q).gardener = (s.page q).gardener := by
  rw [fetched_eq, page_onPage_cases]
  split <;> rfl

section
variable {p : Nat} {h : Hdr} {s : State}

theorem hQueryReq_badHandle {f : HandleF} (hr : (s.named p f.handle).2 = none) :
    hQueryReq p h f s = reply p h 0x08 stBadHandle [] (s.named p f.handle).1 := by
  simp only [hQueryReq, hr]

theorem hQueryReq_request {f : HandleF} {r : Req} (hr : (s.named p f.handle).2 = some r) :
    hQueryReq p h f s = reply p h 0x08 stOk (queryResult (r.atSeal ((s.named p f.handle).1.rowImage r)) (s.named p f.handle).1.ctl.lcc)
      (s.named p f.handle).1 := by
  simp only [hQueryReq, hr]

/-- QUERY_LEDGER whose record the host refuses (04 R103, 01 R25). -/
theorem hQueryLedger_refusedTenant {f : LedgerF} (hf : f.perReq = false) :
    hQueryLedger p h f true s = reply p h 0x22 stBadField [] (hostFault p 6 f.outAddr.toNat 0 s) := by
  simp only [hQueryLedger, hf, Bool.false_eq_true, if_false, if_true]

theorem hQueryLedger_refusedRequest {f : LedgerF} {r : Req} (hf : f.perReq = true) (hr : (s.named p f.handle).2 = some r) :
    hQueryLedger p h f true s = reply p h 0x22 stBadField [] (hostFault p 6 f.outAddr.toNat 0 (s.named p f.handle).1) := by
  simp only [hQueryLedger, hf, hr, if_true]

end

theorem exec_queryReq {page : Fin 17} {h : Hdr} {f : HandleF} {s : State} (hp : Passes page.val (.queryReq page h f) h s) :
    exec (.queryReq page h f) s = .next (freed (hQueryReq page.val h f (fetched page.val (.queryReq page h f) s))) :=
  exec_passes hp fun addr u hu => by simp only [handle, hu]

/-- Settles O14: each answer is the message's own meaning on the state of its fetch, which keeps the pages' gardener cores. -/
theorem queriesAnswer : Obligations.QueriesAnswer := by
  refine ⟨?_, ?_, ?_⟩
  · intro page h rsv s hp s'
    rw [exec_passes (own := hFwInfo h) hp fun addr u hu => by simp only [handle, hu]]
    simp only [hFwInfo, isOpen_fetched, gardener_fetched]
    rfl
  · intro page h f s hp n
    exact ⟨fun hr => by rw [exec_queryReq hp, hQueryReq_badHandle hr], fun r hr => by rw [exec_queryReq hp, hQueryReq_request hr]⟩
  · intro page h f s hp s' n failed
    have hexec := exec_queryLedger page h f true s hp
    refine ⟨fun hf => ?_, fun r hf hr => ?_, fun hf hr => ?_⟩
    · rw [hexec, hQueryLedger_refusedTenant hf]
    · rw [hexec, hQueryLedger_refusedRequest hf hr]
    · rw [hexec, hQueryLedger_badHandle _ _ _ _ _ hf hr]

/-! ### An urgent CANCEL under a trace -/

/-- The block in READY with the page of tenant 3 open, no request, and every class and tenant traced (18 R435). -/
def tracedBlock : State :=
  { State.reset with
    ctl := { phase := .ready }
    pages := (List.range 17).map (fun i => if i = 3 then { isOpen := true, gardener := 1 } else {})
    trc := { en := true, events := 0xFFFFFFFF, tenants := 0xFFFF } }

/-- A CANCEL of a handle that names no request, in urgent slot 7 of page 3. -/
def strayCancel : Instr := .cancel 3 (.urgent 7 false ⟨false, true, 0, 7, 1, false⟩) ⟨0, 0, false⟩

theorem posts_strayCancel : Posts 3 7 false strayCancel ⟨false, true, 0, 7, 1, false⟩ tracedBlock := by
  and_intros <;> decide

theorem strayCancel_names_none : ((posted 3 7 strayCancel tracedBlock).named 3 0).2 = none := by decide

theorem hCancel_badHandle {p : Nat} {via : Via} {f : HandleF} {s : State} (hr : (s.named p f.handle).2 = none) :
    hCancel p via f s = replyVia p via 0x02 stBadHandle [] 0 0 (s.named p f.handle).1 := by
  simp only [hCancel, hr]

/-- The block traces the completion of an urgent message as that of any other (18 R434). -/
theorem exec_strayCancel : exec strayCancel tracedBlock = .next (freed (completeUrg 3 7 false stBadHandle 0 0 0
    (traceMsg 3 0x02 stBadHandle 7 ((posted 3 7 strayCancel tracedBlock).named 3 0).1))) := by
  obtain ⟨hc, hlen, hk, q, hserves, hfree, hcheck⟩ := posts_strayCancel
  rw [exec_posted hc hlen hk q hserves hfree]
  have hhandle : ∀ addr u, preCheck 3 (.urgent 7 false ⟨false, true, 0, 7, 1, false⟩) strayCancel u = none →
      handle 3 (.urgent 7 false ⟨false, true, 0, 7, 1, false⟩) strayCancel addr u
        = hCancel 3 (.urgent 7 false ⟨false, true, 0, 7, 1, false⟩) ⟨0, 0, false⟩ u :=
    fun addr u hu => by simp only [strayCancel, handle] at hu ⊢; simp only [hu]
  rw [hhandle _ _ hcheck, hCancel_badHandle strayCancel_names_none]
  rfl

theorem trace_of_strayCancel :
    (freed (completeUrg 3 7 false stBadHandle 0 0 0 (traceMsg 3 0x02 stBadHandle 7 ((posted 3 7 strayCancel tracedBlock).named 3 0).1))).trc
      ≠ (freed (completeUrg 3 7 false stBadHandle 0 0 0 ((posted 3 7 strayCancel tracedBlock).named 3 0).1)).trc := by
  decide

/-- Refutes O18: its answer of an urgent CANCEL leaves out the trace record of the completion, which `tracedBlock` writes. -/
theorem not_requestMessages : ¬ Obligations.RequestMessages := by
  rintro ⟨-, hurgent, -⟩
  obtain ⟨hnone, -⟩ := hurgent 3 7 false _ ⟨0, 0, false⟩ tracedBlock posts_strayCancel
  have hclaimed := exec_strayCancel.symm.trans (hnone strayCancel_names_none)
  exact trace_of_strayCancel (congrArg State.trc (Host.Outcome.next.inj hclaimed))

/-! ### SET_PROFILE -/

/-- The block in READY with the page of tenant 3 open and eight units delivered to its ring. -/
def readyBlock : State :=
  { State.reset with
    ctl := { phase := .ready }
    pages := (List.range 17).map (fun i =>
      if i = 3 then { isOpen := true, sqEn := true, cqEn := true, sqTail := 8, gardener := 1 } else {}) }

/-- A profile without a bias list, and the header of its message. -/
def plainProfile : ProfileF :=
  { profile := 0, topK := 1, draftMax := 0, temp := 0, topP := 0x3F800000, minP := 0, seed := 0, stopLen := 0, biasCount := 0,
    biasAddr := 0, stop := [[], [], [], []], rsv := false }
def profileHdr : Hdr := ⟨false, true, 0, 7, 3, false⟩

theorem passes_plainProfile : Passes 3 (.setProfile 3 profileHdr plainProfile) profileHdr readyBlock := by
  and_intros <;> decide

theorem exec_setProfile {page : Fin 17} {h : Hdr} {f : ProfileF} {s : State} (hp : Passes page.val (.setProfile page h f) h s) :
    exec (.setProfile page h f) s = .next (freed (hSetProfile page.val h f (fetched page.val (.setProfile page h f) s))) :=
  exec_passes hp fun addr u hu => by simp only [handle, hu]

/-- Without a bias list the profile is set at once; the gardener core writes its record through the egress port (01 R31). -/
theorem hSetProfile_plain {t : Nat} {h : Hdr} {f : ProfileF} {s : State} (hf : f.biasCount = 0) :
    hSetProfile t h f s = reply t h 0x06 stOk [] (setProfile t f [] s) := if_pos hf

/-- The state in which SET_PROFILE of `plainProfile` is handled. -/
def profileFetched : State := fetched 3 (.setProfile 3 profileHdr plainProfile) readyBlock

theorem arbs_of_plainProfile :
    (freed (reply 3 profileHdr 0x06 stOk [] (setProfile 3 plainProfile [] profileFetched))).arbs
      ≠ (freed (reply 3 profileHdr 0x06 stOk [] (profileFetched.onTen 3 (fun x =>
          { x with profiles := mput plainProfile.profile.toNat ⟨plainProfile, []⟩ x.profiles })))).arbs := by
  decide

/-- Refutes O19: its answer of SET_PROFILE leaves out the write of the profile's record, which stands at the egress port. -/
theorem not_profilesSpoolsAndSelects : ¬ Obligations.ProfilesSpoolsAndSelects := by
  rintro ⟨hfirst, -⟩
  obtain ⟨hprofile, -⟩ := hfirst 3 profileHdr readyBlock
  have hclaimed := hprofile plainProfile passes_plainProfile
  have hexec := exec_setProfile (page := 3) passes_plainProfile
  rw [hSetProfile_plain rfl] at hexec
  exact arbs_of_plainProfile (congrArg State.arbs (Host.Outcome.next.inj (hexec.symm.trans hclaimed)))

/-! ### Settings -/

section
variable {h : Hdr} {s : State}

theorem hBedConfig_refused {f : BedF} {st : Nat} (hc : bedCheck f s = some st) : hBedConfig h f s = reply mgmt h 0x45 st [] s := by
  simp only [hBedConfig, hc]

theorem hBedConfig_accepted {f : BedF} (hc : bedCheck f s = none) : hBedConfig h f s = hSetting h 0x45 (.bed f) s := by
  simp only [hBedConfig, hc]

theorem hSetCyclic_refused {f : CyclicF} (hc : f.tenantA = f.tenantB ∧ f.length ≠ 0) :
    hSetCyclic h f s = reply mgmt h 0x48 stBadField [] s :=
  if_pos (by simpa only [Bool.and_eq_true, decide_eq_true_eq] using hc)

theorem hSetCyclic_accepted {f : CyclicF} (hc : ¬ (f.tenantA = f.tenantB ∧ f.length ≠ 0)) :
    hSetCyclic h f s = hSetting h 0x48 (.cyclic f) s :=
  if_neg (by simpa only [Bool.and_eq_true, decide_eq_true_eq] using hc)

theorem traceRange_iff (f : TraceF) : (f.en && (decide (f.log2.toNat < 8) || decide (20 < f.log2.toNat))) = true
    ↔ f.en = true ∧ (f.log2.toNat < 8 ∨ 20 < f.log2.toNat) := by
  simp only [Bool.and_eq_true, Bool.or_eq_true, decide_eq_true_eq]

theorem hTraceConfig_refused {f : TraceF} (hen : f.en = true) (hr : f.log2.toNat < 8 ∨ 20 < f.log2.toNat) :
    hTraceConfig h f s = reply mgmt h 0x4A stBadField [] s := if_pos ((traceRange_iff f).mpr ⟨hen, hr⟩)

theorem hTraceConfig_accepted {f : TraceF} (hr : f.en = true → 8 ≤ f.log2.toNat ∧ f.log2.toNat ≤ 20) :
    hTraceConfig h f s = reply mgmt h 0x4A stOk [] { traceFlush s with trc :=
      { en := f.en
        log2 := f.log2
        events := f.events
        tenants := f.tenants
        ring := BitVec.ofNat 52 (f.ringAddr.toNat / 4096)
        head := 0
        tail := 0
        dropped := (traceFlush s).trc.dropped
        served := (traceFlush s).trc.served } } := by
  refine if_neg fun hbad => ?_
  obtain ⟨hen, hout⟩ := (traceRange_iff f).mp hbad
  have := hr hen
  omega

end

/-- Settles O24: each message is its own meaning on the state of its fetch, which composes at the same seal. -/
theorem settingsTaken : Obligations.SettingsTaken := by
  constructor
  · intro page h s
    refine ⟨fun f st hp hc => ?_, fun f hp hc => ?_, fun f hp => ?_, fun f hp ha hl => ?_, fun f hp hc => ?_, fun f hp => ?_⟩
    · rw [exec_passes (own := hBedConfig h f) hp fun addr u hu => by simp only [handle, hu], hBedConfig_refused hc]
    · rw [exec_passes (own := hBedConfig h f) hp fun addr u hu => by simp only [handle, hu], hBedConfig_accepted hc]
      rfl
    · exact exec_passes (own := hSetting h 0x46 (.shares f)) hp fun addr u hu => by simp only [handle, hu]
    · rw [exec_passes (own := hSetCyclic h f) hp fun addr u hu => by simp only [handle, hu], hSetCyclic_refused ⟨ha, hl⟩]
    · rw [exec_passes (own := hSetCyclic h f) hp fun addr u hu => by simp only [handle, hu], hSetCyclic_accepted hc]
      rfl
    · exact exec_passes (own := hSetting h 0x49 (.policy f)) hp fun addr u hu => by simp only [handle, hu]
  · intro page h s
    refine ⟨?_, ?_, ?_⟩
    · intro f hp s'
      exact exec_passes (own := hSetBudget h f) hp fun addr u hu => by simp only [handle, hu]
    · intro f hp s'
      have hexec := exec_passes (own := hTraceConfig h f) hp fun addr u hu => by simp only [handle, hu]
      exact ⟨fun hen hr => by rw [hexec, hTraceConfig_refused hen hr], fun hr => by rw [hexec, hTraceConfig_accepted hr]⟩
    · intro f hp s'
      exact exec_passes (own := hThermalQuery h f) hp fun addr u hu => by simp only [handle, hu]

end Sys2Proof.Machine
end

section
/-! SUPPORT. The proofs of O20 to O23: tenants, pins, flushes and the Greenhouse's messages, each its own meaning on the state of its
fetch, read branch by branch (04 R101 to R107). -/

namespace Sys2Proof.Machine

/-! ### The Greenhouse -/

theorem fallsToItself_iff (f : ModelLoadF) : (f.fbValid && decide (f.fallback = f.slot)) = true
    ↔ f.fbValid = true ∧ f.fallback = f.slot := by
  simp only [Bool.and_eq_true, decide_eq_true_eq]

section
variable {h : Hdr} {f : ModelLoadF} {s : State} (hst : (s.slot f.slot.toNat).state = .empty)
  (hfb : ¬ (f.fbValid = true ∧ f.fallback = f.slot))
include hst hfb

/-- MODEL_LOAD into an EMPTY slot, not its own fallback, reads its descriptor (04 R107). -/
theorem hModelLoad_refused {desc : Option ModelDesc} (hd : desc = none) : hModelLoad h f desc s = reply mgmt h 0x40 stBadField []
    (hostFault mgmt 0 f.descAddr.toNat 0 (putReads (readsOf (.host none) f.descAddr.toNat 256) s)) := by
  rw [hModelLoad, if_neg (not_not_intro hst), if_neg (mt (fallsToItself_iff f).mp hfb), hd]

theorem hModelLoad_described {desc : Option ModelDesc} {d : ModelDesc} (hd : desc = some d) : hModelLoad h f desc s =
    let u := putReads (readsOf (.host none) f.descAddr.toNat 256) s
    if d.rsv then reply mgmt h 0x40 stBadField [] u else takeLoad h f d (loadRoom d u) u := by
  rw [hModelLoad, if_neg (not_not_intro hst), if_neg (mt (fallsToItself_iff f).mp hfb), hd]

end

/-- What keeps a model from being evicted (08 R217). -/
def ModelInUse (f : EvictF) (s : State) : Prop :=
  s.modelUsers f.slot.toNat ≠ 0 ∨ (∃ g ∈ s.gh.grafts, g.base = f.slot)
    ∨ (∃ e ∈ s.reqs, ∃ k l, e.2.fbTable = some (k, l) ∧ k = f.slot) ∨ s.bedNames f.slot = true

theorem modelInUse_iff (f : EvictF) (s : State) : ModelInUse f s ↔
    (decide (s.modelUsers f.slot.toNat ≠ 0) || s.gh.grafts.any (fun g => decide (g.base = f.slot))
      || s.reqs.any (fun e => match e.2.fbTable with | some (k, _) => decide (k = f.slot) | none => false)) = true
    ∨ s.bedNames f.slot = true := by
  have hfb (e : Nat × Req) : (match e.2.fbTable with | some (k, _) => decide (k = f.slot) | none => false) = true
      ↔ ∃ k l, e.2.fbTable = some (k, l) ∧ k = f.slot := by
    cases e.2.fbTable with
    | none => simp
    | some x => cases x; simp
  simp only [ModelInUse, Bool.or_eq_true, decide_eq_true_eq, List.any_eq_true, hfb, or_assoc]

section
variable {h : Hdr} {f : EvictF} {s : State}

theorem hModelEvict_busy (hst : (s.slot f.slot.toNat).state ≠ .empty) (huse : (s.slot f.slot.toNat).state = .loading
    ∨ (s.slot f.slot.toNat).state = .evicting ∨ ModelInUse f s) : hModelEvict h f s = reply mgmt h 0x41 stBusy [] s := by
  rw [modelInUse_iff] at huse
  rw [hModelEvict, if_neg hst]
  split
  · rfl
  · next hmoving =>
    simp only [Bool.or_eq_true, decide_eq_true_eq, not_or] at hmoving
    obtain ⟨hload, hevict⟩ := hmoving
    rcases huse with hl | he | huse | hbed
    · exact absurd hl hload
    · exact absurd he hevict
    · exact if_pos huse
    · rw [if_pos hbed, ite_self]

theorem hModelEvict_accepted (hst : (s.slot f.slot.toNat).state ≠ .empty) (hload : (s.slot f.slot.toNat).state ≠ .loading)
    (hevict : (s.slot f.slot.toNat).state ≠ .evicting) (hfree : ¬ ModelInUse f s) :
    hModelEvict h f s = acceptEvict f.slot.toNat (startWait mgmt h 0x41 (.evict f.slot) s) := by
  rw [modelInUse_iff, not_or] at hfree
  obtain ⟨hfree, hbed⟩ := hfree
  have hmoving : ¬ (decide ((s.slot f.slot.toNat).state = .loading) || decide ((s.slot f.slot.toNat).state = .evicting)) = true := by
    simp only [Bool.or_eq_true, decide_eq_true_eq, not_or]
    exact ⟨hload, hevict⟩
  rw [hModelEvict, if_neg hst, if_neg hmoving]
  exact (if_neg hfree).trans (if_neg hbed)

end

theorem graftShort_eq_true {d : GraftDesc} {s : State} (h : stackRoom < s.stackUsed + d.graftBytes.toNat) : s.graftShort d = true :=
  decide_eq_true h

theorem graftShort_eq_false {d : GraftDesc} {s : State} (h : s.stackUsed + d.graftBytes.toNat ≤ stackRoom) : s.graftShort d = false :=
  decide_eq_false (Nat.not_lt.mpr h)

/-- Settles O23: the branches of each message. -/
theorem greenhouseMessages : Obligations.GreenhouseMessages := by
  constructor
  · intro page h s
    constructor
    · intro f desc hp s' u
      rw [exec_passes (own := hModelLoad h f desc) hp fun addr u hu => by simp only [handle, hu]]
      refine ⟨fun hst => ?_, fun hst hfb => ?_, fun hst hfb => ?_⟩
      · rw [hModelLoad, if_pos hst]
      · rw [hModelLoad, if_neg (not_not_intro hst), if_pos ((fallsToItself_iff f).mpr hfb)]
      · refine ⟨fun hd => by rw [hModelLoad_refused hst hfb hd], fun d hd => ?_⟩
        rw [hModelLoad_described hst hfb hd]
        dsimp only
        refine ⟨fun hr => by rw [if_pos hr], fun hr hroom => ?_, fun base hr hroom => ?_⟩
        · rw [if_neg (Bool.eq_false_iff.mp hr), show loadRoom d _ = none from hroom]
          rfl
        · rw [if_neg (Bool.eq_false_iff.mp hr), show loadRoom d _ = some base from hroom]
          rfl
    · intro f hp s' st
      rw [exec_passes (own := hModelEvict h f) hp fun addr u hu => by simp only [handle, hu]]
      refine ⟨fun hst => by rw [hModelEvict, if_pos hst], ?_⟩
      intro inUse
      exact ⟨fun hst huse => by rw [hModelEvict_busy hst huse],
        fun hst hload hevict hfree => by rw [hModelEvict_accepted hst hload hevict hfree]⟩
  · intro page h s
    refine ⟨?_, ?_, ?_⟩
    · intro f desc hp s' u named free
      rw [exec_passes (own := hGraftLoad h f desc) hp fun addr u hu => by simp only [handle, hu]]
      simp only [hGraftLoad]
      refine ⟨fun hn => ?_, fun hn hf => ?_, fun hn hf hd => ?_, fun d hn hf hd => ?_⟩
      · rw [if_pos ((Bool.not_eq_true' _).mpr (Bool.eq_false_of_not_eq_true hn))]
      · rw [if_neg (by simpa using hn), if_pos (Bool.eq_true_of_not_eq_false hf)]
      · subst hd
        rw [if_neg (by simpa using hn), if_neg (by simpa using hf)]
      · subst hd
        rw [if_neg (by simpa using hn), if_neg (by simpa using hf)]
        dsimp only
        refine ⟨fun hr => ?_, fun hr hroom => ?_, fun hr hroom => ?_⟩
        · rw [if_pos hr]
        · rw [if_neg (Bool.eq_false_iff.mp hr), if_pos (graftShort_eq_true hroom)]
        · rw [if_neg (Bool.eq_false_iff.mp hr), if_neg (Bool.eq_false_iff.mp (graftShort_eq_false hroom))]
    · intro f desc hp s' u v holds free
      rw [exec_passes (own := hGraftReplace h f desc) hp fun addr u hu => by simp only [handle, hu]]
      simp only [hGraftReplace]
      refine ⟨fun hn => ?_, fun hn hf => ?_, fun hn hf hd => ?_, fun d hn hf hd => ?_⟩
      · rw [if_pos ((Bool.not_eq_true' _).mpr (Bool.eq_false_of_not_eq_true hn))]
      · rw [if_neg (by simpa using hn), if_pos (Option.isSome_iff_ne_none.mpr hf)]
      · subst hd
        rw [if_neg (by simpa using hn), if_neg (Option.not_isSome_iff_eq_none.mpr hf)]
      · subst hd
        rw [if_neg (by simpa using hn), if_neg (Option.not_isSome_iff_eq_none.mpr hf)]
        dsimp only
        refine ⟨fun hr => ?_, fun hr hroom => ?_, fun hr hroom => ?_⟩
        · rw [if_pos hr]
        · rw [if_neg (Bool.eq_false_iff.mp hr), if_pos (graftShort_eq_true hroom)]
        · rw [if_neg (Bool.eq_false_iff.mp hr), if_neg (Bool.eq_false_iff.mp (graftShort_eq_false hroom))]
    · intro f hp s'
      rw [exec_passes (own := hGraftRetire h f) hp fun addr u hu => by simp only [handle, hu]]
      exact ⟨fun hh => by rw [hGraftRetire, if_neg (by simpa using hh)], fun hh => by rw [hGraftRetire, if_pos (by simpa using hh)]⟩

/-! ### Tenants -/

theorem pasidTaken_iff (f : TenantOpenF) (l : List Page) : l.any (fun g => g.isOpen && decide (g.pasid = f.pasid)) = true
    ↔ ∃ g ∈ l, g.isOpen = true ∧ g.pasid = f.pasid := by
  simp only [List.any_eq_true, Bool.and_eq_true, decide_eq_true_eq]

/-- TENANT_OPEN of a closed partition under a PASID that no open one has (04 R101). -/
theorem hTenantOpen_opened {h : Hdr} {f : TenantOpenF} {s : State} (hclosed : (s.page f.tenant.toNat).isOpen = false)
    (hpasid : ∀ g ∈ s.pages.take 16, ¬ (g.isOpen = true ∧ g.pasid = f.pasid)) (hlen : f.tenant.toNat < s.pages.length) :
    hTenantOpen h f s = reply mgmt h 0x20 stOk [(16, ((s.page f.tenant.toNat).gen + 1).toNat), (17, s.gardenerFor)]
      ((s.onPage f.tenant.toNat (fun g =>
        { g with
          isOpen := true
          gen := g.gen + 1
          pasid := f.pasid
          follow := f.follow
          gardener := BitVec.ofNat 4 s.gardenerFor })).onTen f.tenant.toNat (fun x =>
        { x with
          epoch := x.epoch + 1
          openedAt := s.ctl.lcc
          ctr := {}
          tokensIn := 0
          tokensOut := 0
          profiles := [] })) := by
  have hnone : ¬ (s.pages.take 16).any (fun g => g.isOpen && decide (g.pasid = f.pasid)) = true := by
    rw [pasidTaken_iff]
    exact fun ⟨g, hg, hsame⟩ => hpasid g hg hsame
  have hgen := congrArg Page.gen ((page_onPage s f.tenant.toNat f.tenant.toNat (fun g =>
        { g with
          isOpen := true
          gen := g.gen + 1
          pasid := f.pasid
          follow := f.follow
          gardener := BitVec.ofNat 4 s.gardenerFor }) hlen).trans (if_pos rfl))
  rw [hTenantOpen, if_neg (Bool.eq_false_iff.mp hclosed), if_neg hnone]
  dsimp only at hgen ⊢
  rw [← hgen]
  rfl

section
variable {p : Nat} {h : Hdr} {f : TenantResetF} {s : State}

theorem deniedClose_iff : (decide (p ≠ mgmt) && f.close) = true ↔ p ≠ mgmt ∧ f.close = true := by
  simp only [Bool.and_eq_true, decide_eq_true_eq]

/-- The message of a reset waits where the management page sent it (04 R102). -/
def askReset (p : Nat) (h : Hdr) (f : TenantResetF) (s : State) : State :=
  if p = mgmt then startWait p h 0x21 (.reset f.tenant.toFin) s else s

/-- A message that waits leaves its page's reset as it was. -/
theorem stopping_askReset (q : Nat) : ((askReset p h f s).page q).stopping = (s.page q).stopping := by
  unfold askReset
  split
  · rw [startWait, page_onPage_cases]
    split <;> rfl
  · rfl

section
variable (hmay : p = mgmt ∨ f.close = false) (hopen : (s.page f.tenant.toNat).isOpen = true)
include hmay hopen

theorem hTenantReset_allowed : ¬ (decide (p ≠ mgmt) && f.close) = true ∧ ¬ (!(s.page f.tenant.toNat).isOpen) = true := by
  refine ⟨fun hdenied => ?_, by rw [hopen]; decide⟩
  obtain ⟨hp, hc⟩ := deniedClose_iff.mp hdenied
  exact hmay.elim hp (Bool.eq_false_iff.mp · hc)

theorem hTenantReset_starts (hstop : ((askReset p h f s).page f.tenant.toNat).stopping = none) :
    hTenantReset p h f s = startReset f.tenant.toNat f.close (askReset p h f s) := by
  obtain ⟨hallowed, hisOpen⟩ := hTenantReset_allowed hmay hopen
  rw [hTenantReset, if_neg hallowed, if_neg hisOpen]
  unfold askReset at *
  simp only [hstop]

theorem hTenantReset_goesOn (hstop : ((askReset p h f s).page f.tenant.toNat).stopping ≠ none) :
    hTenantReset p h f s = (askReset p h f s).onPage f.tenant.toNat (fun g =>
      { g with stopping := g.stopping.map (fun (x : Stopping) => { x with close := x.close || f.close }) }) := by
  obtain ⟨hallowed, hisOpen⟩ := hTenantReset_allowed hmay hopen
  obtain ⟨x, hx⟩ := Option.ne_none_iff_exists'.mp hstop
  rw [hTenantReset, if_neg hallowed, if_neg hisOpen]
  unfold askReset at *
  simp only [hx]

end

end

/-- Settles O20: the branches of TENANT_OPEN and of TENANT_RESET. -/
theorem tenantLifecycle : Obligations.TenantLifecycle := by
  constructor
  · intro page h f s hp s' t
    rw [exec_passes (own := hTenantOpen h f) hp fun addr u hu => by simp only [handle, hu]]
    refine ⟨fun hopen => ?_, fun hclosed hpasid => ?_, fun hclosed hpasid hlen => ?_⟩
    · rw [hTenantOpen, if_pos hopen]
    · rw [hTenantOpen, if_neg (Bool.eq_false_iff.mp hclosed), if_pos ((pasidTaken_iff f _).mpr hpasid)]
    · have hlen' : f.tenant.toNat < s'.pages.length := by
        have hkept : s'.pages.length = s.pages.length := length_lupd _ _ _
        have ht := f.tenant.isLt
        omega
      rw [hTenantOpen_opened hclosed hpasid hlen']
  · intro page h f s hp s' t
    rw [exec_passes (own := hTenantReset page.val h f) hp fun addr u hu => by simp only [handle, hu]]
    refine ⟨fun hpage hclose => ?_, fun hpage hclose hopen hstop => ?_, fun hmay hclosed => ?_, fun hmay hopen => ?_,
      fun hpage hopen hstop => ?_⟩
    · rw [hTenantReset, if_pos (deniedClose_iff.mpr ⟨hpage, hclose⟩)]
    · rw [hTenantReset_starts (.inr hclose) hopen ((stopping_askReset t).trans hstop), askReset, if_neg hpage, hclose]
    · rw [hTenantReset, if_neg fun hdenied => hmay.elim (deniedClose_iff.mp hdenied).1
        (Bool.eq_false_iff.mp · (deniedClose_iff.mp hdenied).2), if_pos (by rw [hclosed]; rfl)]
    · intro u hstop
      have hu : u = askReset page.val h f s' := by
        simp only [u, askReset]
        exact if_ctx_congr Iff.rfl (fun hpage => by rw [hpage]) fun _ => rfl
      rw [hu] at hstop ⊢
      rw [hTenantReset_goesOn hmay hopen hstop]
    · rw [hTenantReset_starts (.inl hpage) hopen ((stopping_askReset t).trans hstop), askReset, if_pos hpage, hpage]

end Sys2Proof.Machine
end

section
/-! SUPPORT. Sparse tables after a write, and the proofs of O17, O21 and O22: ADMIT, the Seedbed's pins and COLD_FLUSH (02 R33 to R40;
04 R87, R104 to R106). -/

namespace Sys2Proof.Machine

/-! ### Sparse tables -/

section
variable {α : Type} (k j : Nat) (a : α) (l : List (Nat × α))

theorem mget_mput_same : mget k (mput k a l) = some a := by
  induction l with
  | nil => simp [mput, mget]
  | cons e r ih =>
    obtain ⟨i, b⟩ := e
    simp only [mput]
    split
    · simp [mget]
    · split
      · simp [mget]
      · next hne => simpa [mget, hne] using ih

theorem mget_mput_ne (h : j ≠ k) : mget j (mput k a l) = mget j l := by
  induction l with
  | nil => simp [mput, mget, h.symm]
  | cons e r ih =>
    obtain ⟨i, b⟩ := e
    simp only [mput]
    split
    · simp [mget, h.symm]
    · split
      · next hi => simp [mget, hi, h.symm]
      · simp [mget, ih]

theorem mget_mupd_same (f : α → α) : mget k (mupd k f l) = (mget k l).map f := by
  induction l with
  | nil => rfl
  | cons e r ih =>
    obtain ⟨i, b⟩ := e
    rw [mupd, List.map_cons, ← mupd]
    by_cases h : i = k
    · simp [mget, h]
    · simp [mget, h, ih]

end

/-! ### Releasing a pin -/

section
variable (up : Bool) (n : Nat) (ns : List Nat) (s : State)

/-- What a pin, or its release, makes of a node (07 R196). -/
def repin (x : Node) : Node :=
  { x with pins := if up then satInc x.pins else if x.pins = 0xFFFF then x.pins else x.pins - 1 }

/-- One node of a pin raised or lowered. -/
def repinOne (s : State) : State :=
  match mget n s.seed.nodes with
  | some x => putNode n (repin up x) s
  | none => s

theorem pinNodes_eq : pinNodes up ns s = dropCands (each ns (repinOne up) s) := rfl

theorem nodes_repinOne : mget n (repinOne up n s).seed.nodes = (mget n s.seed.nodes).map (repin up) := by
  unfold repinOne
  split
  · next x hx => exact (mget_mput_same n _ s.seed.nodes).trans (by rw [hx]; rfl)
  · next hx => rw [hx]; rfl

theorem nodes_repinOne_ne {m : Nat} (h : m ≠ n) : mget m (repinOne up n s).seed.nodes = mget m s.seed.nodes := by
  unfold repinOne
  split
  · exact mget_mput_ne n m _ s.seed.nodes h
  · rfl

theorem nodes_repinned_of_not_mem (h : n ∉ ns) : mget n (each ns (repinOne up) s).seed.nodes = mget n s.seed.nodes := by
  induction ns generalizing s with
  | nil => rfl
  | cons m ns ih =>
    rw [List.mem_cons, not_or] at h
    obtain ⟨hm, hns⟩ := h
    exact (ih (repinOne up m s) hns).trans (nodes_repinOne_ne up m s hm)

/-- A pin over distinct nodes raises or lowers each of them once. -/
theorem nodes_pinNodes (hd : ns.Nodup) (hn : n ∈ ns) : mget n (pinNodes up ns s).seed.nodes = (mget n s.seed.nodes).map (repin up) := by
  change mget n (each ns (repinOne up) s).seed.nodes = _
  induction ns generalizing s with
  | nil => exact absurd hn List.not_mem_nil
  | cons m ns ih =>
    obtain ⟨hm, hd⟩ := List.nodup_cons.mp hd
    rcases List.mem_cons.mp hn with rfl | hn
    · exact (nodes_repinned_of_not_mem up n ns _ hm).trans (nodes_repinOne up n s)
    · exact (ih (repinOne up m s) hd hn).trans (by rw [nodes_repinOne_ne up m s fun e => hm (e ▸ hn)])

theorem pinNodes_keeps : (pinNodes up ns s).plots = s.plots ∧ (pinNodes up ns s).reqs = s.reqs := by
  have hone (n : Nat) (s : State) : (repinOne up n s).plots = s.plots ∧ (repinOne up n s).reqs = s.reqs := by
    unfold repinOne
    split
    · exact ⟨rfl, rfl⟩
    · exact ⟨rfl, rfl⟩
  change (each ns (repinOne up) s).plots = _ ∧ (each ns (repinOne up) s).reqs = _
  induction ns generalizing s with
  | nil => exact ⟨rfl, rfl⟩
  | cons n ns ih =>
    obtain ⟨hplots, hreqs⟩ := hone n s
    obtain ⟨hplots', hreqs'⟩ := ih (repinOne up n s)
    exact ⟨hplots'.trans hplots, hreqs'.trans hreqs⟩

end

section
variable {p : Nat} {pin : U16} {s : State}

theorem mem_pinPages {k : Nat} : k ∈ pinPages p ↔ k = p ∨ (p = mgmt ∧ k < 17) := by
  unfold pinPages
  split
  · next h =>
    have : p < 17 := by rw [h]; decide
    rw [List.mem_range]
    omega
  · next h => simp [h]

theorem pinNamed_none (h : ∀ k, (k = p ∨ (p = mgmt ∧ k < 17)) → ∀ x ∈ (s.ten k).pins, x.id ≠ pin) : s.pinNamed p pin = none := by
  rw [State.pinNamed, List.findSome?_eq_none_iff]
  intro k hk
  rw [Option.map_eq_none_iff, List.find?_eq_none]
  exact fun x hx => by simpa using h k (mem_pinPages.mp hk) x hx

/-- The pages that a sender may name are visited in rising order. -/
theorem pinPages_split {k : Nat} (hk : k ∈ pinPages p) : ∃ l r, pinPages p = l ++ k :: r ∧ ∀ j ∈ l, j < k := by
  have hsorted : (pinPages p).Pairwise (· < ·) := by
    unfold pinPages
    split
    · exact List.pairwise_lt_range
    · exact List.pairwise_singleton _ _
  obtain ⟨l, r, hlr⟩ := List.append_of_mem hk
  rw [hlr, List.pairwise_append] at hsorted
  exact ⟨l, r, hlr, fun j hj => hsorted.2.2 j hj k List.mem_cons_self⟩

theorem pinNamed_some {k : Nat} {x : Pin} (hk : k = p ∨ (p = mgmt ∧ k < 17))
    (hlow : ∀ j < k, (j = p ∨ (p = mgmt ∧ j < 17)) → ∀ y ∈ (s.ten j).pins, y.id ≠ pin)
    (hx : (s.ten k).pins.find? (fun x => x.id = pin) = some x) : s.pinNamed p pin = some (k, x) := by
  obtain ⟨l, r, hlr, hl⟩ := pinPages_split (mem_pinPages.mpr hk)
  rw [State.pinNamed, List.findSome?_eq_some_iff]
  refine ⟨l, k, r, hlr, by rw [hx]; rfl, fun j hj => ?_⟩
  rw [Option.map_eq_none_iff, List.find?_eq_none]
  have hmay : j ∈ pinPages p := hlr ▸ List.mem_append_left _ hj
  exact fun y hy => by simpa using hlow j (hl j hj) (mem_pinPages.mp hmay) y hy

end

/-- Settles O21: the pin named is the first of its id on the pages that the sender may name. -/
theorem unpinReleases : Obligations.UnpinReleases := by
  intro page h f s hp s' mayName
  rw [exec_passes (own := hSeedbedUnpin page.val h f) hp fun addr u hu => by simp only [handle, hu]]
  constructor
  · intro hnone
    simp only [hSeedbedUnpin, pinNamed_none (s := fetched page.val _ s) hnone]
    rfl
  · intro k x hk hlow hx t
    refine ⟨?_, fun hd n hn y hy hpins => ?_, ?_, ?_⟩
    · simp only [hSeedbedUnpin, pinNamed_some (s := fetched page.val _ s) hk hlow hx]
      rfl
    · refine (nodes_pinNodes false n x.nodes s' hd hn).trans ?_
      rw [hy, Option.map_some, repin, hpins]
      rfl
    · exact (pinNodes_keeps false x.nodes s').1
    · exact (pinNodes_keeps false x.nodes s').2

/-! ### Pinning and flushing -/

section
variable {p : Nat} {h : Hdr} {s : State}

theorem hSeedbedPin_badHandle {f : PinF} (hr : (s.named p f.handle).2 = none) :
    hSeedbedPin p h f s = reply p h 0x23 stBadHandle [] (s.named p f.handle).1 := by
  simp only [hSeedbedPin, hr]

/-- SEEDBED_PIN of a request that its handle names (04 R104). -/
theorem hSeedbedPin_named {f : PinF} {r : Req} (hr : (s.named p f.handle).2 = some r) : hSeedbedPin p h f s =
    let u := (s.named p f.handle).1
    if p ≠ mgmt && f.scope ≠ 0 then reply p h 0x23 stDenied [] u
    else if r.adm.promptLen.toNat / 128 < f.plots.toNat then reply p h 0x23 stBadField [] u
    else if !r.offeredTo f.plots.toNat then reply p h 0x23 stBusy [] u
    else if 256 ≤ (u.ten p).pins.length then reply p h 0x23 stNoRoom [] u
    else
      let a := if f.scope = 0 then (u, (chainIn u r 0 f.plots.toNat).1)
        else publish (hSlot f.handle) (u.keyOf r f.scope.toNat) (List.range f.plots.toNat) none u
      reply p h 0x23 stOk [(16, a.1.newPin.toNat)]
        ((onSeed (fun d => { d with nextPin := a.1.newPin + 1 }) (pinNodes true a.2 a.1)).onTen p
          (fun x => { x with pins := x.pins ++ [⟨a.1.newPin, f.scope, a.2⟩] })) := by
  simp only [hSeedbedPin, hr]

theorem hColdFlush_badHandle {f : FlushF} (hall : f.all = false) (hr : (s.named p f.handle).2 = none) :
    hColdFlush p h f s = reply p h 0x25 stBadHandle [] (s.named p f.handle).1 := by
  simp only [hColdFlush, hall, hr, Bool.false_eq_true, if_false]

/-- COLD_FLUSH of one request (04 R106). -/
theorem hColdFlush_named {f : FlushF} {r : Req} (hall : f.all = false) (hr : (s.named p f.handle).2 = some r) : hColdFlush p h f s =
    let u := (s.named p f.handle).1
    if r.state = .ended then reply p h 0x25 stAlreadyEnded [(16, r.endStatus.toNat)] u
    else if r.state = .cold then reply p h 0x25 stOk [] u
    else if r.state ≠ .paused then reply p h 0x25 stBusy [] u
    else flushDone (pumpMoves (flushOne f.handle (startWait p h 0x25 (.flush [f.handle] false 0 false) u))) := by
  simp only [hColdFlush, hall, hr, Bool.false_eq_true, if_false]

end

theorem sharedScope_iff (p : Nat) (f : PinF) : (decide (p ≠ mgmt) && decide (f.scope ≠ 0)) = true ↔ ¬ (p = mgmt ∨ f.scope = 0) := by
  simp only [Bool.and_eq_true, decide_eq_true_eq, not_or]

/-- Settles O22: the branches of SEEDBED_PIN and of COLD_FLUSH. -/
theorem pinAndFlush : Obligations.PinAndFlush := by
  intro page h s r
  constructor
  · intro f hp n fits offered taken
    rw [exec_passes (own := hSeedbedPin page.val h f) hp fun addr u hu => by simp only [handle, hu]]
    refine ⟨fun hr => by rw [hSeedbedPin_badHandle hr], fun hr hpage hscope => ?_, fun hr hmay => ?_⟩
    · rw [hSeedbedPin_named hr]
      dsimp only
      rw [if_pos ((sharedScope_iff _ f).mpr (not_or.mpr ⟨hpage, hscope⟩))]
    · rw [hSeedbedPin_named hr]
      dsimp only
      rw [if_neg (mt (sharedScope_iff _ f).mp (not_not_intro hmay))]
      refine ⟨fun hfits => by rw [if_pos (Nat.lt_of_not_le hfits)], fun hfits hoffered => ?_, fun hfits hoffered hpins => ?_,
        fun hfits hoffered hpins => ?_⟩ <;> rw [if_neg (Nat.not_lt.mpr hfits)]
      · rw [if_pos ((Bool.not_eq_true' _).mpr (Bool.eq_false_of_not_eq_true hoffered))]
      · rw [if_neg (by simpa using hoffered), if_pos hpins]
      · rw [if_neg (by simpa using hoffered), if_neg (Nat.not_le.mpr hpins)]
        exact ⟨fun hscope => by rw [if_pos hscope], fun hscope => by rw [if_neg hscope]⟩
  · intro f hp s' n hs
    rw [exec_passes (own := hColdFlush page.val h f) hp fun addr u hu => by simp only [handle, hu]]
    refine ⟨fun hall => by rw [hColdFlush, if_pos hall], fun hall => ⟨fun hr => by rw [hColdFlush_badHandle hall hr], fun hr => ?_⟩⟩
    rw [hColdFlush_named hall hr]
    dsimp only
    refine ⟨fun hst => by rw [if_pos hst], fun hst => ?_, fun hended hcold hst => ?_, fun hst => ?_⟩
    · rw [if_neg (by rw [hst]; decide), if_pos hst]
    · rw [if_neg hended, if_neg hcold, if_pos hst]
    · rw [if_neg (by rw [hst]; decide), if_neg (by rw [hst]; decide), if_neg (not_not_intro hst)]

/-! ### ADMIT -/

/-- The checks of ADMIT pass only for a spool that is bound and that no request owns (02 R39). -/
theorem spool_of_admitCheck {t : Nat} {h : Hdr} {f : AdmitF} {s : State} (hc : admitCheck t h f s = none) :
    ∃ sp, s.spool t f.spool.toNat = some sp ∧ sp.owner = none := by
  simp only [admitCheck] at hc
  repeat (split at hc; · cases hc)
  next sp hspool _ howner _ _ _ _ => exact ⟨sp, hspool, by simpa using howner⟩

theorem answers_quotaCheck (p : Nat) (s : State) : Answers p (quotaCheck p s) s :=
  Answers.ite ((answers_vecEvent p 6 _).trans (answers_onTen p _ s)) (answers_onTen p _ s)

/-- Tenant `t`'s record after an update of it, where the table holds it. -/
theorem ten_onTen (s : State) (t : Nat) (f : Ten → Ten) (ht : t < s.tens.length) : (s.onTen t f).ten t = f (s.ten t) :=
  (getD_lupd_cases t t f _ s.tens).trans (if_pos ⟨rfl, ht⟩)

theorem spool_quotaCheck (p k : Nat) (s : State) : (quotaCheck p s).spool p k = s.spool p k := by
  have hset (reached : Bool) : (s.onTen p (fun x => { x with warnQ := reached })).spool p k = s.spool p k := by
    unfold State.spool
    rw [show (s.onTen p _).ten p = _ from getD_lupd_cases p p _ _ s.tens]
    split <;> rfl
  simp only [quotaCheck]
  split
  · obtain ⟨ps, o, e⟩ := vecEvent_form p 6 (s.onTen p (fun x =>
      { x with warnQ := decide ((s.ten p).quota.toNat * (s.ten p).warnPct.toNat ≤ s.liveOf p * 100) }))
    exact (congrArg (fun u : State => u.spool p k) e).trans (hset _)
  · exact hset _

/-- A spool that is bound stands in a table of the tenants (10 R276). -/
theorem lt_of_spool {t k : Nat} {s : State} {sp : Spool} (h : s.spool t k = some sp) : t < s.tens.length := by
  by_contra hlen
  rw [State.spool, State.ten, List.getD_eq_getElem?_getD, List.getElem?_eq_none (Nat.not_lt.mp hlen)] at h
  cases h

theorem spool_onSpool {t k : Nat} {f : Spool → Spool} {s : State} {sp : Spool} (h : s.spool t k = some sp) :
    (onSpool t k f s).spool t k = some (f sp) := by
  rw [State.spool, onSpool, ten_onTen s t _ (lt_of_spool h)]
  exact (mget_mupd_same k _ f).trans (by rw [← State.spool, h]; rfl)

theorem started_startWait {p : Nat} {h : Hdr} {op : U8} {w : Wait} {s : State} (hp : p < s.pages.length) :
    ((startWait p h op w s).page p).started = (s.page p).started ++ [⟨h, op, w, false⟩] := by
  rw [startWait, page_onPage s p p _ hp, if_pos rfl]

/-- The descriptor of an admitted request (02 R33). -/
def admitted (t : Nat) (f : AdmitF) (s : State) : Req :=
  { handle := mkHandle t s.freeSlot (((mget s.freeSlot s.gens).getD 0) + 1).toNat
    adm := f
    order := s.seq
    born := s.ctl.lcc
    since := s.ctl.lcc
    model := f.model
    graft := if f.graftValid then s.graftFor f else none
    noOffer := f.noOffer
    newLeft := f.maxNew.toNat
    budTime := left f.budgetTime 0
    budBytes := left f.budgetBytes 0
    budEnergy := left f.budgetEnergy 0 }

/-- The descriptor is allocated and the spool bound (02 R33). -/
def allocated (t : Nat) (f : AdmitF) (s : State) : State :=
  onSpool t f.spool.toNat (fun sp => { sp with owner := some (admitted t f s).handle })
    { s with
      reqs := mput s.freeSlot (admitted t f s) s.reqs
      gens := mput s.freeSlot (((mget s.freeSlot s.gens).getD 0) + 1) s.gens
      seq := s.seq + 1 }

theorem admitAccept_eq (t : Nat) (h : Hdr) (f : AdmitF) (s : State) : admitAccept t h f s
    = quotaCheck t (startWait t h 0x01 (.prompt (admitted t f s).handle f.promptAddr) (gdnWrite t 512 (allocated t f s))) := rfl

/-- Settles O17: the branches of ADMIT, and what each of its writes leaves. -/
theorem admitAllocates : Obligations.AdmitAllocates := by
  intro page h f s hp s' slot gen hd
  rw [exec_passes (own := hAdmit page.val h f) hp fun addr u hu => by simp only [handle, hu]]
  refine ⟨fun st hst => by rw [hAdmit, hst], fun hnone => ?_⟩
  obtain ⟨sp, hspool, howner⟩ := spool_of_admitCheck hnone
  have ⟨⟨_, hlen, _⟩, _⟩ := hp
  have hlen' : page.val < (gdnWrite page.val 512 (allocated page.val f s')).pages.length := (length_lupd _ _ _).symm ▸ hlen
  obtain ⟨huntouched, -, -, -, hstarted, -⟩ := answers_quotaCheck page.val (startWait page.val h 0x01
    (.prompt (admitted page.val f s').handle f.promptAddr) (gdnWrite page.val 512 (allocated page.val f s')))
  obtain ⟨-, helog, -, -, hreqs, hgens, hseq, hsow, hdisp, hplots, -⟩ := huntouched
  refine ⟨admitAccept page.val h f s', admitted page.val f s', sp, by rw [hAdmit, hnone], ?_, rfl, rfl, rfl, rfl, rfl, rfl, rfl, rfl, rfl,
    hseq, fun k hk => ?_, hgens, hspool, howner, ?_, ?_, hplots, hsow, hdisp, helog⟩
  · rw [State.req, admitAccept_eq, hreqs]
    exact mget_mput_same slot _ s'.reqs
  · rw [State.req, admitAccept_eq, hreqs]
    exact mget_mput_ne slot k _ s'.reqs hk
  · rw [admitAccept_eq, spool_quotaCheck]
    exact spool_onSpool hspool
  · rw [admitAccept_eq, hstarted, started_startWait hlen']
    exact congrArg (fun g : Page => g.started ++ [⟨h, 0x01, .prompt hd f.promptAddr, false⟩])
      (page_fetched (.admitReq page h f) hlen)

end Sys2Proof.Machine
end

section
/-! SUPPORT. Register writes, and the proofs of O25 to O28: a write of a register's own width is `regWrite` of its value
(Laws/Commands.lean), and each register's effect is read from its own operation (03 R62 to R72; 14 R356; 15 R396; 17 R423 to R429). -/

namespace Sys2Proof.Machine

/-! ### The port -/

/-- An access of a width that the port knows, at an offset aligned for it (00 R8). -/
theorem portAccess_write {fn : Fin 17} {off : Nat} {wide : Bool} (v : U64) {s : State} (ha : off % (if wide then 8 else 4) = 0) :
    portAccess fn off (if wide then 64 else 32) true v s = portWrite fn off wide v s := by
  cases wide
  · have ha : off % 4 = 0 := ha
    simp only [portAccess, ha, decide_true, Bool.false_eq_true, if_false, Bool.and_self, Bool.true_or, if_true, Nat.reduceEqDiff,
      decide_false]
  · have ha : off % 8 = 0 := ha
    simp only [portAccess, ha, decide_true, Bool.and_self, Bool.or_true, if_true]

theorem portAccess_read {fn : Fin 17} {off : Nat} {wide : Bool} (v : U64) {s : State} (ha : off % (if wide then 8 else 4) = 0) :
    portAccess fn off (if wide then 64 else 32) false v s = portRead fn off wide s := by
  cases wide
  · have ha : off % 4 = 0 := ha
    simp only [portAccess, ha, decide_true, Bool.false_eq_true, if_false, Bool.and_self, Bool.true_or, if_true, Nat.reduceEqDiff,
      decide_false]
  · have ha : off % 8 = 0 := ha
    simp only [portAccess, ha, decide_true, Bool.and_self, Bool.or_true, if_true, Bool.false_eq_true, if_false]

/-- An aligned write in the function's BAR reaches the port. -/
theorem writeCmd_port {fn : Fin 17} {off : Nat} {wide : Bool} (v : U64) {s : State} (hk : Known s) (hb : inBar fn off = true)
    (ha : off % (if wide then 8 else 4) = 0) : writeCmd fn off (if wide then 64 else 32) v s
      = .next (settle (portWrite fn off wide v (ungate (s.writeIslands (absOff fn off)) s))) := by
  rw [writeCmd_next fn off _ v s hk hb, portAccess_write v ha]

/-- A write for an island that resets waits for it, or is refused (17 R428). -/
theorem portWrite_resetting {fn : Fin 17} {off : Nat} {wide : Bool} {v : U64} {s : State} (hf : s.freezing = false)
    (hi : s.wdog.resetting.getLsbD (islandAt (absOff fn off)) = true) (hl : isLowHalf (absOff fn off) wide = false) :
    portWrite fn off wide v s =
      if (s.wdog.heldWrites.filter (fun x => x.island = islandAt (absOff fn off))).length < 64
      then onWdog (fun w => { w with heldWrites := w.heldWrites
        ++ [⟨fn, absOff fn off, wide, v, mget fn.val s.port.held, islandAt (absOff fn off)⟩] }) (discardLow fn.val s)
      else regRefused (absOff fn off) 17 (discardLow fn.val s) := by
  simp only [portWrite, hf, hi, hl, writeHeld, Bool.false_eq_true, if_false, if_true]
  rfl

/-- A write while the block is frozen (17 R429). -/
theorem portWrite_frozen {fn : Fin 17} {off : Nat} {wide : Bool} {v : U64} {s : State} (hf : s.freezing = true) :
    portWrite fn off wide v s = writeFrozen (absOff fn off) wide v (discardLow fn.val s) := by
  simp only [portWrite, hf, if_true]

/-- The upper of two registers that a 64-bit access reaches (17 R423). -/
theorem b2n_upper (off : Nat) (wide : Bool) :
    b2n (wide && (regAt (off + 4)).isSome) = if wide = true ∧ (regAt (off + 4)).isSome = true then 1 else 0 := by
  cases wide <;> cases (regAt (off + 4)).isSome <;> rfl

/-- Settles O25: the forms of a write at the port. -/
theorem registerWriteTaken : Obligations.RegisterWriteTaken := by
  refine ⟨fun fn off wide v r s h => ⟨writeCmd_reg fn off wide v r s h, rfl⟩, ?_, ?_⟩
  · intro fn off wide v s hk hf hb ha hi hl a i
    change writeCmd fn off (if wide then 64 else 32) v s = _
    rw [writeCmd_port v hk hb ha, portWrite_resetting (s := ungate _ s) hf hi hl]
    rfl
  · intro fn off wide v s hk hf hb ha a upper dropped u
    change writeCmd fn off (if wide then 64 else 32) v s = _
    rw [writeCmd_port v hk hb ha, portWrite_frozen (s := ungate _ s) hf, writeFrozen, b2n_upper]
    rfl

/-! ### Writes of one register -/

theorem word_of_setWidth (v : U32) : (v.setWidth 64).setWidth 32 = v := by
  rw [BitVec.setWidth_setWidth_of_le _ (by decide), BitVec.setWidth_eq]

theorem toNat_setWidth_word (v : U32) : (v.setWidth 64).toNat = v.toNat := by
  rw [BitVec.toNat_setWidth]
  exact Nat.mod_eq_of_lt (Nat.lt_trans v.isLt (by decide))

/-- A 32-bit write of a 32-bit register. -/
theorem writeCmd_word {fn : Fin 17} {off : Nat} {r : Reg} {s : State} (v : U32) (h : Writes fn off false r s) :
    writeCmd fn off 32 (v.setWidth 64) s = .next (settle (regWrite (v.setWidth 64) (written fn off s) r)) := by
  have hw := writeCmd_reg fn off false (v.setWidth 64) r s h
  simp only [Bool.false_eq_true, if_false, word_of_setWidth] at hw
  exact hw

/-- A 64-bit write of a 64-bit register. -/
theorem writeCmd_whole {fn : Fin 17} {off : Nat} {r : Reg} {s : State} (v : U64) (h : Writes fn off true r s) :
    writeCmd fn off 64 v s = .next (settle (regWrite v (written fn off s) r)) := writeCmd_reg fn off true v r s h

theorem settled_congr {t u : State} (e : t = u) : (.next (settle t) : Host.Outcome State Fault Refusal) = .next (settle u) := by
  rw [e]

/-! ### Doorbells -/

theorem exec_sqTail {a : Apt} {p : Fin 17} {v : U32} {s : State} (h : Writes (aptFn a) (aptOff a 0x20) false (.page p .sqTail) s) :
    exec (.sqTail a v) s = .next (settle (setSqTail p.val v (written (aptFn a) (aptOff a 0x20) s))) := by
  change writeCmd (aptFn a) (aptOff a 0x20) 32 (v.setWidth 64) s = _
  rw [writeCmd_word v h]
  change Host.Outcome.next (settle (setSqTail p.val ((v.setWidth 64).setWidth 32) _)) = _
  rw [word_of_setWidth]

theorem exec_cqHead {a : Apt} {p : Fin 17} {v : U32} {s : State} (h : Writes (aptFn a) (aptOff a 0x38) false (.page p .cqHead) s) :
    exec (.cqHead a v) s = .next (settle (setCqHead p.val v (written (aptFn a) (aptOff a 0x38) s))) := by
  change writeCmd (aptFn a) (aptOff a 0x38) 32 (v.setWidth 64) s = _
  rw [writeCmd_word v h]
  change Host.Outcome.next (settle (setCqHead p.val ((v.setWidth 64).setWidth 32) _)) = _
  rw [word_of_setWidth]

section
variable {p : Nat} {v : U32} {s : State}

/-- SQ_TAIL keeps what the block has begun to fetch (03 R66). -/
theorem setSqTail_taken (hn : v.toNat % 65536 < 2 ^ (s.page p).sqLog2.toNat)
    (hk : (s.page p).begun ≤ (v.toNat % 65536 + 2 ^ (s.page p).sqLog2.toNat - (s.page p).sqHead.toNat) % 2 ^ (s.page p).sqLog2.toNat) :
    setSqTail p v s = s.onPage p (fun g => { g with sqTail := BitVec.ofNat 16 (v.toNat % 65536) }) := by
  rw [setSqTail, if_neg (Nat.not_le.mpr hn), if_neg (Nat.not_lt.mpr hk)]

theorem setSqTail_range (hn : 2 ^ (s.page p).sqLog2.toNat ≤ v.toNat % 65536) : setSqTail p v s = pageError p 0x04 0x20 s := by
  rw [setSqTail, if_pos hn]

theorem setSqTail_back (hn : v.toNat % 65536 < 2 ^ (s.page p).sqLog2.toNat)
    (hk : ¬ (s.page p).begun ≤ (v.toNat % 65536 + 2 ^ (s.page p).sqLog2.toNat - (s.page p).sqHead.toNat) % 2 ^ (s.page p).sqLog2.toNat) :
    setSqTail p v s = pageError p 0x05 0x20 s := by
  rw [setSqTail, if_neg (Nat.not_le.mpr hn), if_pos (Nat.lt_of_not_le hk)]

/-- How far `n` lies ahead of CQ_HEAD (03 R70). -/
def aheadOfHead (g : Page) (n : Nat) : Nat := (n + 2 ^ g.cqLog2.toNat - g.cqHead.toNat) % 2 ^ g.cqLog2.toNat

theorem setCqHead_taken (hn : v.toNat % 65536 < 2 ^ (s.page p).cqLog2.toNat)
    (hk : aheadOfHead (s.page p) (v.toNat % 65536) ≤ aheadOfHead (s.page p) (s.page p).cqTail.toNat) :
    setCqHead p v s = drainOn p (s.onPage p (fun g => { g with cqHead := BitVec.ofNat 16 (v.toNat % 65536) })) := by
  unfold aheadOfHead at hk
  rw [setCqHead, if_neg (Nat.not_le.mpr hn), if_neg (Nat.not_lt.mpr hk)]

theorem setCqHead_range (hn : 2 ^ (s.page p).cqLog2.toNat ≤ v.toNat % 65536) : setCqHead p v s = pageError p 0x04 0x38 s := by
  rw [setCqHead, if_pos hn]

theorem setCqHead_back (hn : v.toNat % 65536 < 2 ^ (s.page p).cqLog2.toNat)
    (hk : ¬ aheadOfHead (s.page p) (v.toNat % 65536) ≤ aheadOfHead (s.page p) (s.page p).cqTail.toNat) :
    setCqHead p v s = pageError p 0x05 0x38 s := by
  unfold aheadOfHead at hk
  rw [setCqHead, if_neg (Nat.not_le.mpr hn), if_pos (Nat.lt_of_not_le hk)]

end

/-- Settles O26: the checks of each doorbell, on pages that the port leaves as they are. -/
theorem doorbellsTaken : Obligations.DoorbellsTaken := by
  intro a p v s w g n
  constructor
  · intro h size kept
    exact ⟨fun hn hkept => (exec_sqTail h).trans (settled_congr (setSqTail_taken (s := w 0x20) hn hkept)),
      fun hn => (exec_sqTail h).trans (settled_congr (setSqTail_range (s := w 0x20) hn)),
      fun hn hkept => (exec_sqTail h).trans (settled_congr (setSqTail_back (s := w 0x20) hn hkept))⟩
  · intro h size kept
    exact ⟨fun hn hkept => (exec_cqHead h).trans (settled_congr (setCqHead_taken (s := w 0x38) hn hkept)),
      fun hn => (exec_cqHead h).trans (settled_congr (setCqHead_range (s := w 0x38) hn)),
      fun hn hkept => (exec_cqHead h).trans (settled_congr (setCqHead_back (s := w 0x38) hn hkept))⟩

/-! ### Rings -/

theorem onPage_onPage (s : State) (p : Nat) (f g : Page → Page) : (s.onPage p f).onPage p g = s.onPage p (g ∘ f) := by
  simp only [State.onPage, lupd_lupd]

theorem lupd_congr_at {α : Type} {p : Nat} {f g : α → α} {l : List α} (d : α) (h : f (l.getD p d) = g (l.getD p d)) :
    lupd p f l = lupd p g l := by
  induction l generalizing p with
  | nil => simp [lupd]
  | cons a r ih =>
    cases p with
    | zero => exact congrArg (· :: r) h
    | succ p => exact congrArg (a :: ·) (ih h)

/-- An update of a page depends on what it makes of that page alone. -/
theorem onPage_congr {s : State} {p : Nat} {f g : Page → Page} (h : f (s.page p) = g (s.page p)) : s.onPage p f = s.onPage p g := by
  rw [State.onPage, lupd_congr_at {} h]
  rfl

/-- What a write of RING_CTRL makes of its page (03 R62, R66). -/
def ringCtrlOn (v : U32) (g : Page) : Page :=
  let sq := v.getLsbD 0 && !g.sqEn
  let cq := v.getLsbD 1 && !g.cqEn
  { g with
    sqEn := v.getLsbD 0
    cqEn := v.getLsbD 1
    faultStop := g.faultStop && !v.getLsbD 2
    sqHead := if sq then 0 else g.sqHead
    sqTail := if sq then 0 else g.sqTail
    begun := if sq then 0 else g.begun
    ring := if sq && g.sqHead ≠ 0 then [] else g.ring
    cqHead := if cq then 0 else g.cqHead
    cqTail := if cq then 0 else g.cqTail
    phase := cq || g.phase }

theorem setRingCtrl_eq (p : Nat) (v : U32) (s : State) : setRingCtrl p v s = drainOn p (s.onPage p (ringCtrlOn v)) := by
  unfold setRingCtrl
  dsimp only
  by_cases hsq : (v.getLsbD 0 && !(s.page p).sqEn) = true <;> by_cases hcq : (v.getLsbD 1 && !(s.page p).cqEn) = true
  all_goals
    simp only [hsq, hcq, if_true, Bool.false_eq_true, if_false, onPage_onPage]
    refine congrArg (drainOn p) (onPage_congr ?_)
    simp only [Function.comp_apply, ringCtrlOn, hsq, hcq, if_true, Bool.false_eq_true, if_false, Bool.true_and, Bool.false_and,
      Bool.true_or, Bool.false_or, decide_not, Bool.not_eq_true', decide_eq_false_iff_not, ite_not]

/-- What GO with its IRQ bit writes, as the register takes it (03 R71). -/
theorem goBits (irq : Bool) : let v := (((BitVec.ofNat 64 (1 + 2 * b2n irq)).setWidth 32).setWidth 64).setWidth 32
    v.getLsbD 0 = true ∧ v.getLsbD 1 = irq := by
  cases irq <;> decide

theorem setUrgGo_eq (p : Fin 17) (u : Fin 8) {v : U32} {irq : Bool} (s : State) (hgo : v.getLsbD 0 = true) (hirq : v.getLsbD 1 = irq) :
    setUrgGo p u v s = if (s.urg p.val u.val).busy then pageError p.val 0x06 (0x100 + u.val * 0x80 + 0x40) s
      else urgStart p.val u.val (urgMsg p u irq (s.urg p.val u.val).msg) s := by
  simp only [setUrgGo, hgo, hirq, Bool.not_true, Bool.false_eq_true, if_false]

theorem sizeOut_iff (k : Nat) : (decide (k < 6) || decide (16 < k)) = true ↔ k < 6 ∨ 16 < k := by
  simp only [Bool.or_eq_true, decide_eq_true_eq]

/-- Settles O27: RING_CTRL, the ring configuration and GO. -/
theorem pageRegisters : Obligations.PageRegisters := by
  refine ⟨?_, ?_, ?_⟩
  · intro a p v s h hp on
    refine ⟨?_, rfl⟩
    change writeCmd (aptFn a) (aptOff a 0x08) 32 (v.setWidth 64) s = _
    rw [writeCmd_word v h]
    change Host.Outcome.next (settle (setRingCtrl p.val ((v.setWidth 64).setWidth 32) _)) = _
    rw [word_of_setWidth, setRingCtrl_eq]
    rfl
  · intro a p v s w g k
    have hk : ((v.setWidth 32).setWidth 64).toNat % 32 = k := by
      rw [BitVec.toNat_setWidth, BitVec.toNat_setWidth]
      omega
    refine ⟨fun h => ?_, fun h => ?_, fun h => ?_, fun h => ?_⟩
    · change writeCmd (aptFn a) (aptOff a 0x10) 64 v s = _
      rw [writeCmd_whole v h]
      rfl
    · change writeCmd (aptFn a) (aptOff a 0x28) 64 v s = _
      rw [writeCmd_whole v h]
      rfl
    · refine (writeCmd_reg _ _ false v _ s h).trans ?_
      change Host.Outcome.next (settle (setRingCfg p.val .sqCfg ((v.setWidth 32).setWidth 64) _)) = _
      simp only [setRingCfg, hk, sizeOut_iff]
      rfl
    · refine (writeCmd_reg _ _ false v _ s h).trans ?_
      change Host.Outcome.next (settle (setRingCfg p.val .cqCfg ((v.setWidth 32).setWidth 64) _)) = _
      simp only [setRingCfg, hk, sizeOut_iff]
      rfl
  · intro a p u irq s h w
    obtain ⟨hgo, hirq⟩ := goBits irq
    refine (writeCmd_reg _ _ false _ _ s h).trans (settled_congr ?_)
    exact setUrgGo_eq p u w hgo hirq

/-! ### Limits -/

section
variable (s : State)

theorem setPwr_eq (v : U32) : setPwr v s =
    let m := v.toNat % 4096
    let k := v.toNat / 65536 % 256
    let t := onPwr (fun x =>
      { x with
        module := if 300 ≤ m ∧ m ≤ 2400 then BitVec.ofNat 12 m else x.module
        stack := if 10 ≤ k ∧ k ≤ 150 then BitVec.ofNat 8 k else x.stack }) s
    if (300 ≤ m ∧ m ≤ 2400) ∧ 10 ≤ k ∧ k ≤ 150 then t else regRefused 0x5000 15 t := by
  simp only [setPwr, Bool.and_eq_true, decide_eq_true_eq]

theorem setTherm_eq (v : U64) : setTherm v s =
    let d := v.toNat % 4096
    let k := v.toNat / 65536 % 4096
    let h := v.toNat / 2 ^ 32 % 256
    let t := onPwr (fun x =>
      { x with
        die := if 640 ≤ d ∧ d ≤ 2000 then BitVec.ofNat 12 d else x.die
        stackT := if 640 ≤ k ∧ k ≤ 2000 then BitVec.ofNat 12 k else x.stackT
        hyst := if h ≠ 0 then BitVec.ofNat 8 h else x.hyst }) s
    if (640 ≤ d ∧ d ≤ 2000) ∧ (640 ≤ k ∧ k ≤ 2000) ∧ h ≠ 0 then t else regRefused 0x5008 15 t := by
  simp only [setTherm, Bool.and_eq_true, decide_eq_true_eq, and_assoc]

theorem setWdogLimit_eq (v : U32) : setWdogLimit v s =
    if 10000 ≤ v.toNat ∧ v.toNat ≤ 10000000 then onWdog (fun x => { x with limit := v }) s else regRefused 0x3000 0 s := by
  by_cases h : 10000 ≤ v.toNat ∧ v.toNat ≤ 10000000
  · rw [if_pos h, setWdogLimit, if_neg (by simp only [Bool.or_eq_true, decide_eq_true_eq]; omega)]
  · rw [if_neg h, setWdogLimit, if_pos (by simp only [Bool.or_eq_true, decide_eq_true_eq]; omega)]

end

/-- Settles O28: the field ranges of each limit register. -/
theorem limitsTaken : Obligations.LimitsTaken := by
  intro s w
  refine ⟨fun v h => ?_, fun v h => ?_, fun v h => ?_⟩
  · intro m k t
    change writeCmd pf 0x5000 32 (v.setWidth 64) s = _
    rw [writeCmd_word v h]
    refine settled_congr ?_
    change setPwr ((v.setWidth 64).setWidth 32) (w 0x5000) = _
    rw [word_of_setWidth, setPwr_eq]
  · intro d k n t
    change writeCmd pf 0x5008 64 v s = _
    rw [writeCmd_whole v h]
    exact settled_congr (setTherm_eq (w 0x5008) v)
  · change writeCmd pf 0x3000 32 (v.setWidth 64) s = _
    rw [writeCmd_word v h]
    refine settled_congr ?_
    change setWdogLimit ((v.setWidth 64).setWidth 32) (w 0x3000) = _
    rw [word_of_setWidth, setWdogLimit_eq]

end Sys2Proof.Machine
end

section
/-! SUPPORT. Register writes, and the proofs of O29, O30 and O31: the arbiters, the configuration registers and the paired registers
(07 R200; 12 R318 to R329; 13 R351, R354, R355; 16 R400; 17 R421, R425). -/

namespace Sys2Proof.Machine

/-! ### Arbiters -/

section
variable {i : Nat} {s : State}

theorem setQuota_debug (k v : Nat) (h : (s.arb i).debug ≤ k) : setQuota i k v s = s := by
  refine if_pos ?_
  simp only [Bool.or_eq_true, decide_eq_true_eq]
  simp only [Arb.debug] at h ⊢
  omega

theorem setQuota_native (k v : Nat) (h : k < (s.arb i).debug) : setQuota i k v s =
    if v / 2 ^ 15 % 2 = 1 ∧ v % 256 = 0 then regRefused (arbBase i + 0xA0 + 4 * k) (arbIsland i) s
    else onArb i (fun a => a.onInp k (fun x => { x with quota := BitVec.ofNat 16 (v / 2 ^ 15 % 2 * 2 ^ 15 + v % 256) })) s := by
  have hnative : ¬ (decide ((s.arb i).inputs ≤ k) || decide (k = (s.arb i).debug)) = true := by
    simp only [Bool.or_eq_true, decide_eq_true_eq]
    simp only [Arb.debug] at h ⊢
    omega
  rw [setQuota, if_neg hnative]
  simp only [Bool.and_eq_true, decide_eq_true_eq]

theorem prioCommit_accepted (h : (s.arb i).mapOk = true) : prioCommit i s = onArb i (fun a => { a with active := a.shadow }) s :=
  if_pos h

theorem prioCommit_rejected (h : (s.arb i).mapOk = false) : prioCommit i s =
    logErr { code := 0x16, island := arbIsland i, addr := arbBase i + 0x20 } (onArb i (fun a => { a with reject := true }) s) :=
  if_neg (Bool.eq_false_iff.mp h)

theorem setDepth_egress (v : Nat) : setDepth 0 v s =
    if 1 ≤ v % 8 ∧ v % 8 ≤ 4 then onArb 0 (fun a => { a with depth := BitVec.ofNat 3 (v % 8) }) s else s := by
  simp only [setDepth, decide_true, Bool.true_and, Bool.and_eq_true, decide_eq_true_eq]

end

/-- Settles O29: the registers of an arbiter, on arbiters that the port leaves as they are. -/
theorem arbiterRegisters : Obligations.ArbiterRegisters := by
  intro inst s w a base
  refine ⟨fun v h => ?_, fun i v h hi => ?_, fun i v h hi => ?_, fun h => ?_, fun h => ⟨fun hm => ?_, fun hm => ?_⟩, fun v h => ?_⟩
  · change writeCmd pf (base + 0x08) 32 (v.setWidth 64) s = _
    rw [writeCmd_word v h]
    refine settled_congr ?_
    change setWindow inst.val (v.setWidth 64).toNat (w (base + 0x08)) = _
    rw [toNat_setWidth_word, setWindow]
  · intro high n
    change writeCmd pf (base + 0xA0 + 4 * i.val) 32 (v.setWidth 64) s = _
    rw [writeCmd_word v h]
    refine settled_congr ?_
    change setQuota inst.val i.val (v.setWidth 64).toNat (w (base + 0xA0 + 4 * i.val)) = _
    rw [toNat_setWidth_word, setQuota_native i.val v.toNat (s := w _) hi]
  · change writeCmd pf (base + 0xA0 + 4 * i.val) 32 (v.setWidth 64) s = _
    rw [writeCmd_word v h]
    exact settled_congr (setQuota_debug i.val _ (s := w _) hi)
  · change writeCmd pf (base + 0x18) 32 (BitVec.setWidth 64 (1 : U32)) s = _
    rw [writeCmd_word 1 h]
    rfl
  · change writeCmd pf (base + 0x20) 32 (BitVec.setWidth 64 (1 : U32)) s = _
    rw [writeCmd_word 1 h]
    exact settled_congr (prioCommit_accepted (s := w (base + 0x20)) hm)
  · change writeCmd pf (base + 0x20) 32 (BitVec.setWidth 64 (1 : U32)) s = _
    rw [writeCmd_word 1 h]
    exact settled_congr (prioCommit_rejected (s := w (base + 0x20)) hm)
  · change writeCmd pf 0x4040 32 (v.setWidth 64) s = _
    rw [writeCmd_word v h]
    refine settled_congr ?_
    change setDepth 0 (v.setWidth 64).toNat (w 0x4040) = _
    rw [toNat_setWidth_word, setDepth_egress]

/-! ### Configuration registers -/

section
variable {v : U64} {s : State}

/-- The fields of TETHER_CTRL beside EN (13 R354). -/
def tetherFields (v : U64) (t : Teth) : Teth :=
  { t with
    lossUs := if v.extractLsb' 8 16 = 0 then t.lossUs else v.extractLsb' 8 16
    holdLimit := v.extractLsb' 24 8
    model := v.extractLsb' 32 5 }

theorem setTetherCtrl_off (hen : v.getLsbD 0 = false) : setTetherCtrl v s = onTeth (fun t =>
    { tetherFields v t with
      en := false
      lock := false
      formed := false
      held := false
      ours := false
      own := [] }) { s with out := { s.out with tetherEn := false } } :=
  if_neg (Bool.eq_false_iff.mp hen)

theorem setTetherCtrl_again (hen : v.getLsbD 0 = true) (hon : s.teth.en = true) :
    setTetherCtrl v s = onTeth (tetherFields v) s :=
  (if_pos hen).trans (if_pos hon)

/-- The group's index and sampler name members of it (13 R355). -/
def GroupLegal (s : State) : Prop := s.teth.index.toNat ≤ s.teth.sizeM1.toNat ∧ s.teth.sampler.toNat ≤ s.teth.sizeM1.toNat

theorem groupIllegal_iff (s : State) : (decide (s.teth.sizeM1.toNat < s.teth.index.toNat)
    || decide (s.teth.sizeM1.toNat < s.teth.sampler.toNat)) = true ↔ ¬ GroupLegal s := by
  simp only [Bool.or_eq_true, decide_eq_true_eq, GroupLegal]
  omega

theorem setTetherCtrl_illegal (hen : v.getLsbD 0 = true) (hoff : s.teth.en = false) (hl : ¬ GroupLegal s) :
    setTetherCtrl v s = regRefused 0x7000 16 (onTeth (tetherFields v) s) :=
  (if_pos hen).trans ((if_neg (Bool.eq_false_iff.mp hoff)).trans (if_pos ((groupIllegal_iff s).mpr hl)))

theorem setTetherCtrl_on (hen : v.getLsbD 0 = true) (hoff : s.teth.en = false) (hl : GroupLegal s) :
    setTetherCtrl v s = tetherOn (onTeth (fun t => { tetherFields v t with en := true }) s) :=
  (if_pos hen).trans ((if_neg (Bool.eq_false_iff.mp hoff)).trans (if_neg (mt (groupIllegal_iff s).mp (not_not_intro hl))))

/-- The port asserts TETHER_EN in READY, in a group of two or more (13 R351). -/
theorem tetherOn_alone (h : s.teth.sizeM1 = 0 ∨ s.ctl.phase ≠ .ready) : tetherOn s = s := by
  refine if_neg ?_
  simp only [State.grouped, Bool.and_eq_true, decide_eq_true_eq]
  rintro ⟨⟨-, hsize⟩, hready⟩
  exact h.elim hsize (· hready)

theorem tetherOn_grouped (hen : s.teth.en = true) (hsize : s.teth.sizeM1 ≠ 0) (hready : s.ctl.phase = .ready) :
    let lit := { s with out := { s.out with tetherEn := true } }
    tetherOn s = if s.teth.formed then holdGroup 3 lit else if lit.leader then callRoll lit else lit := by
  refine if_pos ?_
  simp only [State.grouped, Bool.and_eq_true, decide_eq_true_eq]
  exact ⟨⟨hen, hsize⟩, hready⟩

theorem setTier_busy {r : TierReg} (h : s.tierIdle r = false) : setTier r v s = regRefused (tierOff r) 12 s :=
  if_pos (by rw [h]; rfl)

/-- A tier register's value in the cold frame (07 R200). -/
def tierSet (v : U64) (x : Plots) : TierReg → Plots
  | .poolBase => { x with poolBase := v.extractLsb' 16 48 }
  | .poolSize => { x with poolSize := v.extractLsb' 0 32 }
  | .hostBase t => { x with hostBase := mput t.val (v.extractLsb' 16 48) x.hostBase }
  | .hostSize t => { x with hostSize := mput t.val (v.extractLsb' 0 32) x.hostSize }

theorem setTier_idle {r : TierReg} (h : s.tierIdle r = true) : setTier r v s = { s with plots := tierSet v s.plots r } := by
  rw [setTier, if_neg (by rw [h]; decide)]
  cases r <;> rfl

end

/-- What LOAD writes to FW_CTRL: the length, and the bit that starts (16 R400). -/
theorem loadBits (len : BitVec 23) : let v := (((BitVec.ofNat 64 (2 ^ 31 + len.toNat)).setWidth 32).setWidth 64).setWidth 32
    v.setWidth 23 = len ∧ v.getLsbD 31 = true := by
  intro v
  have hlen := len.isLt
  have hv : v = BitVec.ofNat 32 (2 ^ 31 + len.toNat) := by
    refine BitVec.eq_of_toNat_eq ?_
    simp only [v, BitVec.toNat_setWidth, BitVec.toNat_ofNat]
    omega
  rw [hv]
  constructor
  · refine BitVec.eq_of_toNat_eq ?_
    simp only [BitVec.toNat_setWidth, BitVec.toNat_ofNat]
    omega
  · rw [BitVec.getLsbD_ofNat, Nat.testBit_two_pow_add_eq, Nat.testBit_lt_two_pow (by omega)]
    decide

theorem fwCtrl_load {v : U32} {len : BitVec 23} (s : State) (hlen : v.setWidth 23 = len) (hload : v.getLsbD 31 = true) : fwCtrl v s =
    let w := onCtl (fun c => { c with fwLen := len }) s
    if s.ctl.phase = .bootWait ∨ s.ctl.phase = .failed then setPhase .verifying (onCtl (fun c => { c with fwErr := 0 }) w)
    else regRefused 0x8008 0 w := by
  simp only [fwCtrl, hlen, hload, Bool.not_true, Bool.false_eq_true, if_false, Bool.or_eq_true, decide_eq_true_eq]
  rfl

/-- Settles O30: each register's own operation, on the state that the port leaves. -/
theorem configRegisters : Obligations.ConfigRegisters := by
  refine ⟨?_, ?_, ?_, ?_⟩
  · intro v s w
    refine ⟨fun r h => ⟨fun hi => ?_, fun hi => ?_⟩, fun h => ?_, fun h => ?_⟩
    · change writeCmd pf (tierOff r) 64 v s = _
      rw [writeCmd_whole v h]
      exact settled_congr (setTier_busy (s := w (tierOff r)) hi)
    · change writeCmd pf (tierOff r) 64 v s = _
      rw [writeCmd_whole v h]
      refine settled_congr ((setTier_idle (s := w (tierOff r)) hi).trans ?_)
      cases r <;> rfl
    · change writeCmd pf 0x7010 64 v s = _
      rw [writeCmd_whole v h]
      rfl
    · change writeCmd pf 0x7018 64 v s = _
      rw [writeCmd_whole v h]
      rfl
  · intro v s h w loss set
    have hexec : exec (.tetherCtrlEn v) s = .next (settle (setTetherCtrl v w)) := by
      change writeCmd pf 0x7000 64 v s = _
      rw [writeCmd_whole v h]
      rfl
    refine ⟨fun hen => ?_, fun hen hon => ?_, ?_⟩
    · exact hexec.trans (settled_congr (setTetherCtrl_off hen))
    · exact hexec.trans (settled_congr (setTetherCtrl_again (s := w) hen hon))
    · intro hen hoff legal on lit
      refine ⟨fun hl => ?_, fun hl halone => ?_, fun hl hsize hready => ?_⟩
      · exact hexec.trans (settled_congr (setTetherCtrl_illegal (s := w) hen hoff hl))
      · exact hexec.trans (settled_congr ((setTetherCtrl_on (s := w) hen hoff hl).trans (tetherOn_alone (s := on) halone)))
      · exact hexec.trans (settled_congr ((setTetherCtrl_on (s := w) hen hoff hl).trans
          (tetherOn_grouped (s := on) rfl hsize hready)))
  · intro len s h w
    obtain ⟨hlen, hload⟩ := loadBits len
    change writeCmd pf 0x8008 32 (BitVec.ofNat 64 (2 ^ 31 + len.toNat)) s = _
    rw [show writeCmd pf 0x8008 32 _ s = _ from writeCmd_reg pf 0x8008 false _ _ s h]
    exact settled_congr (fwCtrl_load _ hlen hload)
  · intro v s h w
    change writeCmd pf 0x6020 32 (v.setWidth 64) s = _
    rw [writeCmd_word v h]
    refine settled_congr ?_
    change setTraceTail ((v.setWidth 64).setWidth 32) w = _
    rw [word_of_setWidth]
    rfl

end Sys2Proof.Machine
end

section
/-! SUPPORT. Halves of registers, reads, refused accesses and closed pages, and the proofs of O31 and O33 to O36 (00 R8; 03 R60; 17 R423 to
R429). -/

namespace Sys2Proof.Machine

/-! ### Halves of paired registers -/

theorem islandAt_of_locate {off base : Nat} {r : Reg} {hi : Bool} (hl : locate off = some (r, base, hi)) : islandAt off = r.island := by
  simp only [islandAt, hl]

theorem wide_of_paired {r : Reg} (h : r.paired = true) : r.wide = true := by
  cases r with
  | page p q => cases q <;> first | (cases h; done) | rfl
  | tier q => rfl
  | fwImgAddr => rfl
  | _ => cases h

/-- The port leaves the paired registers as they are. -/
theorem regVal_written {r : Reg} (h : r.paired = true) (fn : Fin 17) (off : Nat) (s : State) : regVal (written fn off s) r = regVal s r := by
  cases r with
  | page p q => cases q <;> first | (cases h; done) | rfl
  | tier q => cases q <;> rfl
  | fwImgAddr => rfl
  | _ => cases h

theorem closedAt_none {off : Nat} {s : State} (h : ∀ p, pageAt off = some p → (s.page p).isOpen = true) : s.closedAt off = none := by
  unfold State.closedAt
  split
  · next p hp => exact if_pos (h p hp)
  · rfl

theorem closedAt_some {off p : Nat} {s : State} (hp : pageAt off = some p) (h : (s.page p).isOpen = false) : s.closedAt off = some p := by
  simp only [State.closedAt, hp, h, Bool.false_eq_true, if_false]

/-- A write that neither a freeze nor a resetting island holds back (17 R425). -/
theorem portWrite_now {fn : Fin 17} {off : Nat} {wide : Bool} {v : U64} {s : State} (hf : s.freezing = false)
    (hi : s.wdog.resetting.getLsbD (islandAt (absOff fn off)) = false) : portWrite fn off wide v s
      = writeWith fn.val (absOff fn off) wide v (mget fn.val s.port.held) (discardLow fn.val s) := by
  simp only [portWrite, hf, hi, Bool.false_eq_true, if_false]
  rfl

/-- The low half that goes with a write of the high half: the one held, or the current one (17 R425). -/
def lowHalf (base : Nat) (low : Option (Nat × U32)) (current : Nat) : Nat :=
  match low with
  | some (b, w) => if b = base then w.toNat else current % 2 ^ 32
  | none => current % 2 ^ 32

/-- A 32-bit write of half a paired register of an open page or of none (17 R425). -/
theorem writeWith_paired {fn off base : Nat} {hi : Bool} {r : Reg} {v : U64} {low : Option (Nat × U32)} {s : State} (hp : r.paired = true)
    (hl : locate off = some (r, base, hi)) (ho : ∀ p, pageAt off = some p → (s.page p).isOpen = true) :
    writeWith fn off false v low s =
      if hi then regWrite (BitVec.ofNat 64 ((v.setWidth 32).toNat * 2 ^ 32 + lowHalf base low (regVal s r))) s r
      else setPort (fun q => { q with held := mput fn (base, v.setWidth 32) q.held }) s := by
  simp only [writeWith, closedAt_none ho, Bool.not_false, if_true, write32, hl, hp, wide_of_paired hp, Bool.not_true, Bool.false_eq_true,
    if_false]
  rfl

/-- Settles O31: a paired register's halves at the port, which leaves the register's own value. -/
theorem pairedWrites : Obligations.PairedWrites := by
  intro fn off base hi v r s hp hl ha hb hk hf hreset ho low
  change writeCmd fn off (if false = true then 64 else 32) (v.setWidth 64) s = _
  have hreset' : (ungate (s.writeIslands (absOff fn off)) s).wdog.resetting.getLsbD (islandAt (absOff fn off)) = false := by
    rw [islandAt_of_locate hl]
    exact hreset
  rw [writeCmd_port (wide := false) _ hk hb ha, portWrite_now (s := ungate _ s) hf hreset',
    writeWith_paired (s := discardLow _ (ungate _ s)) hp hl ho, word_of_setWidth,
    show regVal (discardLow fn.val (ungate _ s)) r = regVal s r from regVal_written hp fn off s]
  rfl

/-! ### Reads -/

/-- An aligned read in the function's BAR reaches the port. -/
theorem readCmd_port {fn : Fin 17} {off : Nat} {wide : Bool} {s : State} (hk : Known s) (hb : inBar fn off = true)
    (ha : off % (if wide then 8 else 4) = 0) : readCmd fn off (if wide then 64 else 32) s
      = .next (portRead fn off wide (ungate [islandAt (absOff fn off)] s)) := by
  rw [readCmd_next fn off _ s hk hb, portAccess_read 0 ha]

/-- A read of a register's own width at the port, its function's latch discarded (17 R423, R424). -/
def portValue (r : Reg) (s : State) : State :=
  if r.wide then answer (s.portVal r) (s.portClear true true r) else answer (readWord r s).1 (readWord r s).2

theorem portRead_reg {fn : Fin 17} {off : Nat} {wide : Bool} {r : Reg} {s : State} (hr : regAt (absOff fn off) = some r)
    (hw : r.wide = wide) : portRead fn off wide s = portValue r (setPort (fun q => { q with latch := mdel fn.val q.latch }) s) := by
  subst hw
  unfold portValue portRead
  cases h : r.wide
  · simp only [Bool.false_eq_true, if_false, read32, locate_of_regAt hr, h, Bool.not_false, if_true]
  · simp only [if_true, read64, hr, h]

/-- A read of a register's own width. -/
theorem readCmd_reg {fn : Fin 17} {off : Nat} {wide : Bool} {r : Reg} {s : State} (hk : Known s) (hb : inBar fn off = true)
    (ha : off % (if wide then 8 else 4) = 0) (hr : regAt (absOff fn off) = some r) (hw : r.wide = wide) :
    readCmd fn off (if wide then 64 else 32) s = .next (portValue r (readBy fn r s)) := by
  rw [readCmd_port hk hb ha, portRead_reg hr hw, islandAt_of_regAt hr]
  rfl

section
variable {r : Reg} {s : State}

/-- A register that the freeze responder does not answer (17 R429). -/
theorem portValue_frozen (hf : s.freezing = true) (hr : r.answered = false) : portValue r s = answer 0 s := by
  have hlcc : r ≠ .lccLo := by rintro rfl; cases hr
  simp only [portValue, readWord, State.portVal, State.portClear, hf, hr, hlcc, Bool.not_false, Bool.and_self, if_true, if_false, ite_self]

theorem portValue_live (hf : s.freezing = false) (hr : r ≠ .lccLo) : portValue r s = answer (regVal s r) (regClear true true s r) := by
  simp only [portValue, readWord, State.portVal, State.portClear, hf, hr, Bool.false_and, Bool.false_eq_true, if_false, ite_self]

end

/-- A 32-bit read of the low half of a 64-bit register (17 R424). -/
theorem read32_low {fn off : Nat} {r : Reg} {s : State} (hf : s.freezing = false) (hr : regAt off = some r) (hw : r.wide = true) :
    let u := setPort (fun q => { q with latch := mdel fn q.latch }) s
    read32 fn off s = answer (regVal u r % 2 ^ 32) (setPort (fun q =>
      { q with latch := mput fn (off, BitVec.ofNat 32 (regVal u r / 2 ^ 32)) q.latch }) (regClear true true u r)) := by
  simp only [read32, locate_of_regAt hr, hw, Bool.not_true, Bool.false_eq_true, if_false, State.portVal, State.portClear]
  simp only [show (setPort (fun q => { q with latch := mdel fn q.latch }) s).freezing = false from hf, Bool.false_and, Bool.false_eq_true,
    if_false]

theorem wide_of_locate_high {off base : Nat} {r : Reg} (hl : locate off = some (r, base, true)) : r.wide = true := by
  simp only [locate] at hl
  repeat' split at hl
  all_goals first | (cases hl; done) | skip
  next hw => cases hl; exact hw

/-- A 32-bit read of a high half that its function has latched (17 R424). -/
theorem read32_latched {fn off base : Nat} {r : Reg} {w : U32} {s : State} (hf : s.freezing = false)
    (hl : locate off = some (r, base, true)) (hlatch : mget fn s.port.latch = some (base, w)) :
    read32 fn off s = answer w.toNat (setPort (fun q => { q with latch := mdel fn q.latch }) s) := by
  simp only [read32, hlatch, hl, wide_of_locate_high hl, Bool.not_true, Bool.false_eq_true, if_false, if_true]
  simp only [show (setPort (fun q => { q with latch := mdel fn q.latch }) s).freezing = false from hf, Bool.false_and, Bool.false_eq_true,
    if_false]

/-- Settles O33: the forms of a read at the port. -/
theorem readsClearAndLatch : Obligations.ReadsClearAndLatch := by
  refine ⟨?_, ?_, ?_, ?_, ?_⟩
  · intro fn off wide r s hk hf hb ha hr hw hans
    change readCmd fn off (if wide then 64 else 32) s = _
    rw [readCmd_reg hk hb ha hr hw, portValue_frozen (s := readBy fn r s) hf hans]
  · intro fn off wide r s ⟨hk, hf, hb, ha, hr, hw⟩ hlcc
    change readCmd fn off (if wide then 64 else 32) s = _
    rw [readCmd_reg hk hb ha hr hw, portValue_live (s := readBy fn r s) hf hlcc]
  · intro fn off r s ⟨hk, hf, hb, ha, hr, hw⟩ u
    have ha : off % 8 = 0 := ha
    change readCmd fn off (if false = true then 64 else 32) s = _
    rw [readCmd_port (wide := false) hk hb (by change off % 4 = 0; omega), islandAt_of_regAt hr]
    exact congrArg _ (read32_low (s := ungate _ s) hf hr hw)
  · intro fn off base r w s hk hf hb ha hl hlatch
    change readCmd fn off (if false = true then 64 else 32) s = _
    rw [readCmd_port (wide := false) hk hb ha, islandAt_of_locate hl]
    exact congrArg _ (read32_latched (s := ungate _ s) hf hl hlatch)
  · intro s hk hf u
    change readCmd pf 0x8700 (if true = true then 64 else 32) s = _
    rw [readCmd_reg (wide := true) (r := .ghEvent) hk (by decide) (by decide) (by decide) rfl,
      portValue_live (s := readBy pf .ghEvent s) hf (by decide)]
    rfl

/-! ### What a read leaves -/

/-- What a read leaves as it was: of a page, all but its error count. -/
def ReadKeeps (t s : State) : Prop :=
  t.reqs = s.reqs ∧ t.gens = s.gens ∧ t.tens = s.tens ∧ t.sow = s.sow ∧ t.disp = s.disp ∧ t.plots = s.plots
    ∧ t.elog = s.elog ∧ t.out = s.out ∧ t.seed.nodes = s.seed.nodes ∧ t.gh.slots = s.gh.slots ∧ t.gh.grafts = s.gh.grafts
    ∧ ∀ p, t.page p = { s.page p with errCount := (t.page p).errCount }

theorem ReadKeeps.rfl' (s : State) : ReadKeeps s s := ⟨rfl, rfl, rfl, rfl, rfl, rfl, rfl, rfl, rfl, rfl, rfl, fun _ => rfl⟩

theorem ReadKeeps.trans {a b c : State} (h : ReadKeeps a b) (k : ReadKeeps b c) : ReadKeeps a c := by
  obtain ⟨h1, h2, h3, h4, h5, h6, h7, h8, h9, h10, h11, hp⟩ := h
  obtain ⟨k1, k2, k3, k4, k5, k6, k7, k8, k9, k10, k11, kp⟩ := k
  refine ⟨h1.trans k1, h2.trans k2, h3.trans k3, h4.trans k4, h5.trans k5, h6.trans k6, h7.trans k7, h8.trans k8, h9.trans k9,
    h10.trans k10, h11.trans k11, fun p => ?_⟩
  rw [hp p, kp p]

theorem ReadKeeps.ite {c : Prop} [Decidable c] {a b s : State} (h : ReadKeeps a s) (k : ReadKeeps b s) : ReadKeeps (if c then a else b) s := by
  split
  · exact h
  · exact k

theorem readKeeps_clearErrCount (p : Nat) (s : State) : ReadKeeps (s.onPage p (fun g => { g with errCount := 0 })) s := by
  refine ⟨rfl, rfl, rfl, rfl, rfl, rfl, rfl, rfl, rfl, rfl, rfl, fun q => ?_⟩
  rw [page_onPage_cases]
  split <;> rfl

/-- The fields that a read clears are counters and events, and a page's error count (17 R424). -/
theorem readKeeps_regClear (lo hi : Bool) (s : State) (r : Reg) : ReadKeeps (regClear lo hi s r) s := by
  have same {t : State} (h : ReadKeeps t s) (c : Bool) : ReadKeeps (if c then t else s) s := .ite h (.rfl' s)
  cases r with
  | page p q =>
    cases q with
    | errInfo => exact same (readKeeps_clearErrCount p.val s) _
    | _ => exact .rfl' s
  | arb i q =>
    cases q with
    | hintBroken => exact same (t := _) (by exact .rfl' s) lo
    | revokes => exact same (t := _) (by exact .rfl' s) lo
    | _ => exact .rfl' s
  | dlActions => exact .rfl' s
  | wdogStatus | gdnWdog | sampleStatus | freezeStatus | tetherStatus => exact same (t := _) (by exact .rfl' s) hi
  | islandResets | droopSeen | traceDropped | seedCollide | seedFull | ghEvent | prunerNan | prunerStray | prunerMalformed | prunerSkip
  | sampleTrunc | sampleEmpty | guessMissing | guessBad | spoolTailBad => exact same (t := _) (by exact .rfl' s) lo
  | _ => exact .rfl' s

theorem readKeeps_portClear (lo hi : Bool) (s : State) (r : Reg) : ReadKeeps (s.portClear lo hi r) s :=
  .ite (.rfl' s) (readKeeps_regClear lo hi s r)

theorem readKeeps_onCtl (f : Ctl → Ctl) (s : State) : ReadKeeps (onCtl f s) s :=
  ⟨rfl, rfl, rfl, rfl, rfl, rfl, rfl, rfl, rfl, rfl, rfl, fun _ => rfl⟩

theorem readKeeps_setPort (f : Port → Port) (s : State) : ReadKeeps (setPort f s) s :=
  ⟨rfl, rfl, rfl, rfl, rfl, rfl, rfl, rfl, rfl, rfl, rfl, fun _ => rfl⟩

theorem readKeeps_answer (v : Nat) (s : State) : ReadKeeps (answer v s) s := readKeeps_setPort _ s

theorem readKeeps_readWord (r : Reg) (s : State) : ReadKeeps (readWord r s).2 s :=
  ReadKeeps.ite ((readKeeps_onCtl _ _).trans (readKeeps_portClear true true s r)) (readKeeps_portClear true true s r)

theorem readKeeps_read32 (fn off : Nat) (s : State) : ReadKeeps (read32 fn off s) s := by
  have answered (v : Nat) {u t : State} (h : ReadKeeps u t) : ReadKeeps (answer v u) t := (readKeeps_answer v u).trans h
  unfold read32
  dsimp only
  split
  · exact answered 0 (readKeeps_setPort _ s)
  · next r base hi hl =>
    refine ReadKeeps.trans ?_ (readKeeps_setPort (fun q => { q with latch := mdel fn q.latch }) s)
    split
    · exact answered _ (readKeeps_readWord r _)
    · split
      · split
        · exact readKeeps_answer 0 _
        · split
          · exact .ite (readKeeps_answer _ _) (answered _ (readKeeps_portClear false true _ r))
          · exact answered _ (readKeeps_portClear false true _ r)
      · exact answered _ ((readKeeps_setPort _ _).trans (readKeeps_portClear true true _ r))

theorem readKeeps_read64 (fn off : Nat) (s : State) : ReadKeeps (read64 fn off s) s := by
  have answered (v : Nat) {u t : State} (h : ReadKeeps u t) : ReadKeeps (answer v u) t := (readKeeps_answer v u).trans h
  unfold read64
  dsimp only
  split
  · next r hr =>
    refine ReadKeeps.trans ?_ (readKeeps_setPort (fun q => { q with latch := mdel fn q.latch }) s)
    split
    · exact answered _ (readKeeps_portClear true true _ r)
    · split
      · next r' hr' => exact answered _ ((readKeeps_readWord r' _).trans (readKeeps_readWord r _))
      · exact answered _ (readKeeps_readWord r _)
  · exact answered 0 (readKeeps_setPort _ s)

/-- A read command of a size and alignment that the port knows. -/
theorem readKeeps_readCmd {fn : Fin 17} {off : Nat} (wide : Bool) {s t : State} (ha : off % (if wide then 8 else 4) = 0)
    (h : readCmd fn off (if wide then 64 else 32) s = .next t) : ReadKeeps t s := by
  have hgate : ReadKeeps (ungate [islandAt (absOff fn off)] s) s := .rfl' s
  unfold readCmd live liveQuiet at h
  split at h
  · cases h
  · cases h
    refine ReadKeeps.trans (.ite ?_ (.rfl' _)) hgate
    rw [portAccess_read 0 ha]
    exact .ite (readKeeps_read64 _ _ _) (readKeeps_read32 _ _ _)

/-- Settles O34: every read is a read command of a known size. -/
theorem readsFrame : Obligations.ReadsFrame := by
  intro fn off bits v c s t hsize hc h
  have hkeeps : ReadKeeps t s := by
    have haccess (h : readCmd fn off bits s = .next t) : ReadKeeps t s := by
      rcases hsize with ⟨rfl, ha⟩ | ⟨rfl, ha⟩
      · exact readKeeps_readCmd false ha h
      · exact readKeeps_readCmd true ha h
    rcases hc with rfl | ⟨rfl, rfl⟩ | rfl | rfl | rfl
    · refine haccess ?_
      rcases hsize with ⟨rfl, -⟩ | ⟨rfl, -⟩ <;> exact h
    · exact haccess h
    · exact readKeeps_readCmd (fn := pf) (off := 0x1000) false (by decide) h
    · exact readKeeps_readCmd (fn := pf) (off := 0x8700) true (by decide) h
    · exact haccess h
  exact hkeeps

/-! ### Refused accesses -/

/-- A listed page begins with PAGE_ID, so that an unlisted offset of one lies behind it. -/
theorem pageOff_ne_zero {off p : Nat} (hp : pageAt off = some p) (hr : regAt off = none) : off % 0x10000 ≠ 0 := by
  intro h0
  unfold pageAt at hp
  split at hp
  · next hin =>
    simp only [Bool.and_eq_true, decide_eq_true_eq] at hin
    obtain ⟨hlo, hhi⟩ := hin
    have hpage : off / 0x10000 - 1 < 17 := by omega
    rw [regAt, if_pos hlo, finOf, dif_pos hpage, h0] at hr
    cases hr
  · cases hp

/-- A write to an unlisted offset that nothing holds back (17 R415; 03 R60). -/
theorem writeWith_unlisted {fn off : Nat} (wide : Bool) (v : U64) (low : Option (Nat × U32)) (s : State) (hr : regAt off = none)
    (hl : locate off = none) : writeWith fn off wide v low s =
      match pageAt off with
      | some p => if off % 0x10000 = 0 then s else pageError p (if (s.page p).isOpen then 0x02 else 0x08) (off % 0x10000) s
      | none => regRefused off 17 s := by
  have hopen (hc : s.closedAt off = none) : writeWith fn off wide v low s = unlisted off s := by
    cases wide
    · simp only [writeWith, hc, Bool.not_false, if_true, write32, hl]
    · simp only [writeWith, hc, Bool.not_true, Bool.false_eq_true, if_false, hr]
  cases hp : pageAt off with
  | none =>
    rw [hopen (closedAt_none fun p h => by rw [hp] at h; cases h)]
    simp only [unlisted, hp]
  | some p =>
    have h0 := pageOff_ne_zero hp hr
    cases ho : (s.page p).isOpen with
    | true =>
      rw [hopen (closedAt_none fun q h => by rw [hp] at h; cases h; exact ho)]
      simp only [unlisted, hp, ho, if_true, h0, if_false, pageOff]
    | false =>
      simp only [writeWith, closedAt_some hp ho, closedWrite, pageOff, h0, if_false]
      rw [if_neg (Bool.eq_false_iff.mp ho)]

/-- An access of a size or an alignment that the port does not know (00 R8). -/
theorem portAccess_bad {fn : Fin 17} {off bits : Nat} (write : Bool) (v : U64) (s : State) (h4 : ¬ (bits = 32 ∧ off % 4 = 0))
    (h8 : ¬ (bits = 64 ∧ off % 8 = 0)) : portAccess fn off bits write v s =
      let u := if write then discardLow fn.val s else setPort (fun q => { q with latch := mdel fn.val q.latch }) s
      if u.freezing then (if write then dropWrites 1 u else answer 0 u) else refusedAccess write (absOff fn off) u := by
  refine if_neg ?_
  simp only [Bool.or_eq_true, Bool.and_eq_true, decide_eq_true_eq]
  exact not_or.mpr ⟨h4, h8⟩

/-- Settles O35: unlisted offsets, and accesses of another size or alignment. -/
theorem badAccesses : Obligations.BadAccesses := by
  constructor
  · intro fn off wide s hk hf hb ha hr hl a
    have hisland : islandAt (absOff fn off) = 17 := by simp only [islandAt, hl]
    refine ⟨fun v hreset => ?_, ?_⟩
    · change writeCmd fn off (if wide then 64 else 32) v s = _
      rw [writeCmd_port v hk hb ha, portWrite_now (s := ungate _ s) hf (by rw [hisland]; exact hreset),
        writeWith_unlisted wide v _ _ hr hl]
      rfl
    · change readCmd fn off (if wide then 64 else 32) s = _
      rw [readCmd_port hk hb ha, hisland]
      cases wide
      · simp only [portRead, Bool.false_eq_true, if_false, read32, hl]
      · simp only [portRead, if_true, read64, hr]
  · intro fn off bits v s hk hb h4 h8
    refine ⟨fun hf => ?_, fun hf => ?_, ?_⟩
    · change writeCmd fn off bits v s = _
      rw [writeCmd_next fn off bits v s hk hb, portAccess_bad true v _ h4 h8]
      refine settled_congr ((if_neg (Bool.eq_false_iff.mp hf)).trans ?_)
      simp only [refusedAccess, if_true]
      rfl
    · change writeCmd fn off bits v s = _
      rw [writeCmd_next fn off bits v s hk hb, portAccess_bad true v _ h4 h8]
      exact settled_congr (if_pos hf)
    · refine ⟨_, readCmd_next fn off bits s hk hb, ?_⟩
      rw [portAccess_bad false 0 _ h4 h8]
      simp only [Bool.false_eq_true, if_false, refusedAccess]
      split <;> rfl

/-! ### Closed pages -/

/-- A write to a closed page (03 R60). -/
theorem writeWith_closed {fn off p : Nat} (wide : Bool) (v : U64) (low : Option (Nat × U32)) (s : State) (hp : pageAt off = some p)
    (ho : (s.page p).isOpen = false) : writeWith fn off wide v low s =
      if off % 0x10000 = 0 then s else pageError p 0x08 (off % 0x10000) s := by
  simp only [writeWith, closedAt_some hp ho, closedWrite, pageOff]
  rfl

theorem regVal_closed {p : Fin 17} {r : PReg} {s : State} (ho : (s.page p.val).isOpen = false) (hr : r ≠ .pageId) :
    regVal s (.page p r) = 0 := by
  refine if_neg ?_
  simp only [ho, hr, decide_false, Bool.or_self, Bool.false_eq_true, not_false_eq_true]

/-- Settles O36: writes to a closed page are recorded, and its registers read 0. -/
theorem closedPage : Obligations.ClosedPage := by
  intro fn off wide p s hk hf hb ha hp ho
  refine ⟨fun v hreset => ?_, fun r hr hid hw => ?_⟩
  · change writeCmd fn off (if wide then 64 else 32) v s = _
    rw [writeCmd_port v hk hb ha, portWrite_now (s := ungate _ s) hf hreset, writeWith_closed (s := discardLow _ (ungate _ s)) wide v _ hp ho]
    rfl
  · obtain ⟨q, rfl, hr⟩ := hr
    refine ⟨_, readCmd_reg hk hb ha hr hw, ?_⟩
    rw [portValue_live (s := readBy fn _ s) hf (by simp), regVal_closed (s := readBy fn _ s) ho hid]
    rfl

end Sys2Proof.Machine
end

section
/-! SUPPORT. The machine at reset, and the proof of O8: what each register reads (17 R415 to R421). -/

namespace Sys2Proof.Machine

/-! ### The tables at reset -/

theorem getD_replicate_self {α : Type} (n k : Nat) (a : α) : (List.replicate n a).getD k a = a := by
  rw [List.getD_eq_getElem?_getD, List.getElem?_getD_replicate_default_eq]

theorem page_reset (p : Nat) : State.reset.page p = {} := getD_replicate_self 17 p _

theorem urg_reset (p u : Nat) : State.reset.urg p u = {} := by
  rw [State.urg, page_reset]
  exact getD_replicate_self 8 u _

theorem err_reset (e : Nat) : State.reset.err e = {} := getD_replicate_self 32 e _

theorem node_reset (i : Nat) : State.reset.node i = {} := getD_replicate_self 24 i _

theorem slot_reset (m : Nat) : State.reset.slot m = {} := getD_replicate_self 32 m _

theorem hottest_reset : State.reset.hottest = 0 := by
  have hnode (i : Nat) : State.reset.pwr.nodes.getD i {} = {} := node_reset i
  simp only [State.hottest, hnode, lt_irrefl, if_false, List.foldl_fixed]

theorem input_reset (n k : Nat) (egress : Bool) : (Arb.reset n egress).input k = {} := getD_replicate_self n k _

/-- Every arbiter stands reset. -/
theorem arb_reset (i : Fin 4) : ∃ n egress, State.reset.arb i.val = Arb.reset n egress := by
  match i with
  | 0 => exact ⟨32, true, rfl⟩
  | 1 => exact ⟨8, false, rfl⟩
  | 2 => exact ⟨8, false, rfl⟩
  | 3 => exact ⟨8, false, rfl⟩

theorem arbInput_reset (i : Fin 4) (k : Nat) : (State.reset.arb i.val).input k = {} := by
  obtain ⟨n, egress, h⟩ := arb_reset i
  rw [h, input_reset]

/-! ### Where the map registers lie -/

theorem inArray_lt {off base stride n k : Nat} (h : inArray off base stride n = some k) : k < n := by
  unfold inArray at h
  split at h
  · next hin =>
    simp only [Bool.and_eq_true, decide_eq_true_eq] at hin
    obtain ⟨⟨hlo, hhi⟩, -⟩ := hin
    cases h
    exact Nat.div_lt_of_lt_mul (by omega)
  · cases h

theorem mem_of_firstOf {α : Type} {l : List (Option α)} {x : α} (h : firstOf l = some x) : some x ∈ l := by
  obtain ⟨o, ho, hx⟩ := List.exists_of_findSome?_eq_some h
  have hx : o = some x := hx
  exact hx ▸ ho

/-- A map register is one of eight (12 R331). -/
theorem map_lt {off j : Nat} (h : arbReg off = some (.map j) ∨ arbReg off = some (.active j)) : j < 8 := by
  unfold arbReg at h
  split at h
  case h_13 =>
    rcases h with h | h
    all_goals
      have hm := mem_of_firstOf h
      simp only [List.mem_cons, List.not_mem_nil, or_false, false_or, @eq_comm _ (some _), Option.map_eq_some_iff,
        Option.bind_eq_some_iff, reduceCtorEq, and_false, exists_false, AReg.map.injEq, AReg.active.injEq, exists_eq_right] at hm
      exact inArray_lt hm
  all_goals simp at h

/-- An arbiter's register lies in its own region (17 R415). -/
theorem arbReg_of_regAt {off : Nat} {i : Fin 4} {q : AReg} (h : regAt off = some (.arb i q)) : arbReg (off % 0x400) = some q := by
  unfold regAt at h
  split at h
  · simp only [Option.bind_eq_some_iff, Option.map_eq_some_iff, reduceCtorEq, and_false, exists_false] at h
  · split at h
    · simp only [Option.bind_eq_some_iff, Option.map_eq_some_iff, Reg.arb.injEq] at h
      obtain ⟨k, -, q', hq, -, rfl⟩ := h
      exact hq
    · have hlow : some (Reg.arb i q) ≠ lowReg off := by
        unfold lowReg
        split <;> simp
      have hgcr : some (Reg.arb i q) ≠ gcrReg off := by
        unfold gcrReg
        split <;> simp
      have harr : some (Reg.arb i q) ≠ arrReg off := by
        intro h
        have hm := mem_of_firstOf h.symm
        simp [@eq_comm _ (some _), Option.bind_eq_some_iff] at hm
      have hm := mem_of_firstOf h
      simp [hlow, hgcr, harr] at hm

/-! ### What the registers read -/

/-- The identity of an arbiter: its inputs and its kind (12 R331). -/
theorem arbId_reset (i : Fin 4) : regVal State.reset (.arb i .id)
    = if i = 0 then 0x20 else if i = 1 then 0x48 else if i = 2 then 0x88 else 0xC8 := by
  revert i
  decide

theorem arbMap_reset (i : Fin 4) {j : Nat} (hj : j < 8) :
    regVal State.reset (.arb i (.map j)) = (if i = 0 ∨ j < 2 then 0x03020100 + 0x04040404 * j else 0)
      ∧ regVal State.reset (.arb i (.active j)) = if i = 0 ∨ j < 2 then 0x03020100 + 0x04040404 * j else 0 := by
  have hall : ∀ (i : Fin 4) (j : Fin 8),
      regVal State.reset (.arb i (.map j.val)) = (if i = 0 ∨ j.val < 2 then 0x03020100 + 0x04040404 * j.val else 0)
        ∧ regVal State.reset (.arb i (.active j.val)) = if i = 0 ∨ j.val < 2 then 0x03020100 + 0x04040404 * j.val else 0 := by
    decide
  exact hall i ⟨j, hj⟩

theorem pregVal_reset (p : Fin 17) (r : PReg) : pregVal p.val State.reset r = match r with
    | .pageId => p.val * 0x10000
    | .sqCfg | .cqCfg => 6
    | .intCoal _ => 1
    | _ => 0 := by
  cases r with
  | pageId =>
    simp only [pregVal, State.pageId, page_reset]
    revert p
    decide
  | urgMsg u k =>
    simp only [pregVal, urg_reset]
    rw [BitVec.toNat_ushiftRight, show ({} : Urg).msg.toNat = 0 from BitVec.toNat_zero, Nat.zero_shiftRight, Nat.zero_mod]
  | urgStat u => simp only [pregVal, urg_reset]; rfl
  | urgReply u k =>
    simp only [pregVal, urg_reset]
    match k with
    | 0 => rfl
    | 1 => rfl
    | 2 => rfl
  | urgLcc u => simp only [pregVal, urg_reset]; rfl
  | urgGo u => rfl
  | intCoal v =>
    simp only [pregVal, page_reset]
    exact congrArg Vec.word (getD_replicate_self 8 v.val _)
  | _ => simp only [pregVal, page_reset]; rfl

theorem arbVal_reset (i : Fin 4) {q : AReg} :
    (∀ j, q = .map j ∨ q = .active j → j < 8) → regVal State.reset (.arb i q) = match q with
      | .id => if i = 0 then 0x20 else if i = 1 then 0x48 else if i = 2 then 0x88 else 0xC8
      | .window => 0x100
      | .hint => if i = 0 then 0 else 0x41
      | .depth => if i = 0 then 4 else 0
      | .map j | .active j => if i = 0 ∨ j < 2 then 0x03020100 + 0x04040404 * j else 0
      | _ => 0 := by
  intro hmap
  cases q with
  | map j => exact (arbMap_reset i (hmap j (.inl rfl))).1
  | active j => exact (arbMap_reset i (hmap j (.inr rfl))).2
  | quota k | longest k | grants k | wait k =>
    simp only [regVal, aregVal, arbInput_reset]
    rfl
  | _ => clear hmap; revert i; decide

theorem pageVal_reset (p : Fin 17) (q : PReg) :
    regVal State.reset (.page p q) = match q with | .pageId => p.val * 0x10000 | _ => 0 := by
  have hclosed : (State.reset.page p.val).isOpen = false := by rw [page_reset]
  cases q with
  | pageId => exact (if_pos (by simp)).trans (pregVal_reset p .pageId)
  | _ => exact regVal_closed hclosed (by simp)

/-- FW_STATUS before an image is accepted: the revoked keys alone (16 R400). -/
theorem fwStatus_unloaded {s : State} (hline : s.ctl.fwLine = 0) (hminor : s.ctl.fwMinor = 0) (hbuild : s.ctl.fwBuild = 0)
    (hacc : s.ctl.fwAccepted = false) (hkey : s.ctl.fwKey = 0) : s.fwStatus = flg Config.revoked0 35 + flg Config.revoked1 36 := by
  have hnone : (0 : U8).toNat + fld (0 : U8).toNat 8 8 + fld (0 : U16).toNat 16 16 + flg false 32 + fld (0 : BitVec 2).toNat 33 2 = 0 := by
    decide
  rw [State.fwStatus, hline, hminor, hbuild, hacc, hkey, hnone, Nat.zero_add]

theorem fwStatus_reset : regVal State.reset .fwStatus = flg Config.revoked0 35 + flg Config.revoked1 36 :=
  calc regVal State.reset .fwStatus = State.reset.fwStatus := rfl
    _ = _ := fwStatus_unloaded rfl rfl rfl rfl rfl

/-- What each register reads at reset, by the Reset column (17 R415 to R421). The keys' bits of FW_STATUS are the board's own: they are
compared at both values each, as the kernel does not multiply an unknown. -/
theorem regVal_reset {r : Reg} : (∀ i j, r = .arb i (.map j) ∨ r = .arb i (.active j) → j < 8) →
    regVal State.reset r = match r with
      | .blId => 0xB103ADE5
      | .blRev => 0x00030000 + Config.stepping.toNat
      | .blCaps => 0x0ACC14CD3F1F9FF7
      | .wdogLimit => 0x000186A0
      | .pwrLimit => 0x003C0960
      | .thermLimit => 0x0000003005A00640
      | .tetherCtrl => 0x000000006403E800
      | .fwStatus => b2n Config.revoked0 * 2 ^ 35 + b2n Config.revoked1 * 2 ^ 36
      | .arb i .id => if i = 0 then 0x20 else if i = 1 then 0x48 else if i = 2 then 0x88 else 0xC8
      | .arb _ .window => 0x100
      | .arb i .hint => if i = 0 then 0 else 0x41
      | .arb i .depth => if i = 0 then 4 else 0
      | .arb i (.map j) | .arb i (.active j) => if i = 0 ∨ j < 2 then 0x03020100 + 0x04040404 * j else 0
      | .page p .pageId => p.val * 0x10000
      | _ => 0 := by
  intro hmap
  cases r with
  | arb i q =>
    refine (arbVal_reset i fun j hj => hmap i j (hj.imp (congrArg _) (congrArg _))).trans ?_
    cases q <;> rfl
  | page p q =>
    refine (pageVal_reset p q).trans ?_
    cases q <;> rfl
  | errAddr e | errSrc e | errCode e | errLcc e | errAux e =>
    simp only [regVal, err_reset]
    rfl
  | coreFence w =>
    have hnone : ∀ n, bitmap n (fun b => State.reset.wdog.fenced.contains (64 * w + b)) = bitmap n (fun _ => false) := fun _ => rfl
    simp only [regVal, State.coreFence, hnone]
    split <;> decide
  | thermEst =>
    simp only [regVal, State.thermEst, hottest_reset, node_reset]
    clear hmap
    decide
  | thermNode i =>
    simp only [regVal, State.thermNode, node_reset]
    decide
  | fwStatus =>
    rw [fwStatus_reset]
    clear hmap
    generalize Config.revoked0 = a, Config.revoked1 = b
    revert a b
    decide
  | fwDigest j =>
    have hdigest : State.reset.ctl.fwDigest = 0#384 := rfl
    simp only [regVal, hdigest, BitVec.toNat_zero, Nat.zero_div, Nat.zero_mod]
  | tier q =>
    cases q with
    | poolBase | poolSize => clear hmap; decide
    | hostBase t =>
      change fld (0 : BitVec 48).toNat 16 48 = 0
      decide
    | hostSize t => rfl
  | ghSlot m =>
    have husers : State.reset.modelUsers m = 0 := rfl
    have hback : State.reset.fbActive m = false := by
      simp only [State.fbActive, slot_reset]
      rfl
    simp only [regVal, State.ghSlot, slot_reset, husers, hback]
    decide
  | ghSlotUse m =>
    simp only [regVal, slot_reset]
    rfl
  | ledger k =>
    match k with
    | 0 => rfl
    | 1 => rfl
    | 2 => rfl
    | 3 => rfl
  | blRev => rfl
  | hostFree t | seedScopes t | dlEst m => rfl
  | _ => clear hmap; decide

/-- Settles O8: the registers one by one, and the tables. -/
theorem resetValues : Obligations.ResetValues := by
  unfold Obligations.ResetValues
  refine ⟨fun off r hr => ?_, fun p r => pregVal_reset p r, rfl, rfl, rfl, fun p => by rw [page_reset], rfl, by decide⟩
  refine regVal_reset fun i j hj => ?_
  rcases hj with rfl | rfl
  · exact map_lt (.inl (arbReg_of_regAt hr))
  · exact map_lt (.inr (arbReg_of_regAt hr))

end Sys2Proof.Machine
end

section
/-! SUPPORT. Block control and the freeze: BLOCK_RESET, DORMANT, FREEZE, and the events of the islands (O37 to O40). -/

namespace Sys2Proof.Machine

/-! ### BLOCK_RESET (16 R405) -/

/-- The pages after step 1 of a block reset: the tenants' PASIDs and the management page's generation. -/
def resetPages (s : State) : List Page :=
  (s.pages.take 16).map (fun x => { pasid := x.pasid }) ++ [{ gen := (s.page mgmt).gen }]

theorem page_clearCounters (p : Nat) (s : State) :
    (clearCounters s).page p = { s.page p with errCount := 0 } ∨ (clearCounters s).page p = {} ∧ s.page p = {} := by
  have h : (clearCounters s).page p = (s.pages.map (fun g => { g with errCount := 0 })).getD p {} := rfl
  by_cases hp : p < s.pages.length
  · left
    rw [h, State.page, List.getD_eq_getElem _ _ (by simpa using hp), List.getD_eq_getElem _ _ hp, List.getElem_map]
  · right
    exact ⟨h.trans (List.getD_eq_default _ _ (by simpa using hp)), List.getD_eq_default _ _ (by simpa using hp)⟩

theorem gen_clearCounters (p : Nat) (s : State) : ((clearCounters s).page p).gen = (s.page p).gen := by
  obtain h | ⟨h, k⟩ := page_clearCounters p s
  · rw [h]
  · rw [h, k]

theorem closed_resetPages (p : Nat) (s : State) : ((resetPages s).getD p {}).isOpen = false := by
  have h : ∀ g ∈ resetPages s, g.isOpen = false := by
    intro g hg
    rw [resetPages, List.mem_append, List.mem_map, List.mem_singleton] at hg
    obtain ⟨x, -, rfl⟩ | rfl := hg
    · rfl
    · rfl
  rw [List.getD_eq_getElem?_getD]
  cases e : (resetPages s)[p]? with
  | none => rfl
  | some g => exact h g (List.mem_of_getElem? e)

theorem gen_resetPages (s : State) (hl : s.pages.length = 17) : ((resetPages s).getD mgmt {}).gen = (s.page mgmt).gen := by
  have h : ((s.pages.take 16).map (fun x => ({ pasid := x.pasid } : Page))).length = mgmt := by
    rw [List.length_map, List.length_take, hl]; rfl
  rw [resetPages, List.getD_append_right _ _ _ _ h.le, h, Nat.sub_self]
  rfl

/-- A change of phase changes the phase, the pages and the ports alone, and opens no page. -/
theorem setPhase_form (p : Phase) (s : State) :
    ∃ ps o, setPhase p s = { s with ctl := { s.ctl with phase := p }, pages := ps, out := o } :=
  vecEvent_form mgmt 6 (onCtl (fun c => { c with phase := p }) s)

theorem isOpen_setPhase (p : Phase) (q : Nat) (s : State) : ((setPhase p s).page q).isOpen = (s.page q).isOpen := by
  obtain ⟨-, hq, -, ho, -⟩ := answers_vecEvent mgmt 6 (onCtl (fun c => { c with phase := p }) s)
  by_cases e : q = mgmt
  · subst e; exact ho
  · exact congrArg Page.isOpen (hq q e).1

theorem gen_setPhase (p : Phase) (s : State) : ((setPhase p s).page mgmt).gen = (s.page mgmt).gen := by
  obtain ⟨-, -, hg, -⟩ := answers_vecEvent mgmt 6 (onCtl (fun c => { c with phase := p }) s)
  exact hg

/-- What a block reset leaves at once. -/
theorem blockReset_spec (s : State) (hl : s.pages.length = 17) (t : State) (ht : t = blockReset s) :
    t.ctl.phase = .init ∧ t.ctl.lcc = s.ctl.lcc
      ∧ t.ctl.dormant = false ∧ t.ctl.resumeHold = false ∧ (∀ p, (t.page p).isOpen = false) ∧ (t.page mgmt).gen = (s.page mgmt).gen
      ∧ t.wdog.limit = 100000 ∧ t.wdog.stalled = false ∧ t.wdog.resetting = 0
      ∧ t.arbs = [Arb.reset 32 true, Arb.reset 8 false, Arb.reset 8 false, Arb.reset 8 false]
      ∧ t.elog = s.elog ∧ t.reqs = s.reqs ∧ t.gh.slots = s.gh.slots ∧ t.seed.nodes = s.seed.nodes ∧ t.tens = s.tens
      ∧ t.plots = { s.plots with poolEn := false, hostEn := false, poolBase := 0, poolSize := 0, hostBase := [], hostSize := [] } := by
  subst ht
  have ho : ∀ p, ((blockReset s).page p).isOpen = false := by
    intro p
    exact (isOpen_setPhase .init p _).trans (closed_resetPages p _)
  have hg : ((blockReset s).page mgmt).gen = (s.page mgmt).gen := by
    refine (gen_setPhase .init _).trans ((gen_resetPages _ ?_).trans (gen_clearCounters mgmt _))
    simpa [clearCounters] using hl
  obtain ⟨ps, o, e⟩ := setPhase_form .init (resetArbs (resetIslands (clearCounters (onCtl (fun c =>
    { c with
      initOf := .blockReset
      fwReread := false
      dormant := false
      resumeHold := false
      wakeNext := false
      entrySealed := false
      latchReset := false
      latchSleep := false
      latchWake := false }) s))))
  rw [blockReset] at ho hg ⊢
  rw [e] at ho hg ⊢
  exact ⟨rfl, rfl, rfl, rfl, ho, hg, rfl, rfl, rfl, rfl, rfl, rfl, rfl, rfl, rfl, rfl⟩

/-- Settles O37: frozen, the reset waits for the thaw; else it is step 1 of R405. -/
theorem blockResetStarts : Obligations.BlockResetStarts := by
  unfold Obligations.BlockResetStarts
  intro src s hk hz
  obtain ⟨hpages, -⟩ := hz
  have e : exec (.blockReset src) s = .next
      (if s.freezing then onCtl (fun c => { c with latchReset := true })
        (match src with | .ctrl => discardLow pf.val (ungate [] s) | .warm => ungate [] s)
      else blockReset (match src with | .ctrl => discardLow pf.val (ungate [] s) | .warm => ungate [] s)) := by
    change execBlockReset src s = _
    rw [execBlockReset, live_next _ _ _ hk]
    cases src
    · rfl
    · rfl
  refine ⟨fun hf => ?_, fun hf => ⟨_, e.trans (by rw [hf]), ?_⟩⟩
  · exact e.trans (congrArg _ (if_pos hf))
  · cases src
    · exact blockReset_spec (discardLow pf.val (ungate [] s)) hpages _ rfl
    · exact blockReset_spec (ungate [] s) hpages _ rfl

/-! ### DORMANT and the freeze (16 R398, R409; 18 R438 to R444) -/

theorem dormantEnter_next (s : State) (hk : Known s) :
    exec .dormantEnter s = .next (let u := discardLow pf.val (ungate [] s)
      if s.noDormant then regRefused 0x18 0 u
      else if s.freezing then onCtl (fun c => { c with latchSleep := true, dormant := true }) u else sleep u) := by
  change execDormantEnter s = _
  rw [execDormantEnter, live_next _ s _ hk]
  rfl

theorem dormantExit_next (s : State) (hk : Known s) :
    exec .dormantExit s = .next (let u := discardLow pf.val (ungate [] s)
      if !s.ctl.dormant then u
      else if s.freezing then onCtl (fun c => { c with latchSleep := false, latchWake := !c.latchSleep, dormant := false }) u
      else wake u) := by
  change execDormantExit s = _
  rw [execDormantExit, live_next _ s _ hk]
  rfl

/-- Entry is refused in another phase, while stalled, and on a member of a group. -/
theorem noDormant_iff (s : State) : s.noDormant = true ↔
    s.ctl.phase ≠ .ready ∨ s.wdog.stalled = true ∨ (s.teth.en = true ∧ s.teth.sizeM1 ≠ 0) := by
  simp [State.noDormant, or_assoc]

theorem wake_dormant (s : State) (h : s.ctl.phase = .dormant) :
    wake s = vecEvent mgmt 6 (onCtl (fun c => { c with dormant := false, phase := .waking }) s) := by
  simp only [wake, onCtl, h, setPhase]

theorem wake_sleeping (s : State) (h : s.ctl.phase = .sleeping) :
    wake s = onCtl (fun c => { c with dormant := false, wakeNext := true }) s := by
  simp only [wake, onCtl, h]

/-- Settles O38: the branches of the two commands. -/
theorem dormantControl : Obligations.DormantControl := by
  unfold Obligations.DormantControl
  refine ⟨fun s hk => ⟨fun hd => ?_, fun hf => ⟨fun hn => ?_, fun hn => ?_, fun hd => ?_⟩⟩,
    fun s hk hf => ⟨fun hp hs hg => ?_, fun h => ?_, fun hd => ⟨fun hp => ?_, fun hp => ?_⟩⟩⟩
  · rw [dormantExit_next s hk, hd]; rfl
  · rw [dormantEnter_next s hk, hn, hf]; rfl
  · rw [dormantEnter_next s hk, hn]; rfl
  · rw [dormantExit_next s hk, hd, hf]; rfl
  · have hn : s.noDormant = false := by
      rw [← Bool.not_eq_true, noDormant_iff]
      rintro (h | h | ⟨h, k⟩)
      · exact h hp
      · exact absurd h (by rw [hs]; decide)
      · rcases hg with g | g
        · exact absurd h (by rw [g]; decide)
        · exact k g
    rw [dormantEnter_next s hk, hn, hf]; rfl
  · rw [dormantEnter_next s hk, (noDormant_iff s).mpr h]; rfl
  · rw [dormantExit_next s hk, hd, hf]
    exact congrArg _ (wake_dormant (discardLow pf.val (ungate [] s)) hp)
  · rw [dormantExit_next s hk, hd, hf]
    exact congrArg _ (wake_sleeping (discardLow pf.val (ungate [] s)) hp)

/-- A freeze of a block that is not dormant: the LCC stops, the freeze is counted, and the lock is lost. -/
theorem freezeBegin_running (s : State) (h : s.ctl.phase ≠ .dormant) : freezeBegin s =
    { s with
      ctl := { s.ctl with
        freezeLcc := s.ctl.lcc
        freezes := satInc s.ctl.freezes
        stopped := 0 }
      out := { s.out with tetherEn := false }
      teth := if s.teth.lock then { s.teth with lock := false, brk := true } else s.teth } := by
  rw [freezeBegin, if_neg h]
  dsimp only
  cases hl : s.teth.lock
  · exact if_neg (by rw [show (onCtl _ s).teth.lock = s.teth.lock from rfl, hl]; decide)
  · exact if_pos hl

theorem freezeBegin_dormant (s : State) (h : s.ctl.phase = .dormant) :
    freezeBegin s = onCtl (fun c => { c with frozen := true }) s := if_pos h

theorem freezeSet_next (s : State) (hk : Known s) :
    exec .freezeSet s = .next (let u := onCtl (fun c => { c with byCtrl := true }) (discardLow pf.val (ungate [] s))
      if s.freezing then u else freezeBegin u) := by
  change execFreezeSet s = _
  rw [execFreezeSet, live_next _ s _ hk]
  rfl

theorem freezeSignal_next (s : State) (hk : Known s) :
    exec .freezeSignal s = .next (let u := onCtl (fun c => { c with byDebug := true }) (ungate [] s)
      if s.freezing then u else freezeBegin u) := by
  change execFreezeSignal s = _
  rw [execFreezeSignal, live_next _ s _ hk]
  rfl

theorem freezeDone_next (s : State) (hk : Known s) :
    exec .freezeDone s = .next (if !s.freezing || s.ctl.frozen || s.ctl.stopped ≠ 0x1FFFE then ungate [] s
      else onCtl (fun c => { c with frozen := true, stopped := 0x3FFFE }) (ungate [] s)) := live_next _ s _ hk

theorem freezeClear_next (s : State) (hk : Known s) :
    exec .freezeClear s = .next (settle (thawCtrl (discardLow pf.val (ungate [] s)))) := by
  change execFreezeClear s = _
  rw [execFreezeClear, liveSettle_next _ s _ hk]

theorem freezeSignalClear_next (s : State) (hk : Known s) :
    exec .freezeSignalClear s = .next (settle (thawDebug (ungate [] s))) := by
  change execFreezeSignalClear s = _
  rw [execFreezeSignalClear, liveSettle_next _ s _ hk]

theorem thawCtrl_set (s : State) (h : s.ctl.byCtrl = true) : thawCtrl s =
    if s.ctl.byDebug then onCtl (fun c => { c with byCtrl := false }) s else thaw (onCtl (fun c => { c with byCtrl := false }) s) := by
  rw [thawCtrl, h]; rfl

theorem thawCtrl_clear (s : State) (h : s.ctl.byCtrl = false) : thawCtrl s = s := by rw [thawCtrl, h]; rfl

theorem thawDebug_set (s : State) (h : s.ctl.byDebug = true) : thawDebug s =
    if s.ctl.byCtrl then onCtl (fun c => { c with byDebug := false }) s else thaw (onCtl (fun c => { c with byDebug := false }) s) := by
  rw [thawDebug, h]
  simp only [State.freezing, onCtl, Bool.or_false, Bool.not_true, Bool.false_eq_true, if_false]

theorem thawDebug_clear (s : State) (h : s.ctl.byDebug = false) : thawDebug s = s := by rw [thawDebug, h]; rfl

/-- Settles O39: the first source begins the freeze, the last one that clears thaws. -/
theorem freezeSources : Obligations.FreezeSources := by
  unfold Obligations.FreezeSources
  refine ⟨fun s hk => ⟨?_, ?_, ?_, ?_, ?_⟩, fun s hk => ⟨?_, ?_, ?_, ?_, ?_⟩⟩
  · intro hf hp
    constructor
    · rw [freezeSet_next s hk, hf]
      exact congrArg _ (freezeBegin_running _ hp)
    · rw [freezeSignal_next s hk, hf]
      exact congrArg _ (freezeBegin_running _ hp)
  · intro hf hp
    constructor
    · rw [freezeSet_next s hk, hf]
      exact congrArg _ (freezeBegin_dormant _ hp)
    · rw [freezeSignal_next s hk, hf]
      exact congrArg _ (freezeBegin_dormant _ hp)
  · intro hf
    rw [freezeSet_next s hk, freezeSignal_next s hk, hf]
    exact ⟨rfl, rfl⟩
  · intro hf hz hs
    rw [freezeDone_next s hk, hf, hz, hs]; rfl
  · intro h
    rw [freezeDone_next s hk, if_pos]
    simpa [or_assoc] using h
  · intro h
    rw [freezeClear_next s hk]
    exact settled_congr (thawCtrl_set (discardLow pf.val (ungate [] s)) h)
  · intro h
    rw [freezeSignalClear_next s hk]
    exact settled_congr (thawDebug_set (ungate [] s) h)
  · intro h
    rw [freezeClear_next s hk]
    exact settled_congr (thawCtrl_clear (discardLow pf.val (ungate [] s)) h)
  · intro h
    rw [freezeSignalClear_next s hk]
    exact settled_congr (thawDebug_clear (ungate [] s) h)
  · change execResumeHold s = _
    rw [execResumeHold, liveSettle_next _ s _ hk]
    exact settled_congr rfl

/-! ### The events of the islands (15, 16, 18; 03 R74) -/

theorem islandResetDone_next (i : Fin 18) (s : State) (hk : Known s) :
    exec (.islandResetDone i) s = .next (settle (if s.freezing then ungate [i.val] s else islandBack i.val (ungate [i.val] s))) := by
  change execIslandResetDone i s = _
  rw [execIslandResetDone, liveSettle_next _ s _ hk]
  rfl

theorem islandBack_running (i : Nat) (s : State) (h : s.wdog.resetting.getLsbD i = false) : islandBack i s = s := by
  rw [islandBack, h]; rfl

/-- The writes held for the island are applied in their order. -/
theorem islandBack_resetting (i : Nat) (s : State) (h : s.wdog.resetting.getLsbD i = true) : islandBack i s =
    each (s.wdog.heldWrites.filter (fun w => w.island = i)) (fun w s => writeWith w.fn.val w.off w.wide w.v w.low s)
      (onWdog (fun w =>
        { w with
          resetting := w.resetting &&& ~~~(BitVec.ofNat 18 (2 ^ i))
          heldWrites := w.heldWrites.filter (fun x => x.island ≠ i) }) s) := by
  rw [islandBack, h]; rfl

theorem intCoalRaise_next (p : Fin 17) (v : Fin 8) (s : State) (hk : Known s) (hf : s.freezing = false) :
    exec (.intCoalRaise p v) s = .next (vecEval p.val v.val (ungate [17] s)) := by
  change execIntCoalRaise p v s = _
  rw [execIntCoalRaise, live_next _ s _ hk]
  exact congrArg _ (if_neg (by rw [show (ungate [17] s).freezing = s.freezing from rfl, hf]; decide))

theorem ripe_iff (x : Vec) (lcc : U64) : x.ripe lcc = true ↔ x.en = true ∧ 0 < x.pending ∧
    ((if x.count = 0 then 1 else x.count.toNat) ≤ x.pending ∨ x.time = 0 ∨ x.oldest.toNat + x.time.toNat * 1000 ≤ lcc.toNat) := by
  simp only [Vec.ripe, Bool.and_eq_true, Bool.or_eq_true, decide_eq_true_eq, and_assoc, or_assoc]
  rfl

theorem due_iff (p v : Nat) (o : Out) : o.due p v = true ↔ (p, v) ∈ o.held ∧ (p, v) ∉ o.masked := by
  simp [Out.due]

theorem raise_unmasked (p v : Nat) (o : Out) (h : (p, v) ∉ o.masked) :
    o.raise p v = { o with msix := o.msix ++ [(p, v)], held := o.held.filter (fun k => k ≠ (p, v)) } := by
  rw [Out.raise, if_neg (by simpa using h)]

theorem raise_masked (p v : Nat) (o : Out) (h : (p, v) ∈ o.masked) (k : (p, v) ∉ o.held) :
    o.raise p v = { o with held := o.held ++ [(p, v)] } := by
  rw [Out.raise, if_pos (by simpa using h), if_neg (by simpa using k)]

theorem raise_held (p v : Nat) (o : Out) (h : (p, v) ∈ o.masked) (k : (p, v) ∈ o.held) : o.raise p v = o := by
  rw [Out.raise, if_pos (by simpa using h), if_pos (by simpa using k)]

/-- A ripe vector is raised, and nothing is pending. -/
theorem vecEval_ripe (p v : Nat) (s : State) (hf : s.freezing = false)
    (h : ((s.page p).vecs.getD v {}).ripe s.ctl.lcc = true) :
    vecEval p v s = { s with out := s.out.raise p v }.onPage p (fun g =>
      { g with vecs := lupd v (fun w => { w with pending := 0 }) g.vecs }) := by
  simp only [vecEval, h, hf, Bool.true_or, Bool.not_false, Bool.and_self, if_true]

theorem vecSent_congr {p v : Nat} {s : State} {o o' : Out} (h : o = o') :
    { s with out := o }.onPage p (fun g => { g with vecs := lupd v (fun w => { w with pending := 0 }) g.vecs })
      = { s with out := o' }.onPage p (fun g => { g with vecs := lupd v (fun w => { w with pending := 0 }) g.vecs }) := by rw [h]

/-- A message held for a vector that is no longer masked goes out. -/
theorem vecEval_due (p v : Nat) (s : State) (hf : s.freezing = false)
    (h : ((s.page p).vecs.getD v {}).ripe s.ctl.lcc = false) (k : s.out.due p v = true) :
    (vecEval p v s).out = s.out.raise p v := by
  simp only [vecEval, h, k, hf, Bool.or_true, Bool.not_false, Bool.and_self, if_true]
  rfl

theorem vecEval_none (p v : Nat) (s : State) (h : ((s.page p).vecs.getD v {}).ripe s.ctl.lcc = false) (k : s.out.due p v = false) :
    vecEval p v s = s := by
  simp only [vecEval, h, k, Bool.or_self, Bool.false_and, Bool.false_eq_true, if_false]

/-- Settles O40: each event's own branches; a vector is evaluated as R74 gives. -/
theorem islandEvents : Obligations.IslandEvents := by
  unfold Obligations.IslandEvents
  constructor
  · intro i s hk
    refine ⟨live_next _ s _ hk, liveQuiet_next s _ hk, (liveQuiet_next s _ hk).trans (congrArg _ ?_), fun hf hr => ?_, fun h => ?_⟩
    · simp only [idleGate, Bool.or_eq_true, decide_eq_true_eq, or_assoc]
    · rw [islandResetDone_next i s hk, hf]
      exact settled_congr (islandBack_resetting i.val (ungate [i.val] s) hr)
    · rw [islandResetDone_next i s hk]
      rcases h with hf | hr
      · rw [hf]; rfl
      · exact settled_congr ((congrArg _ (islandBack_running i.val (ungate [i.val] s) hr)).trans (ite_self _))
  · intro page v s hk hf
    dsimp only
    rw [intCoalRaise_next page v s hk hf, ← ripe_iff, ← due_iff]
    refine ⟨fun h m => ?_, fun h m k => ?_, fun h m k => ?_, fun h k m => ?_, fun h k => ?_⟩
    · exact congrArg _ ((vecEval_ripe _ _ (ungate [17] s) hf h).trans (vecSent_congr (raise_unmasked _ _ _ m)))
    · exact congrArg _ ((vecEval_ripe _ _ (ungate [17] s) hf h).trans (vecSent_congr (raise_masked _ _ _ m k)))
    · exact congrArg _ ((vecEval_ripe _ _ (ungate [17] s) hf h).trans (vecSent_congr (raise_held _ _ _ m k)))
    · refine ⟨_, rfl, ?_⟩
      rw [vecEval_due _ _ (ungate [17] s) hf (Bool.eq_false_of_not_eq_true h) ((due_iff _ _ _).mpr ⟨k, m⟩)]
      exact raise_unmasked _ _ _ m
    · exact congrArg _ (vecEval_none _ _ (ungate [17] s) (Bool.eq_false_of_not_eq_true h) (Bool.eq_false_of_not_eq_true k))

end Sys2Proof.Machine
end

section
/-! SUPPORT. Power and heat (14 R356 to R370), and the urgent messages as bits (03 R71; 04 R81): the proofs of O41, O51, O53 and O60. -/

namespace Sys2Proof.Machine

/-! ### The urgent messages as bits -/

section
open BitVec (extractLsb'_append_eq_of_le extractLsb'_append_eq_of_add_le extractLsb'_eq_self)

theorem opOf_hdrBits (op : U8) (h : Hdr) : opOf (hdrBits op h) = op := by
  simp (disch := decide) only [opOf, hdrBits, extractLsb'_append_eq_of_add_le, extractLsb'_eq_self]

/-- A reserved field is told from zero by its one bit. -/
theorem rsvField_ne_zero (n : Nat) (b : Bool) : decide ((0 : BitVec n) ++ bit1 b ≠ 0) = b := by
  have h : ((0 : BitVec n) ++ bit1 b).getLsbD 0 = b := by
    rw [BitVec.getLsbD_append]
    cases b
    · rfl
    · rfl
  cases b
  · rw [decide_eq_false_iff_not, not_not]
    exact BitVec.zero_append_zero ..
  · rw [decide_eq_true_eq]
    intro e
    rw [e] at h
    exact absurd h (by simp)

theorem hdrOf_hdrBits (op : U8) (h : Hdr) : hdrOf (hdrBits op h) = h := by
  obtain ⟨fence, noIrq, gen, tag, length, rsv⟩ := h
  rw [hdrOf, Hdr.mk.injEq]
  refine ⟨?_, ?_, ?_, ?_, ?_, ?_⟩
  · simp only [hdrBits, BitVec.getLsbD_append, bit1]
    simp
  · simp only [hdrBits, BitVec.getLsbD_append, bit1]
    simp
  · simp (disch := decide) only [hdrBits, extractLsb'_append_eq_of_le, extractLsb'_append_eq_of_add_le]
    exact extractLsb'_eq_self
  · simp (disch := decide) only [hdrBits, extractLsb'_append_eq_of_le, extractLsb'_append_eq_of_add_le]
    exact extractLsb'_eq_self
  · simp (disch := decide) only [hdrBits, extractLsb'_append_eq_of_le, extractLsb'_append_eq_of_add_le]
    exact extractLsb'_eq_self
  · simp (disch := decide) only [hdrBits, extractLsb'_append_eq_of_le, extractLsb'_append_eq_of_add_le]
    have hr : BitVec.extractLsb' (10 - 8 - 1 - 1) 6 ((0 : BitVec 5) ++ bit1 rsv) = (0 : BitVec 5) ++ bit1 rsv := extractLsb'_eq_self
    rw [hr, rsvField_ne_zero]
    simp

theorem handleOf_handleBits (op : U8) (h : Hdr) (f : HandleF) : handleOf (handleBits op h f) = f := by
  obtain ⟨handle, ttl, rsv⟩ := f
  rw [handleOf, HandleF.mk.injEq]
  simp (disch := decide) only [handleBits, extractLsb'_append_eq_of_le, extractLsb'_append_eq_of_add_le]
  refine ⟨extractLsb'_eq_self, extractLsb'_eq_self, ?_⟩
  have hr : BitVec.extractLsb' (128 - 64 - 32 - 32) 384 ((0 : BitVec 383) ++ bit1 rsv) = (0 : BitVec 383) ++ bit1 rsv :=
    extractLsb'_eq_self
  rw [hr, rsvField_ne_zero]

theorem timeOf_timeBits (op : U8) (h : Hdr) (f : TimeF) : timeOf (timeBits op h f) = f := by
  obtain ⟨host, rsv⟩ := f
  rw [timeOf, TimeF.mk.injEq]
  simp (disch := decide) only [timeBits, extractLsb'_append_eq_of_le, extractLsb'_append_eq_of_add_le]
  refine ⟨extractLsb'_eq_self, ?_⟩
  have hr : BitVec.extractLsb' (128 - 64 - 64) 384 ((0 : BitVec 383) ++ bit1 rsv) = (0 : BitVec 383) ++ bit1 rsv :=
    extractLsb'_eq_self
  rw [hr, rsvField_ne_zero]

theorem header_handleBits (op : U8) (h : Hdr) (f : HandleF) : (handleBits op h f).extractLsb' 0 64 = hdrBits op h := by
  simp (disch := decide) only [handleBits, extractLsb'_append_eq_of_add_le, extractLsb'_eq_self]

theorem header_timeBits (op : U8) (h : Hdr) (f : TimeF) : (timeBits op h f).extractLsb' 0 64 = hdrBits op h := by
  simp (disch := decide) only [timeBits, extractLsb'_append_eq_of_add_le, extractLsb'_eq_self]

end

/-- Settles O60: the decoder undoes the encoder field by field. -/
theorem urgentRoundTrip : Obligations.UrgentRoundTrip := by
  unfold Obligations.UrgentRoundTrip
  intro page slot irq h
  constructor
  · intro f
    simp only [urgMsg, urgBits, viaHdr, header_handleBits, hdrOf_hdrBits, opOf_hdrBits, handleOf_handleBits, if_true]
  · intro f
    simp only [urgMsg, urgBits, viaHdr, header_timeBits, hdrOf_hdrBits, opOf_hdrBits, timeOf_timeBits, if_true]
    rfl

/-! ### What the events of power and heat leave (O53) -/

/-- Every field that the events of power and heat leave as it was. -/
def HeatOnly (t s : State) : Prop :=
  t.reqs = s.reqs ∧ t.gens = s.gens ∧ t.tens = s.tens ∧ t.plots = s.plots ∧ t.seed = s.seed ∧ t.gh = s.gh ∧ t.prn = s.prn
    ∧ t.disp = s.disp ∧ t.wdog = s.wdog ∧ t.elog = s.elog ∧ t.arbs = s.arbs ∧ t.trc = s.trc

theorem HeatOnly.refl (s : State) : HeatOnly s s := ⟨rfl, rfl, rfl, rfl, rfl, rfl, rfl, rfl, rfl, rfl, rfl, rfl⟩

theorem HeatOnly.trans {a b c : State} (h : HeatOnly a b) (k : HeatOnly b c) : HeatOnly a c := by
  unfold HeatOnly at *
  simp only [h, k, and_self]

theorem HeatOnly.ite {c : Prop} [Decidable c] {a b s : State} (h : HeatOnly a s) (k : HeatOnly b s) :
    HeatOnly (if c then a else b) s := by
  split
  · exact h
  · exact k

/-- The fields that power and heat own, and the ports they write. -/
theorem heatOnly_form (s : State) (ctl : Ctl) (ps : List Page) (o : Out) (w : Pwr) (l : Led) (th : Teth) (sw : Sow) :
    HeatOnly { s with ctl := ctl, pages := ps, out := o, pwr := w, led := l, teth := th, sow := sw } s :=
  ⟨rfl, rfl, rfl, rfl, rfl, rfl, rfl, rfl, rfl, rfl, rfl, rfl⟩

theorem heatOnly_vecEvent (p v : Nat) (s : State) : HeatOnly (vecEvent p v s) s := by
  obtain ⟨ps, o, e⟩ := vecEvent_form p v s
  rw [e]
  exact heatOnly_form s s.ctl ps o s.pwr s.led s.teth s.sow

theorem heatOnly_flagged (op : State → State) (s : State) (h : HeatOnly (op s) s) : HeatOnly (flagged op s) s := by
  unfold flagged
  exact HeatOnly.ite ((heatOnly_vecEvent mgmt 4 _).trans h) h

theorem heatOnly_powerSample (p : Sample) (s : State) : HeatOnly (powerSample p s) s := by
  unfold powerSample
  apply heatOnly_flagged
  dsimp only
  exact HeatOnly.ite (heatOnly_form s s.ctl s.pages s.out _ _ s.teth s.sow) (heatOnly_form s s.ctl s.pages s.out _ _ s.teth s.sow)

theorem heatOnly_thermalUpdate (s : State) : HeatOnly (thermalUpdate s) s := by
  unfold thermalUpdate
  exact HeatOnly.ite (HeatOnly.refl s) (heatOnly_form s s.ctl s.pages s.out _ s.led s.teth s.sow)

theorem heatOnly_sendSlow (hot : BitVec 12) (b : BitVec 4) (s : State) : HeatOnly (sendSlow hot b s) s := by
  unfold sendSlow
  exact HeatOnly.ite (heatOnly_form s s.ctl s.pages _ s.pwr s.led _ s.sow) (HeatOnly.refl s)

theorem heatOnly_slowStep (l : Nat) (s : State) : HeatOnly (slowStep l s) s := by
  unfold slowStep
  exact (heatOnly_sendSlow _ _ _).trans
    (HeatOnly.ite (heatOnly_form s s.ctl s.pages s.out s.pwr s.led s.teth _) (HeatOnly.refl s))

theorem heatOnly_setStep (l : Nat) (b : BitVec 4) (s : State) : HeatOnly (setStep l b s) s :=
  (heatOnly_vecEvent mgmt 4 _).trans (heatOnly_form s s.ctl s.pages s.out _ s.led s.teth s.sow)

theorem heatOnly_ladderMove (l : Nat) (s : State) : HeatOnly (ladderMove l s) s := by
  unfold ladderMove
  exact HeatOnly.ite (HeatOnly.refl s) (HeatOnly.ite ((heatOnly_slowStep l _).trans (heatOnly_setStep l _ s))
    (HeatOnly.ite (heatOnly_setStep l _ s) (HeatOnly.refl s)))

theorem heatOnly_askSensor (i : Nat) (s : State) : HeatOnly (askSensor i s) s :=
  heatOnly_form s s.ctl s.pages _ _ s.led s.teth s.sow

theorem heatOnly_sensorRead (i : Nat) (s : State) : HeatOnly (sensorRead i s) s := by
  unfold sensorRead
  exact HeatOnly.ite (heatOnly_askSensor i s) (HeatOnly.ite ((heatOnly_askSensor i _).trans
    (heatOnly_form s s.ctl s.pages s.out _ s.led s.teth s.sow)) (HeatOnly.refl s))

theorem heatOnly_samplesSilent (s : State) : HeatOnly (samplesSilent s) s := by
  unfold samplesSilent
  exact HeatOnly.ite (HeatOnly.refl s) (heatOnly_flagged _ s (heatOnly_form s s.ctl s.pages s.out _ s.led s.teth s.sow))

theorem heatOnly_live {is : List Nat} {s t : State} {op : State → State} (h : ∀ s, HeatOnly (op s) s)
    (e : live is s op = .next t) : HeatOnly t s := by
  unfold live liveQuiet at e
  split at e
  · cases e
  · cases e
    exact (h _).trans (heatOnly_form s _ s.pages s.out s.pwr s.led s.teth s.sow)

theorem heatOnly_own {is : List Nat} {s t : State} {op : State → State} (h : ∀ s, HeatOnly (op s) s)
    (e : own is s op = .next t) : HeatOnly t s :=
  heatOnly_live (fun s => HeatOnly.ite (h s) (HeatOnly.refl s)) e

/-- Settles O53: each event keeps every field of `HeatOnly`. -/
theorem powerFrame : Obligations.PowerFrame := by
  unfold Obligations.PowerFrame
  intro p i n l c s t hc e
  change HeatOnly t s
  obtain rfl | rfl | rfl | rfl | rfl | rfl := hc
  · exact heatOnly_live (fun s => HeatOnly.ite (HeatOnly.refl s) (heatOnly_powerSample p s)) e
  · exact heatOnly_live (fun s => heatOnly_form s s.ctl s.pages s.out _ s.led s.teth s.sow) e
  · exact heatOnly_own heatOnly_thermalUpdate e
  · exact heatOnly_own (heatOnly_ladderMove l.val) e
  · exact heatOnly_own (heatOnly_sensorRead n.val) e
  · exact heatOnly_own heatOnly_samplesSilent e

/-! ### POWER_SAMPLE (O41) -/

/-- The registers of power after a sample. -/
def sampledPwr (p : Sample) (s : State) : Pwr :=
  { s.pwr with
    nodes := (List.range 24).map (fun i => (s.node i).sample i (p.nodes.getD i 0xFFFF))
    modFlag := p.module = 0xFFFF || 24000 < p.module.toNat
    coolFlag := !(-320 ≤ p.coolant.toInt && p.coolant.toInt ≤ 1280)
    coolant := if -320 ≤ p.coolant.toInt && p.coolant.toInt ≤ 1280 then p.coolant.toInt else s.pwr.coolant
    seq := p.seq
    gotAny := true
    silent := false
    lastAt := s.ctl.lcc
    missed := satAdd s.pwr.missed (if s.pwr.gotAny then (p.seq - s.pwr.seq - 1).toNat else 0) }

/-- The power of a sample in 0.125 W: MODULE's, or the nodes' together where MODULE is implausible. -/
def sampledUnits (p : Sample) (s : State) : Nat :=
  if (sampledPwr p s).modFlag then ((sampledPwr p s).nodes.map (fun n => n.lastP.toNat)).sum else p.module.toNat

/-- POWER_SAMPLE without the vector that a change of a flag raises. -/
def sampled (p : Sample) (s : State) : State :=
  { s with
    pwr := sampledPwr p s
    led := if s.led.inInt then { s.led with curNj := s.led.curNj + sampledUnits p s * 1250 }
      else { s.led with unattr := s.led.unattr + BitVec.ofNat 64 (sampledUnits p s * 1250) } }

theorem flagged_congr {f g : State → State} {s : State} (h : f s = g s) : flagged f s = flagged g s := by
  simp only [flagged, h]

theorem powerSample_eq (p : Sample) (s : State) : powerSample p s = flagged (sampled p) s := by
  refine flagged_congr ?_
  rw [sampled]
  cases h : s.led.inInt
  · exact if_neg (by rw [show (onPwr _ s).led.inInt = s.led.inInt from rfl, h]; decide)
  · exact if_pos h

theorem flagged_eq (op : State → State) (s : State) :
    flagged op s = if (op s).sensorFlags = s.sensorFlags then op s else vecEvent mgmt 4 (op s) := ite_not ..

/-- The largest value delivered since the channel was last unflagged. -/
theorem maxP_eq (n : PNode) (v : U16) (good : Prop) [Decidable good] :
    (if v = 0xFFFF then n.maxP else if decide good && n.flagged then v else if n.maxP.toNat < v.toNat then v else n.maxP)
      = if v = 0xFFFF ∨ (¬ (good ∧ n.flagged = true) ∧ v.toNat ≤ n.maxP.toNat) then n.maxP else v := by
  simp only [Bool.and_eq_true, decide_eq_true_eq]
  by_cases h0 : v = 0xFFFF
  · rw [if_pos h0, if_pos (.inl h0)]
  · by_cases h1 : good ∧ n.flagged = true
    · rw [if_neg h0, if_pos h1, if_neg (fun h => h.elim h0 (fun h => h.1 h1))]
    · by_cases h2 : n.maxP.toNat < v.toNat
      · rw [if_neg h0, if_neg h1, if_pos h2, if_neg (fun h => h.elim h0 (fun h => Nat.not_le.mpr h2 h.2))]
      · rw [if_neg h0, if_neg h1, if_neg h2, if_pos (.inr ⟨h1, Nat.not_lt.mp h2⟩)]

/-- How a channel takes a value. -/
theorem sample_eq (n : PNode) (i : Nat) (v : U16) :
    let good := v ≠ 0xFFFF ∧ v.toNat ≤ (if i < 12 then 6400 else 1200)
    let most := if v = 0xFFFF ∨ (¬ (good ∧ n.flagged = true) ∧ v.toNat ≤ n.maxP.toNat) then n.maxP else v
    let taken := if good then v else most
    n.sample i v = { n with
      flagged := decide (¬ good)
      maxP := most
      lastP := taken
      sum := n.sum + taken.toNat
      n := n.n + 1 } := by
  intro good most taken
  have hg : (v ≠ 0xFFFF && decide (v.toNat ≤ nodeMax i)) = decide good := (Bool.decide_and ..).symm
  have ht : (if decide good = true then v else most) = taken := by simp only [decide_eq_true_eq, taken]
  rw [PNode.sample, hg, maxP_eq n v good, ht, ← decide_not]

theorem node_sampled (p : Sample) (s : State) (i : Nat) (h : i < 24) :
    (sampled p s).node i = (s.node i).sample i (p.nodes.getD i 0xFFFF) := by
  change ((List.range 24).map (fun i => (s.node i).sample i (p.nodes.getD i 0xFFFF))).getD i {} = _
  rw [List.getD_eq_getElem _ _ (by simpa using h), List.getElem_map, List.getElem_range]

theorem powerSample_next (p : Sample) (s : State) (hk : Known s) : exec (.powerSample p) s
    = .next (if s.freezing || s.ctl.phase = .dormant then ungate [15] s else powerSample p (ungate [15] s)) := by
  change execPowerSample p s = _
  rw [execPowerSample, live_next _ s _ hk]
  rfl

/-- Settles O41: the sample's values, and the channel's rule of `sample_eq` for each node. -/
theorem powerSampleTaken : Obligations.PowerSampleTaken := by
  unfold Obligations.PowerSampleTaken
  refine ⟨fun p s hk h => ?_, fun p s hk hf hd => ⟨sampled p (ungate [15] s), ?_⟩⟩
  · rw [powerSample_next p s hk, if_pos (by simpa using h)]
  · have e : exec (.powerSample p) s = .next (if (sampled p (ungate [15] s)).sensorFlags = s.sensorFlags
        then sampled p (ungate [15] s) else vecEvent mgmt 4 (sampled p (ungate [15] s))) := by
      rw [powerSample_next p s hk, if_neg (by simp [hf, hd]), powerSample_eq, flagged_eq]
      rfl
    refine ⟨e, rfl, rfl, rfl, rfl, ?_, ?_, ?_, ?_, ?_, fun i hi => ?_, ⟨fun hl => ?_, fun hl => ?_⟩, rfl, rfl, rfl, rfl, rfl, rfl⟩
    · change (decide (p.module = 0xFFFF) || decide (24000 < p.module.toNat)) = true ↔ _
      rw [Bool.or_eq_true, decide_eq_true_eq, decide_eq_true_eq]
    · change (!(decide (-320 ≤ p.coolant.toInt) && decide (p.coolant.toInt ≤ 1280))) = true ↔ _
      rw [Bool.not_eq_true', ← Bool.not_eq_true, Bool.and_eq_true, decide_eq_true_eq, decide_eq_true_eq]
    · intro h
      exact if_neg (by rw [Bool.not_eq_true, ← Bool.not_eq_true']; exact h)
    · intro h
      exact if_pos (by rw [← Bool.not_eq_false']; exact h)
    · exact (List.length_map _).trans List.length_range
    · exact (node_sampled p _ i hi).trans (sample_eq _ _ _)
    · exact if_pos hl
    · exact if_neg (by rw [show (ungate [15] s).led.inInt = s.led.inInt from rfl, hl]; decide)

end Sys2Proof.Machine
end

section
/-! SUPPORT. The model of heat, the ladders and the sensors (14 R358 to R365): the proof of O51. -/

namespace Sys2Proof.Machine

theorem thermalUpdate_due (s : State) (hg : s.gdnDown 0 = false) (hl : s.pwr.lcc.toNat + 100000 ≤ s.ctl.lcc.toNat) (t : State)
    (ht : t = thermalUpdate s) : t.pwr.lcc = s.ctl.lcc ∧ t.pwr.budgets = s.budgetsNow
      ∧ (∀ i, i < 24 → (t.node i).est = ((s.node i).taken.getD
          (thermalNext i (s.pwr.nodes.map (fun n => n.est)) (s.pwr.nodes.map (fun n => n.mean s.pwr.silent)) s.pwr.coolant)))
      ∧ t.pages = s.pages ∧ t.reqs = s.reqs ∧ t.elog = s.elog := by
  rw [thermalUpdate, if_neg (by simp only [hg, Bool.false_or, decide_eq_true_eq]; omega)] at ht
  subst ht
  refine ⟨rfl, rfl, fun i hi => ?_, rfl, rfl, rfl⟩
  unfold State.node coolMarks onPwr
  dsimp only
  rw [List.getD_eq_getElem _ _ (by simpa using hi), List.getElem_map, List.getElem_range]
  change (match (s.node i).taken with | some t => t | none => _) = (s.node i).taken.getD _
  cases (s.node i).taken
  · rfl
  · rfl

/-- A ladder moves at a model update alone, and while gardener core 0 runs. -/
theorem ladderMove_still (l : Nat) (s : State) (h : s.gdnDown 0 = true ∨ s.pwr.lcc ≠ s.ctl.lcc) : ladderMove l s = s :=
  if_pos (by simpa using h)

theorem ladderMove_lowers (l : Nat) (s : State) (hg : s.gdnDown 0 = false) (hl : s.pwr.lcc = s.ctl.lcc)
    (ho : s.over l = true ∨ s.pwr.silent = true) (hr : (s.pwr.ladders.getD l {}).rested 5 s.ctl.lcc = true)
    (hb : (s.pwr.ladders.getD l {}).b ≠ 15) :
    ladderMove l s = slowStep l (setStep l ((s.pwr.ladders.getD l {}).b + 1) s) := by
  rw [ladderMove, if_neg (by simp [hg, hl])]
  dsimp only
  generalize s.pwr.ladders.getD l {} = x at *
  exact if_pos (by simpa only [hr, decide_eq_true hb, Bool.and_true, Bool.or_eq_true] using ho)

theorem ladderMove_raises (l : Nat) (s : State) (c : U64) (hg : s.gdnDown 0 = false) (hl : s.pwr.lcc = s.ctl.lcc)
    (ho : s.over l = false) (hc : s.coolNow l = true) (hs : s.pwr.silent = false) (hb : (s.pwr.ladders.getD l {}).b ≠ 0)
    (hr : (s.pwr.ladders.getD l {}).rested 50 s.ctl.lcc = true) (hx : (s.pwr.ladders.getD l {}).cool = some c)
    (ht : c.toNat + 50000000 ≤ s.ctl.lcc.toNat) : ladderMove l s = setStep l ((s.pwr.ladders.getD l {}).b - 1) s := by
  rw [ladderMove, if_neg (by simp [hg, hl])]
  dsimp only
  generalize s.pwr.ladders.getD l {} = x at *
  rw [if_neg (by simp [ho, hs]), if_pos (by simp [hc, hs, hr, hx, ht]; exact hb)]

/-- A sensor is near its limit and was asked 10 ms ago or more. -/
theorem sensorRead_first (i : Nat) (s : State) (h : (s.node i).lastAsk = none) : sensorRead i s = askSensor i s :=
  if_pos (by rw [h]; rfl)

theorem sensorRead_hot (i : Nat) (a : U64) (s : State) (h : (s.node i).lastAsk = some a)
    (hh : s.limitOf i - 80 ≤ (s.node i).est ∧ a.toNat + 10000000 ≤ s.ctl.lcc.toNat) : sensorRead i s = askSensor i s :=
  if_pos (by simp only [h, State.near, hh, decide_true, Bool.and_self, Bool.or_true])

theorem sensorRead_cold (i : Nat) (a : U64) (s : State) (h : (s.node i).lastAsk = some a)
    (hh : ¬ (s.limitOf i - 80 ≤ (s.node i).est ∧ a.toNat + 10000000 ≤ s.ctl.lcc.toNat)) : sensorRead i s =
      if s.pwr.turn = i ∧ s.pwr.turnAt.toNat + 100000000 ≤ s.ctl.lcc.toNat
      then askSensor i (onPwr (fun w => { w with turn := (w.turn + 1) % 24, turnAt := s.ctl.lcc }) s) else s := by
  rw [sensorRead, if_neg]
  · simp only [Bool.and_eq_true, decide_eq_true_eq]
  · simpa only [h, State.near, Option.isNone_some, Bool.false_or, Bool.and_eq_true, decide_eq_true_eq] using hh

theorem sensorAnswer_asked (i : Nat) (u : U16) (s : State) (h : (s.node i).asked = true) :
    let x := readout i u
    let ok := s.plausible i x && (s.node i).inTime s.ctl.lcc
    let v := flagged (onNode i (fun n =>
      { n with
        asked := false
        sensorBad := !ok
        taken := if ok then some x else n.taken })) s
    sensorAnswer i u s = if i < 12 then v else stackRead (i - 12) (if ok then BitVec.ofInt 8 (x / 16) else 0x80) v := by
  rw [sensorAnswer, h]
  exact if_neg (by decide)

theorem sensorTimeout_late (i : Nat) (a : U64) (s : State) (h : (s.node i).asked = true) (ha : (s.node i).lastAsk = some a)
    (hl : a.toNat + 1000000 ≤ s.ctl.lcc.toNat) :
    let v := flagged (onNode i (fun n => { n with asked := false, sensorBad := true })) s
    sensorTimeout i s = if i < 12 then v else stackRead (i - 12) 0x80 v := by
  simp only [sensorTimeout, h, ha, if_neg (Nat.not_lt.mpr hl)]

theorem samplesSilent_late (s : State) (h : s.pwr.silent = false) (hl : s.pwr.lastAt.toNat + 1000000 ≤ s.ctl.lcc.toNat) :
    samplesSilent s = flagged (onPwr (fun w =>
      { w with
        silent := true
        modFlag := true
        nodes := w.nodes.map (fun n => { n with flagged := true }) })) s :=
  if_neg (by rw [h, Bool.false_or, decide_eq_true_eq]; omega)

/-- Settles O51: each event's own branches. -/
theorem thermalEvents : Obligations.ThermalEvents := by
  unfold Obligations.ThermalEvents
  intro s hs u
  obtain ⟨hk, ha, hf⟩ := hs
  have hown : ∀ is op, own is s op = .next (op (ungate is s)) := fun is op => own_next is s op hk ha hf
  have hsettle : ∀ is op, ownSettle is s op = .next (settle (op (ungate is s))) := fun is op => ownSettle_next is s op hk ha hf
  refine ⟨fun hg hl => ?_, fun l hg hl => ⟨fun ho hr hb => ?_, fun c ho hc hz hb hr hx ht => ?_⟩, fun l h => ?_, fun i h => ?_,
    fun i a h => ⟨fun hh => ?_, fun hh ht => ?_, fun hh ht => ?_⟩, fun i t h => ?_, fun i a h hx hl => ?_, fun h hl => ?_⟩
  · obtain ⟨h1, h2, h3, h4⟩ := thermalUpdate_due u hg hl _ rfl
    refine ⟨thermalUpdate u, hown _ _, h1, h2, fun i hi => (h3 i hi).trans ?_, h4⟩
    change (s.node i).taken.getD _ = _
    cases (s.node i).taken
    · rfl
    · rfl
  · exact (hown _ _).trans (congrArg _ (ladderMove_lowers l.val (ungate [15] s) hg hl ho hr hb))
  · exact (hown _ _).trans (congrArg _ (ladderMove_raises l.val (ungate [15] s) c hg hl ho hc hz hb hr hx ht))
  · exact (hown _ _).trans (congrArg _ (ladderMove_still l.val (ungate [15] s) h))
  · exact (hown _ _).trans (congrArg _ (sensorRead_first i.val u h))
  · exact (hown _ _).trans (congrArg _ (sensorRead_hot i.val a u h hh))
  · exact (hown _ _).trans (congrArg _ ((sensorRead_cold i.val a u h hh).trans (if_pos ht)))
  · exact (hown _ _).trans (congrArg _ ((sensorRead_cold i.val a u h hh).trans (if_neg ht)))
  · change execSensorAnswer i t s = _
    rw [execSensorAnswer, hsettle]
    exact settled_congr (sensorAnswer_asked i.val t u h)
  · change execSensorTimeout i s = _
    rw [execSensorTimeout, hsettle]
    exact settled_congr (sensorTimeout_late i.val a u h hx hl)
  · exact (hown _ _).trans (congrArg _ (samplesSilent_late u h hl))

end Sys2Proof.Machine
end

section
/-! SUPPORT. A block that does not run: nothing is fetched, and a stalled block writes its error log alone (15 R374, 18 R439): the proof
of O43. -/

namespace Sys2Proof.Machine

/-! ### Settling a block that does not run -/

theorem serves_asleep (s : State) (p : Nat) (h : s.awake = false) : s.serves p = false := by
  simp only [State.serves, h, Bool.and_false, Bool.false_and]

theorem pumpUrgent_asleep (n : Nat) (s : State) (h : s.awake = false) : pumpUrgent n s = s := by
  have hk : ∀ p, s.urgKey p = none := by
    intro p
    unfold State.urgKey
    split
    · exact if_neg (by rw [serves_asleep s p h]; decide)
    · rfl
  cases n with
  | zero => rfl
  | succ n => simp only [pumpUrgent, leastBy_none s.urgKey _ (fun p _ => hk p)]

theorem ringKey_asleep (s : State) (p : Nat) (h : s.awake = false) : s.ringKey p = none := by
  unfold State.ringKey
  dsimp only
  split
  · exact if_neg (by rw [serves_asleep s p h, Bool.false_and, Bool.false_and]; decide)
  · rfl

theorem beginFetch_asleep (p : Nat) (s : State) (h : s.awake = false) : beginFetch p s = s := by
  unfold beginFetch
  dsimp only
  split
  · exact if_neg (by simp only [serves_asleep s p h, Bool.false_and]; decide)
  · rfl

theorem each_beginFetch_asleep (l : List Nat) (s : State) (h : s.awake = false) : each l beginFetch s = s := by
  induction l with
  | nil => rfl
  | cons p l ih =>
    change each l beginFetch (beginFetch p s) = s
    rw [beginFetch_asleep p s h, ih]

/-- A block that does not run fetches and handles nothing. -/
theorem settle_asleep (s : State) (h : s.awake = false) : settle s = s := by
  have hf : freed s = s := if_neg (by rw [h, Bool.false_and]; decide)
  simp only [settle, pumpUrgent_asleep _ s h, pumpRing_of_no_turn _ (fun p => ringKey_asleep s p h), hf, each_beginFetch_asleep _ s h]

theorem awake_logErr (e : ErrIn) (s : State) : (logErr e s).awake = s.awake := by
  obtain ⟨ps, o, l, h⟩ := logErr_form e s
  rw [h]
  rfl

/-! ### The block's own events -/

/-- An event of the block's own work changes nothing while the block is frozen or does not run. -/
theorem own_still (is : List Nat) (s : State) (op : State → State) (hk : Known s) (h : s.freezing = true ∨ s.awake = false) :
    own is s op = .next (ungate is s) := by
  rw [own, live_next is s _ hk]
  refine congrArg _ (if_neg ?_)
  change ¬ (s.awake && !s.freezing) = true
  obtain h | h := h
  · rw [h, Bool.not_true, Bool.and_false]; decide
  · rw [h, Bool.false_and]; decide

/-- One that a stalled block records changes nothing while the block is frozen, or neither runs nor is stalled. -/
theorem ownLogged_still (is : List Nat) (s : State) (op : State → State) (hk : Known s)
    (h : s.freezing = true ∨ (s.awake = false ∧ s.wdog.stalled = false)) : ownLogged is s op = .next (ungate is s) := by
  rw [ownLogged, live_next is s _ hk]
  refine congrArg _ (if_neg ?_)
  change ¬ ((s.awake || s.wdog.stalled) && !s.freezing) = true
  obtain h | ⟨h, k⟩ := h
  · rw [h, Bool.not_true, Bool.and_false]; decide
  · rw [h, k, Bool.or_self, Bool.false_and]; decide

/-- An outcome that only wakes islands. -/
def StandsStill (s : State) (o : Host.Outcome State Fault Refusal) : Prop := ∃ is, o = .next (ungate is s)

theorem standsStill_own {is : List Nat} {s : State} {op : State → State} (hk : Known s) (h : s.freezing = true ∨ s.awake = false) :
    StandsStill s (own is s op) := ⟨is, own_still is s op hk h⟩

theorem standsStill_ownSettle {is : List Nat} {s : State} {op : State → State} (hk : Known s)
    (h : s.freezing = true ∨ s.awake = false) : StandsStill s (ownSettle is s op) := ⟨is, own_still is s _ hk h⟩

theorem standsStill_ownLogged {is : List Nat} {s : State} {op : State → State} (hk : Known s)
    (h : s.freezing = true ∨ (s.awake = false ∧ s.wdog.stalled = false)) : StandsStill s (ownLogged is s op) :=
  ⟨is, ownLogged_still is s op hk h⟩

/-- Every event of the block's own has one of these three forms. -/
theorem own_standsStill (c : Instr) (s : State) (hc : isOwn c = true) (hk : Known s)
    (h : s.freezing = true ∨ (s.awake = false ∧ (s.wdog.stalled = false ∨ isLogged c = false))) : StandsStill s (exec c s) := by
  have hw : s.freezing = true ∨ s.awake = false := h.imp_right And.left
  have hl : isLogged c = true → s.freezing = true ∨ (s.awake = false ∧ s.wdog.stalled = false) := by
    intro e
    exact h.imp_right (And.imp_right (fun k => k.resolve_right (by rw [e]; decide)))
  clear h
  obtain rfl | hother := eq_seal_or_other hc
  · exact standsStill_ownSettle hk hw
  clear hc
  cases c
  case sramUe =>
    change StandsStill s (execSramUe _ s)
    exact standsStill_ownLogged hk (hl rfl)
  case gdnRestart core why =>
    change StandsStill s (execGdnRestart core why s)
    exact standsStill_ownLogged hk (hl rfl)
  case gdnOut =>
    change StandsStill s (execGdnOut _ s)
    exact standsStill_ownLogged hk (hl rfl)
  case gdnReattach =>
    change StandsStill s (execGdnReattach _ _ s)
    exact standsStill_ownLogged hk (hl rfl)
  case expiryScan => exact standsStill_ownSettle hk hw
  case sensorAnswer => exact standsStill_ownSettle hk hw
  case sensorTimeout => exact standsStill_ownSettle hk hw
  case wdogBite => exact standsStill_ownSettle hk hw
  case sealWithoutStep => exact standsStill_ownSettle hk hw
  case layout => exact standsStill_ownSettle hk hw
  case spoolRelease => exact standsStill_ownSettle hk hw
  case admissionAttempt => exact standsStill_ownSettle hk hw
  case seedbedRemovalDone => exact standsStill_ownSettle hk hw
  case tenantResetDone => exact standsStill_ownSettle hk hw
  case ledgerRollup => exact standsStill_own hk hw
  case budgetPeriod => exact standsStill_own hk hw
  case thermalUpdate => exact standsStill_own hk hw
  case ladderMove => exact standsStill_own hk hw
  case sensorRead => exact standsStill_own hk hw
  case samplesSilent => exact standsStill_own hk hw
  case spoolTailPoll => exact standsStill_own hk hw
  case arbitrationEvent => exact standsStill_own hk hw
  case arbWindowEnd => exact standsStill_own hk hw
  case debugRevoke => exact standsStill_own hk hw
  case seedbedSweep =>
    change StandsStill s (execSeedbedSweep s)
    exact standsStill_own hk hw
  case workItemDeliver => exact standsStill_own hk hw
  case contextSwitchStart => exact standsStill_own hk hw
  case restoreStart => exact standsStill_own hk hw
  case reloadStart => exact standsStill_own hk hw
  all_goals exact absurd hother Bool.false_ne_true

/-! ### NoC traffic -/

theorem traffic_frozen (c : Instr) (s : State) (h : isTraffic c = true) (hk : Known s) (hf : s.freezing = true) :
    exec c s = .next { ungate (trafficIslands c s) s with nocHeld := s.nocHeld ++ [c] } := by
  rw [exec_traffic c s h, inboundSettle, live_next _ s _ hk]
  exact congrArg _ (if_pos hf)

theorem traffic_taken (c : Instr) (s : State) (h : isTraffic c = true) (hk : Known s) (hf : s.freezing = false) (t : State)
    (ht : nocTake c (ungate (trafficIslands c s) s) = t) : exec c s = .next (settle t) := by
  rw [exec_traffic c s h, inboundSettle_next c s hk hf, ht]

/-- What a gardener core that restarts has to take waits for it. -/
theorem nocTake_waits (c : Instr) (s : State) (a : s.awake = true) (g : (s.takerOf c).any s.gdnDown = true) :
    nocTake c s = onWdog (fun w => { w with gdnWaits := w.gdnWaits ++ [c] }) s := by
  simp only [nocTake, a, g, if_true]

/-- Other traffic into a block that does not run is dropped. -/
theorem nocTake_dropped (c : Instr) (s : State) (a : s.awake = false) (ha : ∀ addr core unit bed ctx, c ≠ .atomicWrite addr core unit bed ctx)
    (h : s.wdog.stalled = false ∨ ((∀ r, c ≠ .hostAccessRefused r) ∧ (∀ p, c ≠ .poisonIndication p) ∧ ∀ f, c ≠ .coreFault f)) :
    nocTake c s = s := by
  unfold nocTake
  rw [if_neg (by rw [a]; decide)]
  split
  · exact absurd rfl (ha _ _ _ _ _)
  · next r =>
    obtain h | ⟨h, -⟩ := h
    · exact if_neg (by rw [h]; decide)
    · exact absurd rfl (h r)
  · next p =>
    obtain h | ⟨-, h, -⟩ := h
    · exact if_neg (by rw [h]; decide)
    · exact absurd rfl (h p)
  · next f =>
    obtain h | ⟨-, -, h⟩ := h
    · exact if_neg (by rw [h]; decide)
    · exact absurd rfl (h f)
  · rfl

/-! ### A stalled block records -/

theorem nocTake_refused (r : Refused) (s : State) (a : s.awake = false) (h : s.wdog.stalled = true) :
    nocTake (.hostAccessRefused r) s = hostRecord r s := by
  rw [nocTake, if_neg (by rw [a]; decide)]
  exact if_pos h

theorem dropped_iff (a b c : Bool) : (!a || (b && c)) = true ↔ ¬ (a = true ∧ ¬ (b = true ∧ c = true)) := by
  revert a b c
  decide

theorem atomicWrite_asleep (addr : Nat) (core : Bool) (unit b c : Nat) (s : State) (a : s.awake = false) :
    atomicWrite addr core unit b c s = if s.inAtomic addr = true ∧ ¬ (core = true ∧ s.wdog.fenced.contains unit = true) then
      logErr { code := 0x06, scope := 2, island := 17, origin := if core then 1 else 2, unit, bed := some (b, c), addr } s else s := by
  have e : ∀ e, (if (logErr e s).awake then teardownNamed b c (logErr e s) else logErr e s) = logErr e s :=
    fun e => if_neg (by rw [awake_logErr, a]; decide)
  rw [atomicWrite]
  dsimp only
  rw [e]
  by_cases h : s.inAtomic addr = true ∧ ¬ (core = true ∧ s.wdog.fenced.contains unit = true)
  · rw [if_pos h, if_neg (fun k => (dropped_iff _ _ _).mp k h)]
  · rw [if_neg h, if_pos ((dropped_iff _ _ _).mpr h)]

theorem nocTake_atomic (addr : U64) (core : Bool) (unit : Nat) (b : Fin 32) (c : Fin 4) (s : State) (a : s.awake = false) :
    nocTake (.atomicWrite addr core unit b c) s = atomicWrite addr.toNat core unit b.val c.val s := by
  rw [nocTake, if_neg (by rw [a]; decide)]

theorem nocTake_poison (p : Poison) (s : State) (a : s.awake = false) (h : s.wdog.stalled = true) :
    nocTake (.poisonIndication p) s = logErr (s.poisonRec p) s := by
  rw [nocTake, if_neg (by rw [a]; decide)]
  refine (if_pos h).trans ?_
  exact if_neg (by rw [awake_logErr, a]; decide)

theorem nocTake_coreFault (f : CoreFault) (s : State) (a : s.awake = false) (h : s.wdog.stalled = true)
    (hf : s.wdog.fenced.contains f.core = false) : nocTake (.coreFault f) s = logErr (s.coreRec f) s := by
  rw [nocTake, if_neg (by rw [a]; decide)]
  refine (if_pos h).trans ?_
  rw [coreFault, if_neg (by rw [hf]; decide)]
  exact if_pos (by rw [awake_logErr, a]; rfl)

theorem sramUe_row_asleep (row : BitVec 13) (s : State) (a : s.awake = false) :
    sramUe (.row row) s = logErr (s.rowRec { code := 0x14, detail := 9, island := 9 } row none) s :=
  if_neg (by rw [awake_logErr, a]; decide)

theorem sramUe_nodeCache_asleep (s : State) (a : s.awake = false) :
    sramUe .nodeCache s = logErr { code := 0x14, scope := 0, detail := 13, island := 13 } s :=
  if_neg (by rw [awake_logErr, a]; decide)

/-- An error in the SRAM of AON or NOCB is fatal. -/
theorem sramUe_fatal (i : Fin 18) (lost : List U32) (s : State) (h : i = 0 ∨ i = 17) :
    sramUe (.other i lost) s = fatal 0x14 (logErr { code := 0x14, scope := 7, detail := i.val, island := i.val } s) := by
  have hi : i.val = 0 ∨ i.val = 17 := h.imp (congrArg Fin.val) (congrArg Fin.val)
  rw [sramUe]
  dsimp only
  rw [if_neg (by simp; omega), if_pos (by simpa using hi)]

/-- The record of an error in another island's SRAM, and what it brings about where the block runs. -/
theorem sramUe_island (i : Fin 18) (lost : List U32) (s : State) (h : 9 ≤ i.val) (hi : i ≠ 17) :
    sramUe (.other i lost) s =
      let t := logErr { code := 0x14, scope := 4, detail := i.val, island := i.val } s
      if t.awake then each lost (fun h s => endCause h 0x30 s) (islandReset i.val 0x14 false t) else t := by
  have hn : i.val ≠ 17 := fun e => hi (Fin.ext e)
  rw [sramUe]
  dsimp only
  rw [if_neg (by simp; omega), if_neg (by simp; omega)]

/-- Settles O43: events of the block's own wait for it to run, traffic is taken, held or dropped, and a stalled block records. -/
theorem trafficHeldOrDropped : Obligations.TrafficHeldOrDropped := by
  unfold Obligations.TrafficHeldOrDropped
  refine ⟨fun c s hc hk h => ?_, fun c s hc hk => ?_, fun s hk hf hs => ?_⟩
  · exact own_standsStill c s hc hk h
  · refine ⟨fun hr hg => traffic_next c s hc hr hg, fun hr hg => ?_, traffic_frozen c s hc hk, fun hf ha hat h => ?_⟩
    · obtain ⟨-, ha, hf⟩ := hr
      exact traffic_taken c s hc hk hf _ (nocTake_waits c (ungate (trafficIslands c s) s) ha hg)
    · rw [traffic_taken c s hc hk hf _ (nocTake_dropped c (ungate (trafficIslands c s) s) ha hat h)]
      exact congrArg _ (settle_asleep (ungate (trafficIslands c s) s) ha)
  · have ha : s.awake = false := by rw [State.awake, hs]; exact Bool.and_false _
    have htake : ∀ c, isTraffic c = true → ∀ t, nocTake c (ungate (trafficIslands c s) s) = t → exec c s = .next (settle t) :=
      fun c hc t ht => traffic_taken c s hc hk hf t ht
    have hlog : ∀ a, exec (.sramUe a) s = .next (settle (sramUe a (ungate (sramIslands a) s))) := by
      intro a
      change execSramUe a s = _
      rw [execSramUe, ownLogged_next _ s _ hk (by rw [hs]; exact Bool.or_true _) hf]
    refine ⟨fun r => ?_, fun addr core unit bed ctx => ?_, fun p => ?_, fun f hn => ?_, fun row => ?_, ?_, fun i lost hi => ?_,
      fun i lost h9 hi => ?_, fun c why => ?_⟩
    · exact htake (.hostAccessRefused r) rfl _ (nocTake_refused r _ ha hs)
    · exact htake (.atomicWrite addr core unit bed ctx) rfl _ ((nocTake_atomic addr core unit bed ctx (ungate [17] s) ha).trans
        (atomicWrite_asleep _ _ _ _ _ (ungate [17] s) ha))
    · exact htake (.poisonIndication p) rfl _ (nocTake_poison p _ ha hs)
    · exact htake (.coreFault f) rfl _ (nocTake_coreFault f _ ha hs hn)
    · exact (hlog _).trans (settled_congr (sramUe_row_asleep row _ ha))
    · exact (hlog _).trans (settled_congr (sramUe_nodeCache_asleep _ ha))
    · exact (hlog _).trans (settled_congr (sramUe_fatal i lost _ hi))
    · refine (hlog _).trans (settled_congr ((sramUe_island i lost _ h9 hi).trans ?_))
      exact if_neg (by rw [awake_logErr]; exact ne_true_of_eq_false ha)
    · exact ownLogged_next _ s _ hk (by rw [hs]; exact Bool.or_true _) hf

end Sys2Proof.Machine
end

section
/-! SUPPORT. The phases of the block (16 R398 to R411), and the layout and seal of a step (05 R118 to R127): the proofs of O42 and O45. -/

namespace Sys2Proof.Machine

/-! ### The image and the phases -/

theorem ctl_logErr (e : ErrIn) (s : State) : (logErr e s).ctl = s.ctl := by
  obtain ⟨ps, o, l, h⟩ := logErr_form e s
  rw [h]

theorem ctl_hostFault (p detail addr handle : Nat) (s : State) : (hostFault p detail addr handle s).ctl = s.ctl := by
  unfold hostFault
  split
  · exact ctl_logErr _ s
  · exact ctl_logErr _ s

/-- The reads of an image change no control register. -/
theorem ctl_imageRead (seen : ImageSeen) (s : State) : (imageRead seen s).ctl = s.ctl := by
  unfold imageRead
  dsimp only
  split
  · exact ctl_hostFault _ _ _ _ _
  · rfl

/-- What an image is checked against lies in the control registers alone. -/
theorem imageErr_congr (seen : ImageSeen) {s t : State} (h : t.ctl = s.ctl) : imageErr seen t = imageErr seen s := by
  unfold imageErr State.imageOf
  rw [h]

theorem rereadErr_congr (seen : ImageSeen) {s t : State} (h : t.ctl = s.ctl) : rereadErr seen t = rereadErr seen s := by
  unfold rereadErr State.imageOf
  rw [h]

theorem imageVerified_next (seen : ImageSeen) (s : State) (hk : Known s) :
    exec (.imageVerified seen) s = .next (imageVerified seen (ungate [1] s)) := by
  change execImageVerified seen s = _
  rw [execImageVerified, live_next _ s _ hk]

/-- The accepted image's registers, and INIT. -/
def imageTaken (img : List U8) (s : State) : State :=
  setPhase .init (onCtl (fun c =>
    { c with
      initOf := .start
      fwAccepted := true
      fwLine := 3
      fwMinor := BitVec.ofNat 8 (imgFld img 9 1)
      fwBuild := BitVec.ofNat 16 (imgFld img 10 2)
      fwKey := keyOf img
      fwDigest := imageDigest img
      fwCores := coreDigests img
      fwTexts := imageTexts img
      gdnClear := false }) s)

theorem imageVerified_verifying (seen : ImageSeen) (s : State) (hf : s.freezing = false) (hp : s.ctl.phase = .verifying) :
    imageVerified seen s = if imageErr seen s = 0 then imageTaken (s.imageOf seen) (imageRead seen s)
      else imageFail (imageErr seen s) (imageRead seen s) := by
  rw [← imageErr_congr seen (ctl_imageRead seen s), imageVerified, if_neg (by rw [hf]; decide), if_pos hp]
  dsimp only
  cases imageErr seen (imageRead seen s)
  · exact (if_pos rfl).symm
  · exact (if_neg (Nat.succ_ne_zero _)).symm

theorem imageVerified_reread (seen : ImageSeen) (s : State) (hf : s.freezing = false) (hp : s.ctl.phase = .init)
    (ho : s.ctl.initOf = .blockReset) : imageVerified seen s = if rereadErr seen s = 0
      then onCtl (fun c => { c with fwReread := true }) (imageRead seen s) else imageFail (rereadErr seen s) (imageRead seen s) := by
  rw [← rereadErr_congr seen (ctl_imageRead seen s), imageVerified, if_neg (by rw [hf]; decide), if_neg (by rw [hp]; decide),
    if_pos (by rw [hp, ho]; rfl)]
  dsimp only
  cases rereadErr seen (imageRead seen s)
  · exact (if_pos rfl).symm
  · exact (if_neg (Nat.succ_ne_zero _)).symm

theorem startReady_init (s : State) (hf : s.freezing = false) (hp : s.ctl.phase = .init) (ho : s.ctl.initOf = .start) :
    startReady s = tetherOn (setPhase .ready (thermalStart (onCtl (fun c => { c with atomic := some Config.atomicBase })
      ((fillFixed s).onPage mgmt (fun g => { g with isOpen := true }))))) :=
  if_neg (by rw [hf, hp, ho]; decide)

/-- The steps 3 to 6 of a block reset. -/
def stepsThreeToSix (refused : List (U32 × U64)) (s : State) : State :=
  let kept := keepModels (clearStores (each (s.reqs.map (fun e => e.2.handle)) (resetEnd refused) s))
  let run := (thermalStart (restartBeds kept)).onPage mgmt (fun g => { g with gen := g.gen + 1, isOpen := true })
  tetherOn (setPhase .ready (onCtl (fun c => { c with blockResets := satInc c.blockResets, fwReread := false }) run))

theorem blockResetReady_next (refused : List (U32 × U64)) (s : State) (hk : Known s) :
    exec (.blockResetReady refused) s = .next (settle (blockResetReady refused (ungate gdnIslands s))) := by
  change execBlockResetReady refused s = _
  rw [execBlockResetReady, liveSettle_next _ s _ hk]

theorem blockResetReady_init (refused : List (U32 × U64)) (s : State) (hf : s.freezing = false) (hp : s.ctl.phase = .init)
    (ho : s.ctl.initOf = .blockReset) : blockResetReady refused s =
      if !s.ctl.fwAccepted then imageFail 5 s else if !s.ctl.fwReread then s else stepsThreeToSix refused s :=
  if_neg (by rw [hf, hp, ho]; decide)

theorem wakeDone_waking (seen : ImageSeen) (s : State) (hf : s.freezing = false) (hp : s.ctl.phase = .waking) :
    wakeDone seen s = if rereadErr seen s = 0 then tetherOn (setPhase .ready (onCtl (fun c => { c with resumeHold := true })
        (thermalStart (resetArbs (clearLedger (clearCounters (reloadTiles (each (List.range 8) reattach (imageRead seen s)))))))))
      else imageFail (rereadErr seen s) (imageRead seen s) := by
  rw [← rereadErr_congr seen (ctl_imageRead seen s), wakeDone, if_neg (by rw [hp, hf]; decide)]
  dsimp only
  generalize imageRead seen s = t
  generalize rereadErr seen t = e
  generalize tetherOn _ = run
  cases e
  · rfl
  · rfl

theorem dormantDone_sleeping (s : State) (hf : s.freezing = false) (hp : s.ctl.phase = .sleeping) (hs : s.wdog.stalled = false) :
    dormantDone s = if (sealNoStepOp s).ctl.entrySealed && (sealNoStepOp s).drained then powerDown (sealNoStepOp s)
      else sealNoStepOp s :=
  if_neg (by rw [hp, hs, hf]; decide)

/-- Settles O42: each event's branch where its phase stands. -/
theorem phasesChange : Obligations.PhasesChange := by
  unfold Obligations.PhasesChange
  intro s hk hf
  refine ⟨fun seen hp => ?_, fun seen hp ho => ?_, fun hp ho => ?_,
    fun refused hp ho => ⟨fun ha hr => ?_, fun ha hr => ?_, fun ha => ?_⟩, fun seen hp => ?_, fun hp hs => ?_⟩
  · exact (imageVerified_next seen s hk).trans (congrArg _ (imageVerified_verifying seen (ungate [1] s) hf hp))
  · exact (imageVerified_next seen s hk).trans (congrArg _ (imageVerified_reread seen (ungate [1] s) hf hp ho))
  · change execReady s = _
    rw [execReady, liveSettle_next _ s _ hk]
    exact settled_congr (startReady_init (ungate [1] s) hf hp ho)
  · have e := blockResetReady_init refused (ungate gdnIslands s) hf hp ho
    refine (blockResetReady_next refused s hk).trans (settled_congr (e.trans ?_))
    refine (if_neg ?_).trans (if_neg ?_)
    · change ¬ (!s.ctl.fwAccepted) = true
      rw [ha]; decide
    · change ¬ (!s.ctl.fwReread) = true
      rw [hr]; decide
  · have e := blockResetReady_init refused (ungate gdnIslands s) hf hp ho
    refine (blockResetReady_next refused s hk).trans (settled_congr (e.trans ?_))
    refine (if_neg ?_).trans (if_pos ?_)
    · change ¬ (!s.ctl.fwAccepted) = true
      rw [ha]; decide
    · change (!s.ctl.fwReread) = true
      rw [hr]; rfl
  · have e := blockResetReady_init refused (ungate gdnIslands s) hf hp ho
    refine (blockResetReady_next refused s hk).trans (settled_congr (e.trans ?_))
    refine if_pos ?_
    change (!s.ctl.fwAccepted) = true
    rw [ha]; rfl
  · change execWakeDone seen s = _
    rw [execWakeDone, liveSettle_next _ s _ hk]
    exact settled_congr (wakeDone_waking seen (ungate gdnIslands s) hf hp)
  · change execDormantEntryDone s = _
    rw [execDormantEntryDone, live_next _ s _ hk]
    exact congrArg _ (dormantDone_sleeping (ungate gdnIslands s) hf hp hs)

/-! ### The layout and the seal of a step -/

/-- The gap after a step that has ended, or no step. -/
def stepEnded (s : State) : Prop := ∀ x, s.sow.exec = some x → x.ended = true

theorem layoutOp_may (s : State) (h : s.mayLayOut = true) : layoutOp s =
    let a := layOut s
    let num := s.sow.step + 1 + BitVec.ofNat 64 s.sow.laid.length
    restores (if a.2.members = [] ∧ a.2.fallen = [] ∧ a.1.mustTell = false
      then { a.1 with sow := { a.1.sow with back := a.2.back } }
      else sendManifest num a.2 { a.1 with sow := { a.1.sow with laid := a.1.sow.laid ++ [a.2] } }) := by
  rw [layoutOp, if_neg (by rw [h]; decide)]
  dsimp only
  by_cases hc : (layOut s).2.members = [] ∧ (layOut s).2.fallen = [] ∧ (layOut s).1.mustTell = false
  · rw [if_pos hc, if_pos (by simpa [and_assoc] using hc)]
  · rw [if_neg hc, if_neg (by simpa [and_assoc] using hc)]

theorem sealOp_due (s : State) (hl : s.stepLaid = true) (he : stepEnded s) (hc : s.composing = true) (hp : s.ctl.phase = .ready)
    (hh : s.teth.held = false) : sealOp s = sealStep s := by
  unfold sealOp
  cases e : s.sow.exec with
  | none => simp only [hc, hp, hh, hl, decide_true, Bool.not_false, Bool.and_self, if_true]
  | some x => simp only [he x e, hc, hp, hh, hl, decide_true, Bool.not_false, Bool.and_self, if_true]

theorem sealMember_own (s : State) (h : s.grouped = false ∨ s.leader = true) : sealMember s = sealOp s := by
  rw [sealMember]
  refine if_neg ?_
  obtain h | h := h
  · rw [h, Bool.false_and]; decide
  · rw [h, Bool.not_true, Bool.and_false]; decide

theorem sealMember_follower (s : State) (hc : s.composing = true) (hp : s.ctl.phase = .ready) (he : stepEnded s) (hg : s.grouped = true)
    (hl : s.leader = false) (hf : s.teth.formed = true) : sealMember s = followSeal s := by
  unfold sealMember
  cases e : s.sow.exec with
  | none => simp only [hc, hp, hg, hl, hf, decide_true, Bool.not_false, Bool.and_self, if_true]
  | some x => simp only [he x e, hc, hp, hg, hl, hf, decide_true, Bool.not_false, Bool.and_self, if_true]

theorem sealNoStepOp_ready (s : State) (ha : s.awake = true) (hf : s.freezing = false) (hp : s.ctl.phase = .ready)
    (hr : s.ctl.resumeHold = false) (he : stepEnded s) (hl : s.stepLaid = false) : sealNoStepOp s = restores (sealNoStep s) := by
  have hn : ¬ Phase.ready = Phase.sleeping := by decide
  unfold sealNoStepOp
  cases e : s.sow.exec with
  | none => simp only [ha, hf, hp, hr, hl, hn, decide_false, Bool.not_false, Bool.and_self, Bool.false_and, Bool.true_or, if_true,
      Bool.false_eq_true, if_false]
  | some x => simp only [he x e, ha, hf, hp, hr, hl, hn, decide_false, Bool.not_false, Bool.and_self, Bool.false_and, Bool.true_or,
      if_true, Bool.false_eq_true, if_false]

/-- Settles O45: the branch that each command takes where the Sower may run it. -/
theorem stepsSealed : Obligations.StepsSealed := by
  unfold Obligations.StepsSealed
  intro s hs u
  obtain ⟨hk, ha, hf⟩ := hs
  refine ⟨fun h => ?_, fun hl he hc hp hh hg => ?_, fun hc hp he hg hl hm => ?_, fun hp hr he hl => ?_, ?_⟩
  · change execLayout s = _
    rw [execLayout, ownSettle_next _ s _ hk ha hf]
    exact settled_congr (layoutOp_may (ungate [9] s) h)
  · change execSeal s = _
    rw [execSeal, ownSettle_next _ s _ hk ha hf]
    exact settled_congr ((sealMember_own (ungate [9] s) hg).trans (sealOp_due (ungate [9] s) hl he hc hp hh))
  · change execSeal s = _
    rw [execSeal, ownSettle_next _ s _ hk ha hf]
    exact settled_congr (sealMember_follower (ungate [9] s) hc hp he hg hl hm)
  · change execSealWithoutStep s = _
    rw [execSealWithoutStep, ownSettle_next _ s _ hk ha hf]
    exact settled_congr (sealNoStepOp_ready (ungate [9] s) ha hf hp hr he hl)
  · change execSpoolRelease s = _
    rw [execSpoolRelease, ownSettle_next _ s _ hk ha hf]

end Sys2Proof.Machine
end

section
/-! SUPPORT. The work of a step, and the switches of bed contexts (05 R127, 06 R147 to R171): the proofs of O46 and O47. -/

namespace Sys2Proof.Machine

/-- Traffic that no gardener core takes has its effect `t` while the block runs. -/
theorem traffic_effect (c : Instr) (s : State) (hs : Runs s) (hc : isTraffic c = true) (hg : (s.takerOf c).any s.gdnDown = false)
    {t : State} (ht : nocApply c (ungate (trafficIslands c s) s) = t) : exec c s = .next (settle t) := by
  rw [traffic_next c s hc hs hg, ht]

/-! ### Dispatch and delivery -/

theorem dispatchStep_other (w : StepWork) (x : Step) (s : State) (hx : s.sow.exec = some x)
    (h : ¬ (w.items.all (itemPlaced s x) = true ∧ w.stack.all (stackPlaced s x) = true ∧ (gatesOf w.items).all s.gateFree = true)) :
    dispatchStep w s = s := by
  unfold dispatchStep
  rw [hx]
  refine if_pos ?_
  by_contra hn
  simp only [Bool.or_eq_true, Bool.not_eq_true', not_or, Bool.not_eq_false] at hn
  obtain ⟨⟨⟨-, h1⟩, h2⟩, h3⟩ := hn
  exact h ⟨h1, h2, h3⟩

/-- The oldest placement leaves for its core's inbox. -/
def itemSent (c i : Nat) (rest : List (Nat × Nat)) (s : State) : State :=
  let v := onDisp (fun d => { d with await := rest }) s
  { v with out := { v.out with inbox := v.out.inbox ++ [⟨c, .work i⟩] } }

/-- An item that its core accepts starts there. -/
def itemStarts (c i : Nat) (x : Item) (s : State) : State :=
  let s := trace 0 0 0 none 0 i (c + b2n (decide (x.affinity = some (BitVec.ofNat 10 c))) * 65536) (x.bed + x.ctx * 32) s
  onItem i (fun y => { y with state := .running c }) (onCore c (fun k => { k with running := some i, since := s.ctl.lcc }) s)

/-- One of a context that a switch drains is flagged as it starts. -/
def flagDrained (c : Nat) (x : Item) (s : State) : State :=
  match (s.bed x.bed).sw with
  | some w => if w.out.contains x.ctx then flagCore c none s else s
  | none => s

theorem flagDrained_none (c : Nat) (x : Item) (s : State)
    (h : ∀ w, (s.bed x.bed).sw = some w → w.out.contains x.ctx = false) : flagDrained c x s = s := by
  unfold flagDrained
  split
  · next w hw => exact if_neg (by rw [h w hw]; decide)
  · rfl

theorem flagDrained_some (c : Nat) (x : Item) (s : State) (w : Switch) (hw : (s.bed x.bed).sw = some w)
    (h : w.out.contains x.ctx = true) : flagDrained c x s = flagCore c none s := by
  unfold flagDrained
  rw [hw]
  exact if_pos h

theorem ctl_trace (cls source gdn : Nat) (tenant : Option Nat) (handle a0 a1 a2 : Nat) (s : State) :
    (trace cls source gdn tenant handle a0 a1 a2 s).ctl = s.ctl := by
  obtain ⟨tr, o, e⟩ := trace_form cls source gdn tenant handle a0 a1 a2 s
  rw [e]

theorem disp_trace (cls source gdn : Nat) (tenant : Option Nat) (handle a0 a1 a2 : Nat) (s : State) :
    (trace cls source gdn tenant handle a0 a1 a2 s).disp = s.disp := by
  obtain ⟨tr, o, e⟩ := trace_form cls source gdn tenant handle a0 a1 a2 s
  rw [e]

theorem bed_itemStarts (c i : Nat) (x : Item) (b : Nat) (s : State) : (itemStarts c i x s).bed b = s.bed b := by
  have h := disp_trace 0 0 0 none 0 i (c + b2n (decide (x.affinity = some (BitVec.ofNat 10 c))) * 65536) (x.bed + x.ctx * 32) s
  unfold itemStarts State.bed onItem onCore onDisp
  dsimp only
  rw [h]

theorem deliverItem_oldest (c i : Nat) (rest : List (Nat × Nat)) (x : Item) (s : State) (hd : s.disp.await = (c, i) :: rest)
    (hx : s.item i = some x) : deliverItem s =
      if s.accepts c x then schedule (flagDrained c x (itemStarts c i x (itemSent c i rest s)))
      else schedule (reissue i (itemSent c i rest s)) := by
  have hi : (onDisp (fun d => { d with await := rest }) s).item i = some x := hx
  unfold deliverItem
  rw [hd]
  dsimp only
  rw [hi]
  rfl

theorem itemStarts_eq (c i : Nat) (x : Item) (s : State) : itemStarts c i x s =
    onItem i (fun y => { y with state := .running c }) (onCore c (fun k => { k with running := some i, since := s.ctl.lcc })
      (trace 0 0 0 none 0 i (c + b2n (decide (x.affinity = some (BitVec.ofNat 10 c))) * 65536) (x.bed + x.ctx * 32) s)) := by
  unfold itemStarts
  dsimp only
  rw [ctl_trace]

/-! ### Completion and parks -/

theorem itemComplete_running (core busy i : Nat) (k : Core) (x : Item) (s : State) (hc : s.core core = some k) (hr : k.running = some i)
    (hx : s.item i = some x) : itemComplete core busy s =
      let v := onItem i (fun y => { y with state := .complete core busy }) (onCore core (fun k => { k with running := none }) s)
      let w := releaseAll s.disp.items.length v
      checkEnd (coreDone core (if x.bound = true then w else each x.rows layersDone w)) := by
  have hi : (onCore core (fun k => { k with running := none }) s).item i = some x := hx
  have hl : (onItem i (fun y => { y with state := .complete core busy })
      (onCore core (fun k => { k with running := none }) s)).disp.items.length = s.disp.items.length := List.length_map _
  unfold itemComplete
  rw [show (s.core core).bind (fun k => k.running) = some i by rw [hc]; exact hr]
  dsimp only
  rw [hi]
  dsimp only
  rw [hl]

theorem tilePark_parks (core i : Nat) (k : Core) (s : State) (hc : s.core core = some k) (hr : k.running = some i)
    (hf : k.flagged = true) (hl : k.leaving = false) : tilePark core s = coreDone core (orphanGone core (onCore core (fun k =>
      { k with running := none, flagged := false }) (onItem i (fun y => { y with state := .parked core }) s))) := by
  simp only [tilePark, hc, hr, hf, hl, Bool.not_true, Bool.false_eq_true, if_false]

theorem tilePark_leaves (core i : Nat) (k : Core) (s : State) (hc : s.core core = some k) (hr : k.running = some i)
    (hf : k.flagged = true) (hl : k.leaving = true) : tilePark core s = schedule (coreLeft core s) := by
  simp only [tilePark, hc, hr, hf, hl, Bool.not_true, Bool.false_eq_true, if_false, if_true]

theorem stackComplete_held (idx ns sb nb : Nat) (x : Step) (i : StackItem) (s : State) (hx : s.sow.exec = some x)
    (hi : x.stack.find? (fun i => i.idx = idx) = some i) (hh : s.stackHeld i = true) : stackComplete idx ns sb nb s = s := by
  simp only [stackComplete, hx, hi, hh, if_true]

theorem collComplete_pending (x : Step) (s : State) (hx : s.sow.exec = some x) (hz : x.coll ≠ 0) : collComplete s =
    checkEnd (collsOver (progressNow { s with sow := { s.sow with exec := some { x with coll := x.coll - 1 } } })) := by
  simp only [collComplete, hx, hz, if_false, Option.map_some]

/-! ### Lists and guesses -/

theorem fenced_iff (s : State) (core : Bool) (unit : Nat) :
    (core && s.wdog.fenced.contains unit) = true ↔ core = true ∧ s.wdog.fenced.contains unit = true := Bool.and_eq_true_iff

theorem listArrives_fenced (l : PList) (s : State) (h : l.core = true ∧ s.wdog.fenced.contains l.unit = true) : listArrives l s = s :=
  if_pos ((fenced_iff ..).mpr h)

theorem listArrives_noLane (l : PList) (s : State) (h : ¬ (l.core = true ∧ s.wdog.fenced.contains l.unit = true))
    (hl : s.laneOf l.row = none) : listArrives l s = listMerges l s := by
  rw [listArrives, if_neg (fun e => h ((fenced_iff ..).mp e)), hl]

theorem listArrives_lane (l : PList) (k : Nat) (s : State) (h : ¬ (l.core = true ∧ s.wdog.fenced.contains l.unit = true))
    (hl : s.laneOf l.row = some k) : listArrives l s = drainLane k 17 (routeList l k s) := by
  rw [listArrives, if_neg (fun e => h ((fenced_iff ..).mp e)), hl]

theorem guessArrives_open (g : Guess) (p : PRow) (s : State) (hp : s.openRow g.row g.parity = some p) (h1 : g.dpos.toNat ≤ p.d)
    (h2 : g.heads.toNat ≤ 4) (h3 : (p.pos.getD g.dpos.toNat {}).guess = none)
    (h : ¬ (g.core = true ∧ s.wdog.fenced.contains g.unit = true)) : guessArrives g s = progressNow (onPRow p.row (fun r =>
      { r with pos := lupd g.dpos.toNat (fun x => { x with guess := some (g.guesses.take g.heads.toNat) }) r.pos }) s) := by
  unfold guessArrives
  rw [if_neg (fun e => h ((fenced_iff ..).mp e)), hp]
  dsimp only
  rw [h3, decide_eq_false (Nat.not_lt.mpr h1), decide_eq_false (Nat.not_lt.mpr h2)]
  rfl

/-- Settles O46: the branch of each event that the step's work takes. -/
theorem stepWorkDone : Obligations.StepWorkDone := by
  unfold Obligations.StepWorkDone
  intro s hs u
  obtain ⟨hk, ha, hf⟩ := id hs
  have deliver : exec .workItemDeliver s = .next (deliverItem (u [10])) := own_next _ s _ hk ha hf
  refine ⟨fun w x hx hd => ⟨fun hp => ?_, fun hp => ?_⟩,
    fun c i rest x hd hx => ⟨fun hc => ⟨fun hw => ?_, fun w hw ho => ?_⟩, fun hc => ?_⟩,
    fun core busy k i x hc hr hx => ?_, fun core k i hc hr hfl hl => ?_, fun core k i hc hr hfl hl => ?_,
    fun idx ns sb nb x i hx hi => ⟨fun hh => ?_, fun hh => ?_⟩, fun x hx hz => ?_,
    fun l => ⟨fun hz => ?_, fun hl hz => ?_, fun k hl hz => ?_⟩, fun g p hp h1 h2 h3 hz => ?_⟩
  · exact traffic_effect (.argumentBlockAck w) s hs rfl rfl rfl
  · exact traffic_effect (.argumentBlockAck w) s hs rfl rfl (dispatchStep_other w x (u [9, 10, 14]) hx hp)
  · have e := flagDrained_none c x (itemStarts c i x (itemSent c i rest (u [10]))) (by rw [bed_itemStarts]; exact hw)
    rw [itemStarts_eq] at e
    refine deliver.trans (congrArg _ ((deliverItem_oldest c i rest x (u [10]) hd hx).trans ((if_pos hc).trans ?_)))
    rw [itemStarts_eq]
    exact congrArg schedule e
  · have e := flagDrained_some c x (itemStarts c i x (itemSent c i rest (u [10]))) w (by rw [bed_itemStarts]; exact hw) ho
    rw [itemStarts_eq] at e
    refine deliver.trans (congrArg _ ((deliverItem_oldest c i rest x (u [10]) hd hx).trans ((if_pos hc).trans ?_)))
    rw [itemStarts_eq]
    exact congrArg schedule e
  · exact deliver.trans (congrArg _ ((deliverItem_oldest c i rest x (u [10]) hd hx).trans
      (if_neg (ne_true_of_eq_false hc))))
  · exact traffic_effect (.workItemComplete core busy) s hs rfl rfl (itemComplete_running core busy i k x _ hc hr hx)
  · exact traffic_effect (.tileBoundaryPark core) s hs rfl rfl (tilePark_parks core i k _ hc hr hfl hl)
  · exact traffic_effect (.tileBoundaryPark core) s hs rfl rfl (tilePark_leaves core i k _ hc hr hfl hl)
  · exact traffic_effect (.stackItemComplete idx ns sb nb) s hs rfl rfl rfl
  · exact traffic_effect (.stackItemComplete idx ns sb nb) s hs rfl rfl (stackComplete_held idx ns sb nb x i (u [9, 15, 17]) hx hi hh)
  · exact traffic_effect .collectiveComplete s hs rfl rfl (collComplete_pending x (u [9, 15, 16]) hx hz)
  · exact traffic_effect (.partialList l) s hs rfl rfl (listArrives_fenced l (u [11, 17]) hz)
  · exact traffic_effect (.partialList l) s hs rfl rfl (listArrives_noLane l (u [11, 17]) hz hl)
  · exact traffic_effect (.partialList l) s hs rfl rfl (listArrives_lane l k (u [11, 17]) hz hl)
  · exact traffic_effect (.guessRecord g) s hs rfl rfl (congrArg checkEnd (guessArrives_open g p (u [11, 17]) hp h1 h2 h3 hz))

/-! ### Contexts (06 R163 to R171) -/

theorem saveDone_saving (b : Nat) (w : Switch) (s : State) (hw : (s.bed b).sw = some w) (hp : w.phase = .save) : saveDone b s =
    swapItems b (.restore b w.inc)
      (onBed b (fun x => { x with sw := some { w with phase := .restore, swaps := s.bedCores b } }) s) := by
  simp only [saveDone, startRestoring, hw, hp, if_true]

theorem rearmDone_restoring (b busy : Nat) (w : Switch) (s : State) (hw : (s.bed b).sw = some w) (hp : w.phase = .restore) :
    rearmDone b busy s = rearm b (chargeSwap b w.inc (coreNs busy) s) := by
  simp only [rearmDone, hw, hp, if_true]

/-- The torn-down context, whose reload has ended. -/
def tileBack (b c busy : Nat) (s : State) : State :=
  onCtx b c (fun x => { x with tearing := false }) (trace 5 0 0 none 0 (c + 65536 + 131072) 0 b (overhead (coreNs busy) s))

/-- The context serves again where its model is up and fits. -/
def State.servesAgain (s : State) (b c : Nat) : Bool :=
  match (s.ctx b c).model with
  | some m => s.slotUp m.toNat && s.fits b [] m.toNat
  | none => false

theorem servesAgain_iff (s : State) (b c : Nat) : s.servesAgain b c = true ↔
    ∃ m, (s.ctx b c).model = some m ∧ s.slotUp m.toNat = true ∧ s.fits b [] m.toNat = true := by
  unfold State.servesAgain
  cases (s.ctx b c).model with
  | none => simp
  | some m => simp

theorem teardownEnds_tearing (b c busy : Nat) (s : State) (h : (s.ctx b c).tearing = true) : teardownEnds b c busy s =
    schedule (if (tileBack b c busy s).servesAgain b c then onCtx b c (fun x => { x with resident := true }) (tileBack b c busy s)
      else tileBack b c busy s) := by
  rw [teardownEnds, if_neg (by rw [h]; decide)]
  rfl

theorem joinDone_joining (core : Nat) (k : Core) (s : State) (hc : s.core core = some k) (hj : k.joining = true) :
    joinDone core s = schedule (coreFree core (onCore core (fun k => { k with joining := false }) s)) := by
  simp only [joinDone, hc, hj, if_true]

/-- Settles O47: the branch of each event of a switch. -/
theorem contextsSwitch : Obligations.ContextsSwitch := by
  unfold Obligations.ContextsSwitch
  intro s hs u
  obtain ⟨hk, ha, hf⟩ := id hs
  refine ⟨fun b c m _ _ _ => own_next _ s _ hk ha hf, fun b w hw hp => ?_, fun b busy w hw hp => ?_,
    fun b c busy ht => ⟨fun hb => ?_, fun hb => ?_⟩, fun core k hc hj => ?_⟩
  · exact traffic_effect (.swapSaveDone b) s hs rfl rfl (saveDone_saving b.val w u hw hp)
  · exact traffic_effect (.contextRearm b busy) s hs rfl rfl (rearmDone_restoring b.val busy w u hw hp)
  · refine traffic_effect (.teardownEnd b c busy) s hs rfl rfl ((teardownEnds_tearing b.val c.val busy u ht).trans ?_)
    exact congrArg schedule (if_pos ((servesAgain_iff ..).mpr hb))
  · refine traffic_effect (.teardownEnd b c busy) s hs rfl rfl ((teardownEnds_tearing b.val c.val busy u ht).trans ?_)
    exact congrArg schedule (if_neg (fun e => hb ((servesAgain_iff ..).mp e)))
  · exact traffic_effect (.joiningCoreRestoreDone core) s hs rfl rfl (joinDone_joining core k u hc hj)

end Sys2Proof.Machine
end

section
/-! SUPPORT. The reports of faults (15 R371 to R387): the proof of O44. -/

namespace Sys2Proof.Machine

theorem awake_of_logErr {e : ErrIn} {s : State} (a : s.awake = true) : (logErr e s).awake = true := (awake_logErr e s).trans a

/-- A poison report is recorded, and acted on where the block runs. -/
theorem poisonIn_awake (p : Poison) (s : State) (a : s.awake = true) : poisonIn p s = poisonActs p (logErr (s.poisonRec p) s) :=
  if_pos (awake_of_logErr a)

theorem poisonActs_weights (p : Poison) (m : Fin 32) (r : Nat) (s : State) (h : p.place = .weights m r) :
    poisonActs p s = checkEnd (poisonWeights m.val r p s) := by
  rw [poisonActs, h]

theorem seed_logErr (e : ErrIn) (s : State) : (logErr e s).seed = s.seed := by
  obtain ⟨ps, o, l, h⟩ := logErr_form e s
  rw [h]

theorem poisonActs_node (p : Poison) (n : Nat) (x : Node) (s : State) (h : p.place = .node n) (hx : mget n s.seed.nodes = some x) :
    poisonActs p s = clearNode n (keepFrame x.plot s) := by
  unfold poisonActs
  rw [h]
  dsimp only
  rw [hx]

theorem ringFault_on (p addr : Nat) (s : State) (h : (s.page p).sqEn = true ∨ (s.page p).cqEn = true) :
    ringFault p addr s = hostFault p 1 addr 0 (pageError p 0x07 addr (s.onPage p (fun g =>
      { g with
        faultStop := true
        sqEn := false
        cqEn := false
        waiting := []
        ring := []
        begun := 0
        started := g.started.map (fun x => { x with mute := true }) }))) := by
  rw [ringFault]
  refine if_neg ?_
  obtain h | h := h
  · rw [h, Bool.not_true, Bool.false_and]; decide
  · rw [h, Bool.not_true, Bool.and_false]; decide

theorem atomicWrite_outside (addr : Nat) (core : Bool) (unit b c : Nat) (s : State) (h : s.inAtomic addr = false) :
    atomicWrite addr core unit b c s = s := if_pos (by rw [h]; rfl)

theorem atomicWrite_stray (addr : Nat) (core : Bool) (unit b c : Nat) (s : State) (a : s.awake = true) (h : s.inAtomic addr = true)
    (hf : ¬ (core = true ∧ s.wdog.fenced.contains unit = true)) : atomicWrite addr core unit b c s = teardownNamed b c (logErr
      { code := 0x06, scope := 2, island := 17, origin := if core then 1 else 2, unit, bed := some (b, c), addr } s) := by
  rw [atomicWrite, if_neg (fun k => (dropped_iff _ _ _).mp k ⟨h, hf⟩)]
  exact if_pos (awake_of_logErr a)

theorem coreFault_swapSave (f : CoreFault) (s : State) (a : s.awake = true) (hf : s.wdog.fenced.contains f.core = false)
    (hs : f.kind = .swapSave) : coreFault f s = teardownNamed f.bed.val f.ctx.val (logErr
      { code := 0x07, scope := 2, detail := 4, island := 10, origin := 1, unit := f.core, bed := some (f.bed.val, f.ctx.val) } s) := by
  have hc : s.coreScope f = .ctx f.bed.val f.ctx.val := by rw [State.coreScope, hs]
  have hr : s.coreRec f =
      { code := 0x07, scope := 2, detail := 4, island := 10, origin := 1, unit := f.core, bed := some (f.bed.val, f.ctx.val) } := by
    rw [State.coreRec, hc, hs]
  rw [coreFault, if_neg (by rw [hf]; decide)]
  dsimp only
  rw [hc, hr, if_neg (by rw [awake_logErr, a]; decide)]

theorem sramUe_nodeCache (s : State) (a : s.awake = true) : sramUe .nodeCache s =
    onSeed (fun d => { d with cache := [] }) (logErr { code := 0x14, scope := 0, detail := 13, island := 13 } s) :=
  if_pos (awake_of_logErr a)

/-- Settles O44: each report's record, and what it brings about where the block runs. -/
theorem reportsTaken : Obligations.ReportsTaken := by
  unfold Obligations.ReportsTaken
  intro s hs u poisoned
  obtain ⟨hk, ha, hf⟩ := id hs
  have hpoison : ∀ p, exec (.poisonIndication p) s = .next (settle (poisonActs p (poisoned p))) :=
    fun p => traffic_effect (.poisonIndication p) s hs rfl rfl (poisonIn_awake p (ungate (poisonIslands p s) s) ha)
  have hlog : ∀ a, exec (.sramUe a) s = .next (settle (sramUe a (ungate (sramIslands a) s))) := by
    intro a
    change execSramUe a s = _
    rw [execSramUe, ownLogged_next _ s _ hk (by rw [ha]; rfl) hf]
  refine ⟨fun p m r hp => ⟨?_, ?_⟩, fun p n x hp hx => ⟨?_, ?_⟩, fun p a h => ?_, fun a => ?_, fun addr core unit bed ctx h => ?_,
    fun addr core unit bed ctx h hz => ?_, fun f hz hsave => ?_, ?_, fun c => hlog _, fun i lost hi => ?_, fun i lost h9 hi => ?_⟩
  · simp only [poisoned, poisonIslands, State.poisonRec, hp, u]
  · exact (hpoison p).trans (settled_congr (poisonActs_weights p m r _ hp))
  · simp only [poisoned, poisonIslands, State.poisonRec, hp, u]
  · refine (hpoison p).trans (settled_congr (poisonActs_node p n x _ hp ?_))
    exact (congrArg (fun d => mget n d.nodes) (seed_logErr _ (u (poisonIslands p s)))).trans hx
  · exact traffic_effect (.hostAccessRefused (.ring p a)) s hs rfl rfl (ringFault_on p.val a.toNat (u (s.pageIslands p.val)) h)
  · exact traffic_effect (.hostAccessRefused (.trace a)) s hs rfl rfl rfl
  · exact traffic_effect (.atomicWrite addr core unit bed ctx) s hs rfl rfl (atomicWrite_outside _ _ _ _ _ (u [17]) h)
  · exact traffic_effect (.atomicWrite addr core unit bed ctx) s hs rfl rfl (atomicWrite_stray _ _ _ _ _ (u [17]) ha h hz)
  · exact traffic_effect (.coreFault f) s hs rfl rfl (coreFault_swapSave f (u [10]) ha hz hsave)
  · exact (hlog _).trans (settled_congr (sramUe_nodeCache _ ha))
  · exact (hlog _).trans (settled_congr (sramUe_fatal i lost _ hi))
  · refine (hlog _).trans (settled_congr ((sramUe_island i lost (u [i.val]) h9 hi).trans ?_))
    exact if_pos ((awake_logErr _ (u [i.val])).trans ha)

end Sys2Proof.Machine
end

section
/-! SUPPORT. The ends of copies, model loads and the firmware's work for tenants (02, 04, 07, 08, 10, 11): the proofs of O48, O49
and O50. -/

namespace Sys2Proof.Machine

/-! ### Copies -/

theorem biasCopied_whole (p : Nat) (tag : U16) (es : List Bias) (f : ProfileF) (s : State) (hb : s.biasOf p tag = some f)
    (hl : es.length = f.biasCount.toNat) : biasCopied p tag es s = match sumBias es [] with
      | some l => finishTag p tag Wait.isBias stOk [] (setProfile p f l (putReads (s.biasReads p f) s))
      | none => finishTag p tag Wait.isBias stBadField [] (putReads (s.biasReads p f) s) := by
  unfold biasCopied
  rw [hb]
  exact if_neg (not_not.mpr hl)

theorem selectDone_whole (p : Nat) (tag : U16) (rows : List (List U32)) (f : SelectF) (s : State) (hs : s.selectOf p tag = some f)
    (hl : rows.length = f.rows.toNat) (hr : rowsFit f rows = true) :
    selectDone p tag rows s = if s.lanesFree then selectEnd p tag f rows [] stOk s else s := by
  rw [selectDone, hs]
  cases h : s.lanesFree
  · exact if_pos (by simp [hl, hr])
  · exact if_neg (by simp [hl, hr])

/-- The owner's records that now find room are written. -/
def ownerRelease (o : Option U32) (s : State) : State :=
  match o with
  | some h => match s.reqH h with
    | some r => if r.bufRecs ≠ [] && (r.newRecs = [] || s.mayRelease) then releaseReq h s else s
    | none => s
  | none => s

theorem ownerRelease_some (h : U32) (r : Req) (s : State) (hr : s.reqH h = some r) : ownerRelease (some h) s =
    if r.bufRecs ≠ [] && (r.newRecs = [] || s.mayRelease) then releaseReq h s else s := by
  unfold ownerRelease
  dsimp only
  rw [hr]

/-- What a TAIL brings, once its read is over. -/
theorem tailRead_found (t k : Nat) (tail : U32) (sp : Spool) (s : State) (hs : s.spool t k = some sp) (hb : sp.broken = false) :
    tailRead t k tail s = if 2 ^ sp.log2.toNat < (sp.head - tail).toNat then
        logErr { code := 0x0D, island := 14, origin := 3, tenant := some t, addr := sp.hdrAddr.toNat }
          (onPrn (fun q => { q with tailBad := satInc q.tailBad }) (tailGone t k s))
      else ownerRelease sp.owner (onSpool t k (fun sp => { sp with tail := tail }) (tailGone t k s)) := by
  have hg : (tailGone t k s).spool t k = some sp := hs
  unfold tailRead
  dsimp only
  rw [hg]
  exact if_neg (by rw [hb]; decide)

theorem spillMoveDone_clean (slot plot : Nat) (m : Move) (s : State) (hm : s.moveAt slot plot false = some m) :
    spillMoveDone slot plot false s = restores (flushDone (pumpMoves (spillDone m s))) := by
  rw [spillMoveDone, hm]
  exact if_neg (by decide)

theorem spillMoveDone_poisoned (slot plot : Nat) (m : Move) (s : State) (hm : s.moveAt slot plot false = some m) :
    spillMoveDone slot plot true s = restores (flushDone (pumpMoves (spillFail m true (retirePlot m.frame
      (logErr { code := 0x12, scope := 0, island := 12, tenant := some (hTenant m.handle), handle := m.handle.toNat } s))))) := by
  rw [spillMoveDone, hm]
  exact if_pos rfl

theorem restoreMoveDone_clean (slot plot : Nat) (m : Move) (s : State) (hm : s.moveAt slot plot true = some m) :
    restoreMoveDone slot plot false s = restores (pumpMoves (restoreDone m s)) := by
  rw [restoreMoveDone, hm]
  rfl

theorem restoreMoveDone_poisoned (slot plot : Nat) (m : Move) (run : ColdRun) (s : State) (hm : s.moveAt slot plot true = some m)
    (hr : m.run = some run) : restoreMoveDone slot plot true s = restores (pumpMoves (restoreFail m
      (coldRefused m.handle (s.runAddr run) (decide (run.tier = .pool)) s))) := by
  rw [restoreMoveDone, hm]
  dsimp only
  rw [hr]
  rfl

/-- The restores that wait, in the order in which they began to. -/
def State.restoresWaiting (s : State) : List Req :=
  sortBy (fun (a b : Req) => decide (a.heldSeq < b.heldSeq))
    ((s.reqs.map (fun e => e.2)).filter (fun r => match r.restore with | some x => !x.running | none => false))

theorem restoreStart_first (r : Req) (s : State) (h : s.restoresWaiting.head? = some r) : restoreStart r.handle s = startRestores 1 s := by
  rw [restoreStart]
  change (match s.restoresWaiting.head? with | some q => if q.handle = r.handle then startRestores 1 s else s | none => s) = _
  rw [h]
  exact if_pos rfl

/-- Settles O48: the branch of each event where its copy, job or move stands. -/
theorem copiesEnd : Obligations.CopiesEnd := by
  unfold Obligations.CopiesEnd
  intro s hs on cold
  obtain ⟨hk, ha, hf⟩ := id hs
  refine ⟨fun h toks r hg _ _ _ => ?_, fun h toks r f hg _ _ _ _ => ?_, fun page tag es f hg hb hl => ?_,
    fun page tag seen f hsel hl hr => ⟨fun hz => ?_, fun hz => ?_⟩, own_next _ s _ hk ha hf,
    fun t k tail sp hsp hb => ⟨fun hle => ⟨fun ho => ?_, fun h r ho hr => ?_⟩, fun hlt => ?_⟩,
    fun slot plot m hm => ⟨?_, ?_⟩, fun slot plot m hm => ⟨?_, fun run hr => ?_⟩, fun r h => ?_⟩
  · exact traffic_effect (.promptCopied h toks) s hs rfl hg rfl
  · exact traffic_effect (.extendTokensCopied h toks) s hs rfl hg rfl
  · refine traffic_effect (.biasListCopied page tag es) s hs rfl hg ((biasCopied_whole page.val tag es f (on page.val) hb hl).trans ?_)
    rfl
  · have e := selectDone_whole page.val tag seen.rows f (ungate (11 :: s.pageIslands page.val) s) hsel hl hr
    exact traffic_effect (.selectDone page tag seen) s hs rfl rfl (e.trans (if_pos hz))
  · have e := selectDone_whole page.val tag seen.rows f (ungate (11 :: s.pageIslands page.val) s) hsel hl hr
    exact traffic_effect (.selectDone page tag seen) s hs rfl rfl (e.trans (if_neg (ne_true_of_eq_false hz)))
  · have e := tailRead_found t.val k.toNat tail sp (ungate [14, 17] s) hsp hb
    refine traffic_effect (.spoolTailRead t k tail) s hs rfl rfl (e.trans ((if_neg (Nat.not_lt.mpr hle)).trans ?_))
    rw [ho]
    rfl
  · have e := tailRead_found t.val k.toNat tail sp (ungate [14, 17] s) hsp hb
    refine traffic_effect (.spoolTailRead t k tail) s hs rfl rfl (e.trans ((if_neg (Nat.not_lt.mpr hle)).trans ?_))
    rw [ho]
    exact ownerRelease_some h r _ hr
  · have e := tailRead_found t.val k.toNat tail sp (ungate [14, 17] s) hsp hb
    exact traffic_effect (.spoolTailRead t k tail) s hs rfl rfl (e.trans (if_pos hlt))
  · exact traffic_effect (.spillMoveDone slot ⟨plot, false⟩) s hs rfl rfl (spillMoveDone_clean slot plot m cold hm)
  · exact traffic_effect (.spillMoveDone slot ⟨plot, true⟩) s hs rfl rfl (spillMoveDone_poisoned slot plot m cold hm)
  · exact traffic_effect (.restoreMoveDone slot plot false) s hs rfl rfl (restoreMoveDone_clean slot plot m cold hm)
  · exact traffic_effect (.restoreMoveDone slot plot true) s hs rfl rfl (restoreMoveDone_poisoned slot plot m run cold hm hr)
  · exact (own_next _ s _ hk ha hf).trans (congrArg _ (restoreStart_first r (ungate (12 :: s.pageIslands (hTenant r.handle)) s) h))

/-! ### Model loads: two versions of one number -/

/-- A graft version 1 of slot 5, whose reload of the region is under way. -/
def graftTwin (region : Nat) : GVer :=
  { slot := 5, ver := 1, base := 0, state := .tainted, back := .resident, desc := ⟨1, 0, 0, 0, 0, false⟩, srcSpace := 0,
    descAddr := 0, srcAddr := 0, taint := [region], reloading := true, walked := true, loaded := true }

/-- The block in READY, with two versions of one number that reload different regions. -/
def twinBlock : State :=
  { State.reset with
    ctl := { phase := .ready }
    gh := { State.reset.gh with grafts := [graftTwin 0, graftTwin 1] } }

/-- The fresh locations that each version of a state knows. -/
def freshOf (s : State) : List (List (Nat × Nat)) := s.gh.grafts.map (fun x => x.fresh)

theorem runs_twinBlock : Runs twinBlock := by and_intros <;> decide

theorem exec_twins : exec (.reloadDone (.graft 5 1) (.readBack 1 0)) twinBlock
    = .next (settle (reloaded (.graft 5 1) (.readBack 1 0) none (ungate [1, 17] twinBlock))) :=
  traffic_effect _ twinBlock runs_twinBlock rfl (by decide) rfl

/-- Each version notes the fresh location in the region that it reloads itself. -/
theorem freshOf_twins : freshOf (settle (reloaded (.graft 5 1) (.readBack 1 0) none (ungate [1, 17] twinBlock)))
    = [[(0, 0)], [(1, 0)]] := by
  decide

/-- Refutes O49: of two versions of one number, which `twinBlock` holds, the statement gives the second the first one's region. -/
theorem not_modelWorkEnds : ¬ Obligations.ModelWorkEnds := by
  intro h
  obtain ⟨-, -, -, -, -, hgraft, -⟩ := h twinBlock runs_twinBlock (by decide)
  obtain ⟨-, hdone⟩ := hgraft 5 1 (graftTwin 0) (by decide) rfl
  obtain ⟨hback, -⟩ := hdone rfl (.readBack 1 0)
  have hclaimed := Host.Outcome.next.inj (exec_twins.symm.trans (hback (by decide)))
  have hfresh := congrArg freshOf hclaimed
  rw [freshOf_twins] at hfresh
  revert hfresh
  decide

/-! ### The firmware's work for tenants -/

/-- The outcome of an admission: the match and the reservation, or the tenant is passed over. -/
def admitOr (t : Nat) (a : Option State × State) : State :=
  match a.1 with
  | some ok => ok
  | none => a.2.onTen t (fun x => { x with passed := true })

theorem admissionAttempt_next (t : Nat) (r q : Req) (l : List Req) (s : State) (hs : s.sow.short = 0) (hn : s.nextTenant = some t)
    (hl : s.queuedOf t = r :: l) (hq : (expireReq r.handle s).reqH r.handle = some q) (hst : q.state = .queued)
    (hg : (expireReq r.handle s).graftUp q = true) (hm : (expireReq r.handle s).slotUp q.model.toNat = true) :
    admissionAttempt t s = admitOr t (matchReserve (hSlot r.handle) (expireReq r.handle s)) := by
  obtain ⟨-, hh⟩ := (reqH_eq_some_iff _ _ _).mp hq
  rw [admissionAttempt, if_neg (by rw [hs, hn]; simp), hl]
  dsimp only
  rw [hq]
  dsimp only
  rw [if_neg (not_not.mpr hst), if_neg (by rw [hg, hm]; decide), hh]
  unfold admitOr
  obtain ⟨a, b⟩ := matchReserve (hSlot r.handle) (expireReq r.handle s)
  cases a
  · rfl
  · rfl

theorem rollUpTen_up (t : Nat) (s : State) (h : s.gdnDown (s.page t).gardener.toNat = false) :
    rollUpTen t s = each (s.tenRows t) rollUp s := if_neg (by rw [h]; decide)

theorem budgetPeriod_over (t : Nat) (s : State) (hp : (s.ten t).period ≠ 0)
    (hl : (s.ten t).periodAt.toNat + (s.ten t).period.toNat * 1000000000 ≤ s.ctl.lcc.toNat) : budgetPeriod t s =
      s.onTen t (fun x =>
        { x with
          periodAt := x.periodAt + BitVec.ofNat 64 ((s.ten t).period.toNat * 1000000000)
          useNs := 0
          useBytes := 0
          useNj := 0
          warnT := false
          warnB := false
          warnE := false }) := by
  have hz : (s.ten t).period.toNat ≠ 0 := fun e => hp (BitVec.eq_of_toNat_eq e)
  refine if_neg ?_
  simp only [Bool.or_eq_true, decide_eq_true_eq, not_or]
  exact ⟨Nat.mul_ne_zero hz (by decide), Nat.not_lt.mpr hl⟩

theorem sweepStep_found (n : Nat) (s : State)
    (h : (s.seed.nodes.map (fun e => e.1)).find? (fun n => decide (s.seed.sweep ≤ n)) = some n) :
    sweepStep s = sweepNode n (onSeed (fun d => { d with sweep := (n + 1) % seedNodes }) s) := by
  unfold sweepStep
  dsimp only
  rw [h]

/-- Settles O50: each event's branch where its condition holds. -/
theorem tenantsProgress : Obligations.TenantsProgress := by
  unfold Obligations.TenantsProgress
  intro t s hs u mine
  obtain ⟨hk, ha, hf⟩ := hs
  refine ⟨?_, ?_, fun hg => ?_, fun hp hl => ?_, fun n hn => ?_, fun x refused _ _ _ => ?_⟩
  · intro r l q h1 h2 h3 v hq hst hg hm a
    change execAdmissionAttempt t s = _
    rw [execAdmissionAttempt, ownSettle_next _ s _ hk ha hf]
    exact settled_congr (admissionAttempt_next t.val r q l (u (13 :: mine)) h1 h2 h3 hq hst hg hm)
  · change execExpiryScan s = _
    rw [execExpiryScan, ownSettle_next _ s _ hk ha hf]
    exact settled_congr rfl
  · exact (own_next _ s _ hk ha hf).trans (congrArg _ (rollUpTen_up t.val (u (15 :: mine)) hg))
  · exact (own_next _ s _ hk ha hf).trans (congrArg _ (budgetPeriod_over t.val (u (15 :: mine)) hp hl))
  · change execSeedbedSweep s = _
    rw [execSeedbedSweep, own_next _ s _ hk ha hf]
    exact congrArg (fun x => Host.Outcome.next (restores x)) (sweepStep_found n (u [13]) hn)
  · change execTenantResetDone t refused s = _
    rw [execTenantResetDone, ownSettle_next _ s _ hk ha hf]

end Sys2Proof.Machine
end

section
/-! SUPPORT. The block watchdog and the gardener cores (15 R378 to R385): the proof of O54. -/

namespace Sys2Proof.Machine

/-! ### The watchdog -/

/-- A stack engine has not completed an item since the last step progress. -/
def State.engineStuck (s : State) : Bool :=
  match s.sow.exec with | some x => x.stack.any (fun i => i.issued && s.hasHung i.at_) | none => false

/-- A collective of the group is missing since the last step progress. -/
def State.collMissing (s : State) : Bool :=
  s.grouped && (match s.sow.exec with | some x => decide (x.coll ≠ 0) && s.hasHung x.start | none => false)

/-- The watchdog's registers after a bite. -/
def bittenWdog (seen : BiteSeen) (w : Wdog) : Wdog :=
  { w with
    bitten := true
    bites := satInc w.bites
    lastIsland := BitVec.ofNat 5 seen.island.val }

/-- The bite is recorded and counted, and raises vector 3. -/
def biteRecorded (seen : BiteSeen) (s : State) : State :=
  vecEvent mgmt 3 (onWdog (bittenWdog seen)
    (logErr { code := 0x20, island := seen.island, origin := seen.origin.toNat, unit := seen.unit } s))

theorem biteRecorded_form (seen : BiteSeen) (s : State) :
    ∃ ps o l, biteRecorded seen s = { s with pages := ps, out := o, elog := l, wdog := bittenWdog seen s.wdog } := by
  obtain ⟨ps, o, l, e⟩ := logErr_form { code := 0x20, island := seen.island, origin := seen.origin.toNat, unit := seen.unit } s
  obtain ⟨ps', o', e'⟩ := vecEvent_form mgmt 3 (onWdog (bittenWdog seen) { s with pages := ps, out := o, elog := l })
  exact ⟨ps', o', l, by rw [biteRecorded, e, e']; rfl⟩

/-- The record of a bite does not change what has hung. -/
theorem copies_biteRecorded (seen : BiteSeen) (s : State) : (biteRecorded seen s).copies = s.copies := by
  obtain ⟨ps, o, l, e⟩ := biteRecorded_form seen s
  rw [e]
  rfl

theorem shortRows_biteRecorded (seen : BiteSeen) (s : State) : (biteRecorded seen s).shortRows = s.shortRows := by
  obtain ⟨ps, o, l, e⟩ := biteRecorded_form seen s
  rw [e]
  rfl

/-- The recovery of a bite that finds no engine stuck, once the stuck grants and the hung cores, which `quiet` says there are none of,
are dealt with. -/
def biteRecovery (seen : BiteSeen) (quiet coll : Bool) (s : State) : State :=
  let copies := s.copies
  let s := if copies then failCopies s else s
  let s := if coll then setLast 0x18 (forceHold s) else s
  let short := s.shortRows
  let s := each short listMissing s
  let s := if quiet && !copies && !coll && short = [] then
      let s := islandReset seen.island.val 0x20 true s
      setLast (if s.wdog.stalled then 0x24 else 0x21) s
    else s
  checkEnd (progressNow s)

theorem wdogBite_late (seen : BiteSeen) (s : State) (ha : s.armed = true)
    (hl : s.wdog.progress.toNat + s.wdog.limit.toNat * 1000 < s.ctl.lcc.toNat) : wdogBite seen s =
      let t := each (s.hung seen.hung) fenceHung (each s.stuck (fun e s => freeGrant seen e.1 e.2 s) (biteRecorded seen s))
      if s.engineStuck then setLast 0x09 (fatal 0x09 (logErr { code := 0x09, scope := 7, island := 10, origin := 2 } t))
      else biteRecovery seen (decide (s.stuck = []) && decide (s.hung seen.hung = [])) s.collMissing t :=
  if_neg (by rw [ha]; simp only [Bool.not_true, Bool.false_or, decide_eq_true_eq]; omega)

theorem wdogBite_early (seen : BiteSeen) (s : State)
    (h : ¬ (s.armed = true ∧ s.wdog.progress.toNat + s.wdog.limit.toNat * 1000 < s.ctl.lcc.toNat)) : wdogBite seen s = s := by
  refine if_pos ?_
  by_contra k
  simp only [Bool.or_eq_true, Bool.not_eq_true', decide_eq_true_eq, not_or, Bool.not_eq_false, Nat.not_le] at k
  exact h k

section
variable {seen : BiteSeen} {s : State} (ha : s.armed = true)
  (hl : s.wdog.progress.toNat + s.wdog.limit.toNat * 1000 < s.ctl.lcc.toNat) (hs : s.stuck = []) (hh : s.hung seen.hung = [])
include ha hl hs hh

theorem wdogBite_engine (he : s.engineStuck = true) : wdogBite seen s =
    setLast 0x09 (fatal 0x09 (logErr { code := 0x09, scope := 7, island := 10, origin := 2 } (biteRecorded seen s))) := by
  rw [wdogBite_late seen s ha hl, hs, hh]
  exact if_pos he

/-- Where nothing is found stuck, hung, outstanding or missing, the island that the bite saw last is reset. -/
theorem wdogBite_nothing (he : s.engineStuck = false) (hm : s.collMissing = false) (hc : s.copies = false) (hr : s.shortRows = []) :
    wdogBite seen s = checkEnd (progressNow (let t := islandReset seen.island.val 0x20 true (biteRecorded seen s)
      setLast (if t.wdog.stalled = true then 0x24 else 0x21) t)) := by
  have hc' := (copies_biteRecorded seen s).trans hc
  have hr' := (shortRows_biteRecorded seen s).trans hr
  rw [wdogBite_late seen s ha hl, hs, hh]
  refine (if_neg (ne_true_of_eq_false he)).trans ?_
  change biteRecovery seen _ _ (biteRecorded seen s) = _
  rw [hm, biteRecovery]
  simp only [hc', Bool.false_eq_true, if_false, hr', each, List.foldl_nil, decide_true, Bool.not_false, Bool.and_self, if_true]

end

theorem engineStuck_of_some {s : State} {x : Step} (hx : s.sow.exec = some x)
    (h : ∃ i ∈ x.stack, i.issued = true ∧ s.hasHung i.at_ = true) : s.engineStuck = true := by
  rw [State.engineStuck, hx]
  simpa using h

theorem engineStuck_of_all {s : State}
    (h : ∀ x, s.sow.exec = some x → ∀ i ∈ x.stack, i.issued = false ∨ s.hasHung i.at_ = false) : s.engineStuck = false := by
  unfold State.engineStuck
  split
  · next x hx =>
    rw [List.any_eq_false]
    intro i hi
    obtain k | k := h x hx i hi
    · rw [k]; simp
    · rw [k]; simp
  · rfl

theorem collMissing_of_all {s : State}
    (h : ∀ x, s.sow.exec = some x → s.grouped = true → x.coll = 0 ∨ s.hasHung x.start = false) : s.collMissing = false := by
  unfold State.collMissing
  cases hg : s.grouped
  · rfl
  · split
    · next x hx =>
      obtain k | k := h x hx hg
      · rw [k]; rfl
      · rw [k, Bool.and_false, Bool.and_false]
    · rfl

/-! ### The gardener cores -/

theorem gdnRestart_up (c : Nat) (s : State) (h : s.gdnDown c = false) : gdnRestart c s =
    let times := ((mget c s.wdog.gdnTimes).getD []) ++ [s.ctl.lcc]
    vecEvent mgmt 6 (logErr { code := 0x22, scope := 5, island := 1 + c, unit := c } (onWdog (fun w =>
      { w with
        gdnRestarting := w.gdnRestarting ||| BitVec.ofNat 8 (2 ^ c)
        gdnRestarts := satInc w.gdnRestarts
        gdnTimes := mput c (times.drop (times.length - 3)) w.gdnTimes }) s)) := if_neg (by rw [h]; decide)

theorem gdnRestart_down (c : Nat) (s : State) (h : s.gdnDown c = true) : gdnRestart c s = s := if_pos h

/-- The core leaves service. -/
def gdnLeft (c : Nat) (s : State) : State :=
  vecEvent mgmt 6 (logErr { code := 0x23, scope := 5, island := 1 + c, unit := c } (onWdog (fun w =>
    { w with
      gdnOut := w.gdnOut ||| BitVec.ofNat 8 (2 ^ c)
      gdnRestarting := w.gdnRestarting &&& ~~~(BitVec.ofNat 8 (2 ^ c)) }) s))

theorem gdnOut_thrice (c : Nat) (s : State) (ho : s.wdog.gdnOut.getLsbD c = false) (ht : s.thrice c = true) : gdnOut c s =
    if c = 0 || (List.range 7).all (fun i => (gdnLeft c s).wdog.gdnOut.getLsbD (i + 1)) then fatal 0x23 (gdnLeft c s)
    else each ((List.range 16).filter (fun t => ((gdnLeft c s).page t).isOpen && ((gdnLeft c s).page t).gardener.toNat = c)) (fun t s =>
      vecEvent t 4 (s.onPage t (fun g => { g with gardener := BitVec.ofNat 4 s.gardenerFor }))) (gdnLeft c s) :=
  if_neg (by rw [ho, ht]; decide)

theorem gdnOut_stays (c : Nat) (s : State) (h : ¬ (s.wdog.gdnOut.getLsbD c = false ∧ s.thrice c = true)) : gdnOut c s = s := by
  refine if_pos ?_
  by_contra k
  simp only [Bool.or_eq_true, Bool.not_eq_true', not_or, Bool.not_eq_true, Bool.not_eq_false] at k
  exact h k

/-- The core is the management core, or no tenant core is left. -/
theorem lastCore_iff (c : Fin 8) (b : BitVec 8) : (decide (c.val = 0) || (List.range 7).all (fun i => b.getLsbD (i + 1))) = true ↔
    c = 0 ∨ ∀ i, 1 ≤ i → i < 8 → b.getLsbD i = true := by
  rw [Bool.or_eq_true, decide_eq_true_eq, List.all_eq_true]
  refine or_congr Fin.val_eq_zero_iff ⟨fun h i h1 h8 => ?_, fun h i hi => ?_⟩
  · have := h (i - 1) (List.mem_range.mpr (by omega))
    rwa [Nat.sub_add_cancel h1] at this
  · exact h (i + 1) (by omega) (by have := List.mem_range.mp hi; omega)

theorem gdnReattach_running (c : Nat) (ok : Bool) (s : State) (h : s.wdog.gdnRestarting.getLsbD c = false) : gdnReattach c ok s = s :=
  if_pos (by rw [h]; rfl)

theorem gdnReattach_verified (c : Nat) (s : State) (h : s.wdog.gdnRestarting.getLsbD c = true) : gdnReattach c true s =
    reattach c (onWdog (fun w => { w with gdnRestarting := w.gdnRestarting &&& ~~~(BitVec.ofNat 8 (2 ^ c)) }) s) := by
  rw [gdnReattach, h]
  rfl

theorem gdnReattach_bad (c : Nat) (s : State) (h : s.wdog.gdnRestarting.getLsbD c = true) : gdnReattach c false s = fatal 0x22 s := by
  rw [gdnReattach, h]
  rfl

/-- Settles O54: the branches of the bite, and those of each event of a gardener core. -/
theorem watchdogAndGardeners : Obligations.WatchdogAndGardeners := by
  unfold Obligations.WatchdogAndGardeners
  constructor
  · intro seen s hs u late bitten
    obtain ⟨hk, ha, hf⟩ := hs
    have hbite : exec (.wdogBite seen) s = .next (settle (wdogBite seen u)) := by
      change execWdogBite seen s = _
      rw [execWdogBite, ownSettle_next _ s _ hk ha hf]
    refine ⟨fun h => ?_, fun _ _ => hbite, fun harm hl hst hh => ⟨fun x hx h => ?_, fun h hc hr => ?_⟩⟩
    · exact hbite.trans (settled_congr (wdogBite_early seen u h))
    · exact hbite.trans (settled_congr (wdogBite_engine harm hl hst hh (engineStuck_of_some hx h)))
    · refine hbite.trans (settled_congr (wdogBite_nothing harm hl hst hh ?_ ?_ hc hr))
      · exact engineStuck_of_all (fun x hx => (h x hx).1)
      · exact collMissing_of_all (fun x hx => (h x hx).2)
  · intro c s hs u bit back
    obtain ⟨hk, ha, hf⟩ := hs
    have hlog : ∀ is op, ownLogged is s op = .next (op (ungate is s)) :=
      fun is op => ownLogged_next is s op hk (by rw [ha]; rfl) hf
    have hstart : ∀ why, exec (.gdnRestart c why) s = .next (gdnRestart c.val u) := fun why => by
      change execGdnRestart c why s = _
      rw [execGdnRestart, hlog]
    have hout : exec (.gdnOut c) s = .next (settle (takeWaits (gdnOut c.val u))) := by
      change execGdnOut c s = _
      rw [execGdnOut, hlog]
    have hback : ∀ ok, exec (.gdnReattach c ok) s = .next (settle (takeWaits (gdnReattach c.val ok u))) := fun ok => by
      change execGdnReattach c ok s = _
      rw [execGdnReattach, hlog, gdnBack]
    refine ⟨fun why => ⟨fun h => ?_, fun h => ?_⟩, fun ho ht => ?_, fun h => ?_, fun h => ⟨?_, ?_⟩, fun ok h => ?_⟩
    · exact (hstart why).trans (congrArg _ (gdnRestart_up c.val u h))
    · exact (hstart why).trans (congrArg _ (gdnRestart_down c.val u h))
    · intro out last
      have e := gdnOut_thrice c.val u ho ht
      refine ⟨fun h => ?_, fun h => ?_⟩
      · exact hout.trans (settled_congr (congrArg takeWaits (e.trans (if_pos ((lastCore_iff c _).mpr h)))))
      · exact hout.trans (settled_congr (congrArg takeWaits (e.trans (if_neg (fun k => h ((lastCore_iff c _).mp k))))))
    · exact hout.trans (settled_congr (congrArg takeWaits (gdnOut_stays c.val u h)))
    · exact (hback true).trans (settled_congr (congrArg takeWaits (gdnReattach_verified c.val u h)))
    · exact (hback false).trans (settled_congr (congrArg takeWaits (gdnReattach_bad c.val u h)))
    · exact (hback ok).trans (settled_congr (congrArg takeWaits (gdnReattach_running c.val ok u h)))

end Sys2Proof.Machine
end

section
/-! SUPPORT. The proof of O59: when a source records an event, what the record of a buffer becomes, and which gardener core's buffer is
served next (18 R435, R436); and the refutation of O56. -/

namespace Sys2Proof.Machine

/-! ### Recording an event (18 R435) -/

/-- The event is recorded: the trace is on, the class bit is set, and the tenant, where it has one, is in scope. -/
def Recorded (cls : Nat) (tenant : Option Nat) (s : State) : Prop :=
  s.trc.en = true ∧ s.trc.events.getLsbD cls = true ∧ ∀ x, tenant = some x → s.trc.tenants.getLsbD x = true

theorem recorded_iff (cls : Nat) (tenant : Option Nat) (s : State) : Recorded cls tenant s ↔
    (s.trc.en && s.trc.events.getLsbD cls && (match tenant with | some x => s.trc.tenants.getLsbD x | none => true)) = true := by
  cases tenant <;> simp [Recorded, and_assoc]

section
variable (cls source gdn : Nat) (tenant : Option Nat) (handle a0 a1 a2 : Nat) (s : State)

theorem trace_unrecorded (h : ¬ Recorded cls tenant s) : trace cls source gdn tenant handle a0 a1 a2 s = s :=
  if_neg (fun k => h ((recorded_iff cls tenant s).mpr k))

theorem trace_recorded (h : Recorded cls tenant s) : trace cls source gdn tenant handle a0 a1 a2 s =
    if 128 ≤ (s.trc.bufs.getD (traceBuf source gdn) []).length then { s with trc := { s.trc with dropped := satInc s.trc.dropped } }
    else { s with trc := { s.trc with bufs := lupd (traceBuf source gdn) (fun b => b ++ [⟨s.ctl.lcc, BitVec.ofNat 32 s.sow.step.toNat,
      BitVec.ofNat 5 cls, BitVec.ofNat 2 source, BitVec.ofNat 3 gdn, tenant.map (BitVec.ofNat 4), BitVec.ofNat 32 handle,
      BitVec.ofNat 32 a0, BitVec.ofNat 32 a1, BitVec.ofNat 32 a2⟩]) s.trc.bufs } } :=
  if_pos ((recorded_iff cls tenant s).mp h)

end

/-! ### The way of a record to the ring (18 R420, R436) -/

/-- The trace after the oldest record of buffer `k` has left the buffer. -/
def Trc.issued (k : Nat) (t : Trc) : Trc :=
  { t with bufs := lupd k (fun b => b.drop 1) t.bufs, served := if 3 ≤ k then k - 3 else t.served }

section
variable {k : Nat} {r : TraceRec} {l : List TraceRec} {s : State} (h : s.trc.bufs.getD k [] = r :: l)
include h

theorem traceIssue_full (hf : (s.trc.head - s.trc.tail).toNat = 2 ^ s.trc.log2.toNat) :
    traceIssue k s = { s with trc := { s.trc.issued k with dropped := satInc s.trc.dropped } } := by
  simp only [traceIssue, h]
  exact if_pos hf

theorem traceIssue_room (hf : (s.trc.head - s.trc.tail).toNat ≠ 2 ^ s.trc.log2.toNat) :
    traceIssue k s =
      { s with
        trc := { s.trc.issued k with head := s.trc.head + 1 }
        out := { s.out with host := s.out.host ++
          [⟨none, .trace (BitVec.ofNat 64 (s.trc.ring.toNat * 4096 + s.trc.head.toNat % 2 ^ s.trc.log2.toNat * 32)) r⟩] } } := by
  simp only [traceIssue, h]
  exact if_neg hf

theorem issued_buffer : (s.trc.issued k).bufs.getD k [] = l := by
  have hk : k < s.trc.bufs.length := by
    by_contra hk
    rw [List.getD_eq_default _ _ (Nat.not_lt.mp hk)] at h
    exact List.cons_ne_nil _ _ h.symm
  change (lupd k _ s.trc.bufs).getD k [] = l
  rw [getD_lupd_cases, if_pos ⟨rfl, hk⟩, h]
  rfl

end

/-! ### The gardener cores in turn (12 R314) -/

/-- The first of `n` places that a search takes, and none before it is taken. -/
theorem exists_first_of_find?_range {n k : Nat} {f : Nat → Nat} {p : Nat → Bool} (h : ((List.range n).map f).find? p = some k) :
    ∃ i, i < n ∧ k = f i ∧ p (f i) = true ∧ ∀ j, j < i → p (f j) = false := by
  obtain ⟨hp, i, hi, hik, hbefore⟩ := List.find?_eq_some_iff_getElem.mp h
  rw [List.length_map, List.length_range] at hi
  simp only [List.getElem_map, List.getElem_range] at hik hbefore
  exact ⟨i, hi, hik.symm, hik ▸ hp, fun j hj => by simpa using hbefore j hj⟩

/-- The search of input 7 goes round the cores from the one after the core last served. -/
theorem traceInput_gardeners {k : Nat} {s : State} (h : s.traceInput 7 = some k) :
    ∃ n, n < 8 ∧ k = 3 + (s.trc.served + 1 + n) % 8 ∧ s.trc.bufs.getD k [] ≠ []
      ∧ ∀ j, j < n → s.trc.bufs.getD (3 + (s.trc.served + 1 + j) % 8) [] = [] := by
  have hsearch : ((List.range 8).map (fun n => 3 + (s.trc.served + 1 + n) % 8)).find?
      (fun k => decide (s.trc.bufs.getD k [] ≠ [])) = some k := h
  obtain ⟨n, hn, hk, hhas, hnone⟩ := exists_first_of_find?_range hsearch
  exact ⟨n, hn, hk, hk ▸ of_decide_eq_true hhas, fun j hj => not_not.mp (of_decide_eq_false (hnone j hj))⟩

/-- Settles O59: the condition of a record is that of `trace`, and its way to the ring is that of `traceIssue`, which has the two branches
of a full ring and of one with room. -/
theorem traceRecords : Obligations.TraceRecords := by
  refine ⟨?_, ?_, fun s k => traceInput_gardeners⟩
  · intro cls source gdn tenant handle a0 a1 a2 s t k wanted full r
    have hrec (h : wanted) := trace_recorded cls source gdn tenant handle a0 a1 a2 s h
    exact ⟨trace_unrecorded cls source gdn tenant handle a0 a1 a2 s, fun h hf => (hrec h).trans (if_pos hf),
      fun h hf => (hrec h).trans (if_neg hf)⟩
  · intro k r l s h t full
    have hbuf := issued_buffer h
    by_cases hf : full
    · have ht : t = _ := traceIssue_full h hf
      rw [ht]
      exact ⟨hbuf, rfl, rfl, rfl, fun _ => ⟨rfl, rfl, rfl⟩, fun hn => absurd hf hn⟩
    · have ht : t = _ := traceIssue_room h hf
      rw [ht]
      exact ⟨hbuf, rfl, rfl, rfl, fun hn => absurd hn hf, fun _ => ⟨rfl, rfl, rfl⟩⟩

/-! ### An arbiter without a debug port of its own -/

/-- The block in READY with the SEEDBED port held by input 1, which has two beats to move, and with an arbiter record of one input: its
debug port is input 0, which no requester has (12 R314). -/
def narrowPort : State :=
  { readyBlock with
    arbs := [Arb.reset 32 true, Arb.reset 8 false, Arb.reset 8 false, { Arb.reset 8 false with inputs := 1, holder := some 1, left := 2 }] }

theorem exec_debugRevoke_narrowPort :
    exec (.debugRevoke 3 ⟨1, .other⟩) narrowPort = .next (debugUse 3 1 .other (ungate [13] narrowPort)) := by
  change execDebugRevoke 3 ⟨1, .other⟩ narrowPort = _
  rw [execDebugRevoke]
  exact own_next _ narrowPort _ (by decide) (by decide) (by decide)

/-- Refutes O56: the statement bounds the place of the debug port by the table of inputs alone, and the request of a debug port at a
reserved input is never raised, so that the holder of `narrowPort` keeps the port and no revocation is counted. -/
theorem not_arbiterEvents : ¬ Obligations.ArbiterEvents := by
  intro h
  obtain ⟨-, -, hrevoke⟩ := h 3 narrowPort (by decide) (by decide)
  obtain ⟨t, ht, hcount, -⟩ := hrevoke ⟨1, .other⟩ 1 (by decide) (by decide) (by decide) (by decide) (by decide) (by decide)
  obtain rfl := Host.Outcome.next.inj (exec_debugRevoke_narrowPort.symm.trans ht)
  exact absurd hcount (by decide)

end Sys2Proof.Machine
end

section
/-! SUPPORT. The Tether ring (13 R336 to R354): what the arrival of a frame does on each branch, the events of the ring, and the
proofs of O57 and O58. -/

namespace Sys2Proof.Machine

/-! ### Frames and their common words -/

@[simp] theorem withMeta_mt (g : FrameMeta → FrameMeta) (f : FrameOut) : (f.withMeta g).mt = g f.mt := by
  cases f <;> rfl

theorem stomp_passOn (f : FrameOut) (forced : Bool) :
    (passOn f forced).mt.stomp = true ↔ f.mt.stomp = true ∨ f.good = false ∨ forced = true := by
  simp only [passOn, withMeta_mt, Bool.or_eq_true, Bool.not_eq_true', or_assoc]

theorem satAdd_zero {w : Nat} (x : BitVec w) : satAdd x 0 = x := by
  rw [satAdd, Nat.add_zero, if_pos x.isLt, BitVec.ofNat_toNat, BitVec.setWidth_eq]

/-- A good frame with no control block of unknown type before it counts nothing. -/
theorem crcCount_good {f : FrameOut} (hg : f.good = true) (ha : f.mt.alien = 0) (s : State) : crcCount f s = s := by
  obtain ⟨hcrc, hcut⟩ := Bool.and_eq_true_iff.mp hg
  have hcount : (if f.mt.cut then max 1 f.mt.alien else f.mt.alien + (if f.crcGood then 0 else 1)) = 0 := by
    rw [if_neg (by simpa using hcut), hcrc, ha]
    rfl
  rw [crcCount, hcount]
  simp only [satAdd_zero]
  rfl

/-- The frame goes on, but at its last hop. -/
def forwarded (f : FrameOut) (s : State) : State :=
  if f.mt.hops.toNat = s.teth.sizeM1.toNat then s else putFrame (passOn f s.teth.forced) s

theorem forwarded_form (f : FrameOut) (s : State) : ∃ o, forwarded f s = { s with out := o } := by
  unfold forwarded
  split
  · exact ⟨s.out, rfl⟩
  · exact ⟨_, rfl⟩

theorem not_takes {f : FrameOut} {s : State} (h : f.good = false ∨ f.mt.stomp = true ∨ f.mt.group ≠ s.teth.id
    ∨ (f.kind ≠ 0x01 ∧ f.mt.epoch ≠ s.teth.epoch)) : s.takes f = false := by
  unfold State.takes
  obtain h | h | h | ⟨hk, he⟩ := h
  · simp [h]
  · simp [h]
  · simp [h]
  · have hk' : ¬ f.kind = 1#8 := hk
    simp [hk', he]

/-! ### A frame that is not a roll call -/

section
variable {f : FrameOut} {act : State → State} {s : State} (hu : s.ringUp = true)
include hu

theorem frameIn_own (ho : f.mt.origin = s.teth.index) :
    frameIn f act s = ownReturned f.kind f.mt.step f.mt.part (f.mt.stomp || !f.good) (crcCount f s) := by
  unfold frameIn
  rw [hu]
  exact if_pos ho

theorem frameIn_other (ho : f.mt.origin ≠ s.teth.index) : frameIn f act s =
    if s.wdog.stalled || !s.takes f || s.teth.copyOf f.kind f.mt then forwarded f (crcCount f s)
    else act (onTeth (fun t => { t with seen := t.seen ++ [(f.mt.origin, f.kind, f.mt.step, f.mt.part)] })
      (forwarded f (crcCount f s))) := by
  unfold frameIn
  rw [hu]
  refine (if_neg ho).trans ?_
  change (let t := forwarded f (crcCount f s); if t.wdog.stalled || !t.takes f || t.teth.copyOf f.kind f.mt then t
    else act (onTeth (fun t => { t with seen := t.seen ++ [(f.mt.origin, f.kind, f.mt.step, f.mt.part)] }) t)) = _
  obtain ⟨o, ht⟩ := forwarded_form f (crcCount f s)
  rw [ht]
  rfl

theorem frameIn_untaken (ho : f.mt.origin ≠ s.teth.index)
    (h : s.wdog.stalled = true ∨ s.takes f = false ∨ s.teth.copyOf f.kind f.mt = true) :
    frameIn f act s = forwarded f (crcCount f s) := by
  rw [frameIn_other hu ho]
  refine if_pos ?_
  obtain h | h | h := h <;> simp [h]

end

/-! ### A roll call (13 R351) -/

section
variable {m : FrameMeta} {id : U64} {present intact : List Nat} {s : State} (hu : s.ringUp = true)
include hu

theorem rollcallIn_own (ho : m.origin = s.teth.index) (hb : (FrameOut.rollcall m id present intact).good = false) :
    rollcallIn m id present intact s = ownReturned 0x01 m.step m.part true (crcCount (.rollcall m id present intact) s) := by
  simp only [rollcallIn, hu, ho, hb, Bool.not_true, Bool.not_false, Bool.or_true, Bool.false_eq_true, if_false, if_true]

theorem rollcallIn_other (ho : m.origin ≠ s.teth.index) : rollcallIn m id present intact s =
    if s.takes (.rollcall m id present intact) && !s.wdog.stalled && !s.leader then
      rollcallFollow m id present intact (crcCount (.rollcall m id present intact) s)
    else forwarded (.rollcall m id present intact) (crcCount (.rollcall m id present intact) s) := by
  unfold rollcallIn
  rw [hu]
  exact if_neg ho

theorem rollcallIn_untaken (ho : m.origin ≠ s.teth.index)
    (h : s.wdog.stalled = true ∨ s.takes (.rollcall m id present intact) = false) :
    rollcallIn m id present intact s = forwarded (.rollcall m id present intact) (crcCount (.rollcall m id present intact) s) := by
  rw [rollcallIn_other hu ho]
  refine if_neg ?_
  obtain h | h := h <;> simp [h]

end

/-! ### The commands of frames -/

/-- The arrival of a frame is a roll call or an event of `frameIn`. -/
theorem exec_frame {c : Instr} {f : FrameOut} {s : State} (hc : frameOf c = some f) (hr : Rings s) :
    (∃ m id present intact, f = .rollcall m id present intact
      ∧ exec c s = .next (settle (rollcallIn m id present intact (ungate [16] s))))
    ∨ (f.kind ≠ 0x01 ∧ ∃ act, exec c s = .next (settle (frameIn f act (ungate [16] s)))) := by
  obtain ⟨hk, hp, hf⟩ := hr
  have hring := fun op => onRing_next s op hk hp hf
  unfold frameOf at hc
  split at hc <;> cases hc
  · exact .inl ⟨_, _, _, _, rfl, hring _⟩
  all_goals
    refine .inr ⟨?_, _, hring _⟩
    simp only [FrameOut.kind]
    decide

/-- A frame that a member takes is acted on, once it is counted, forwarded and remembered. -/
theorem frameIn_taken {f : FrameOut} {s : State} (act : State → State) (h : TakesFrame f s) :
    frameIn f act (ungate [16] s) = act (received f s) := by
  obtain ⟨-, hu, ho, hs, ht, hc⟩ := h
  have hseen : ((ungate [16] s).wdog.stalled || !(ungate [16] s).takes f || (ungate [16] s).teth.copyOf f.kind f.mt) = false := by
    change (s.wdog.stalled || !s.takes f || s.teth.copyOf f.kind f.mt) = false
    simp [hs, ht, hc]
  exact (frameIn_other (s := ungate [16] s) hu ho).trans (if_neg (ne_true_of_eq_false hseen))

theorem exec_taken {f : FrameOut} {s : State} {act : State → State} (h : TakesFrame f s) :
    onRing s (frameIn f act) = .next (settle (act (received f s))) := by
  obtain ⟨hk, hp, hf⟩ := h.1
  rw [onRing_next s _ hk hp hf, frameIn_taken act h]

theorem leader_received (f : FrameOut) (s : State) : (received f s).leader = s.leader := by
  obtain ⟨o, ho⟩ := forwarded_form f (crcCount f (ungate [16] s))
  change State.leader (onTeth _ (forwarded f (crcCount f (ungate [16] s)))) = _
  rw [ho]
  rfl

/-- Settles O57: a frame that is taken is acted on in the state of `received`; any other is counted and forwarded; an own one has come
round. -/
theorem framesTaken : Obligations.FramesTaken := by
  unfold Obligations.FramesTaken
  constructor
  · intro m s
    refine ⟨fun es h _ => exec_taken h, fun es h _ => exec_taken h, fun es h => ?_, fun e h _ => exec_taken h,
      fun hot ballast h _ => exec_taken h, ?_, fun h => exec_taken h⟩
    · refine (exec_taken (act := tokensIn m es) h).trans ?_
      rw [tokensIn, leader_received]
    · intro tenant f bias h key new
      exact exec_taken (act := profileIn tenant.val f bias) h
  · intro c f s hc hr hu n counted sent
    refine ⟨stomp_passOn f s.teth.forced, fun ho h => ?_, fun ho => ⟨fun hk hg ha => ?_, fun hb => ?_⟩⟩
    · change exec c s = .next (settle (forwarded f (crcCount f (ungate [16] s))))
      obtain ⟨m, id, present, intact, rfl, hx⟩ | ⟨hk, act, hx⟩ := exec_frame hc hr
      · refine hx.trans (settled_congr (rollcallIn_untaken (s := ungate [16] s) hu ho ?_))
        obtain h | h | h | h | ⟨hk, -⟩ := h
        · exact .inl h
        · exact .inr (not_takes (.inl h))
        · exact .inr (not_takes (.inr (.inl h)))
        · exact .inr (not_takes (.inr (.inr (.inl h))))
        · exact absurd rfl hk
      · refine hx.trans (settled_congr (frameIn_untaken (s := ungate [16] s) hu ho ?_))
        obtain h | h | h | h | ⟨hk, h | h⟩ := h
        · exact .inl h
        · exact .inr (.inl (not_takes (.inl h)))
        · exact .inr (.inl (not_takes (.inr (.inl h))))
        · exact .inr (.inl (not_takes (.inr (.inr (.inl h)))))
        · exact .inr (.inl (not_takes (.inr (.inr (.inr ⟨hk, h⟩)))))
        · exact .inr (.inr h)
    · obtain ⟨m, id, present, intact, rfl, hx⟩ | ⟨-, act, hx⟩ := exec_frame hc hr
      · exact absurd rfl hk
      · rw [hx, frameIn_own (s := ungate [16] s) hu ho, crcCount_good hg ha, hg, Bool.not_true, Bool.or_false]
        obtain ⟨hknown, hp, hf⟩ := hr
        exact (onRing_next s _ hknown hp hf).symm
    · change exec c s = .next (settle (ownReturned f.kind f.mt.step f.mt.part true (crcCount f (ungate [16] s))))
      obtain ⟨m, id, present, intact, rfl, hx⟩ | ⟨-, act, hx⟩ := exec_frame hc hr
      · exact hx.trans (settled_congr (rollcallIn_own hu ho hb))
      · rw [hx, frameIn_own (s := ungate [16] s) hu ho, hb, Bool.not_false, Bool.or_true]

/-! ### Own frames (13 R339) -/

section
variable {kind : U8} {step : U64} {part : BitVec 15} {o : OwnFrame} {s : State} (hu : s.ringUp = true)
  (ho : s.ownFrame kind step part = some o)
include hu ho

theorem ownReturned_own (stomp : Bool) : ownReturned kind step part stomp s =
    if !stomp then dropOwn o s
    else if o.again then holdGroup 1 (dropOwn o s)
    else putFrame (o.frame.withMeta (fun m => { m with stomp := s.teth.forced })) (onTeth (fun t =>
      { t with
        resends := satInc t.resends
        own := t.own.map (fun (x : OwnFrame) => if x = o then { x with again := true, sent := s.ctl.lcc } else x) }) s) := by
  unfold ownReturned
  rw [hu, if_pos rfl, ho]
  rfl

theorem frameLost_late (hl : o.sent.toNat + s.teth.lossUs.toNat * 1000 ≤ s.ctl.lcc.toNat) :
    frameLost kind step part s = holdGroup 1 (dropOwn o s) := by
  unfold frameLost
  rw [hu, if_pos rfl, ho]
  exact if_neg (Nat.not_lt.mpr hl)

end

/-! ### The roll call of the leader (13 R351, R352) -/

/-- The roll call has come round: it is no longer outstanding. -/
def rollHome (f : FrameOut) (s : State) : State :=
  onTeth (fun t => { t with own := t.own.filter (fun o => o.kind ≠ 0x01) }) (crcCount f s)

section
variable {m : FrameMeta} {id : U64} {present intact : List Nat} {s : State} (hu : s.ringUp = true) (ho : m.origin = s.teth.index)
  (hl : s.leader = true) (hn : s.teth.formed = false) (hg : (FrameOut.rollcall m id present intact).good = true)
  (hs : m.stomp = false) (hi : m.group = s.teth.id) (he : m.epoch = s.teth.epoch) (hw : s.wdog.stalled = false)
  (hp : ∀ i, i < s.teth.sizeM1.toNat + 1 → i ∈ present)
include hu ho hl hn hg hs hi he hw hp

/-- A complete roll call forms the group, once the leader's own collectives are over. -/
theorem rollcallIn_home : rollcallIn m id present intact s =
    let v := rollHome (.rollcall m id present intact) s
    if s.colls = 0 then formGroup intact v else v := by
  have hall : (List.range (s.teth.sizeM1.toNat + 1)).all (fun i => present.contains i) = true := by
    simpa using hp
  have hcond : (s.leader && (decide (m.group = s.teth.id) && decide (m.epoch = s.teth.epoch)) && !s.teth.formed && !s.wdog.stalled
      && decide (s.colls = 0) && (List.range (s.teth.sizeM1.toNat + 1)).all (fun i => present.contains i)) = decide (s.colls = 0) := by
    simp only [hl, hi, he, hn, hw, hall, decide_true, Bool.not_false, Bool.and_true, Bool.true_and]
  unfold rollcallIn
  rw [hu]
  refine (if_pos ho).trans ((if_neg ?_).trans ?_)
  · rw [hs, hg]
    decide
  · change (if (s.leader && (decide (m.group = s.teth.id) && decide (m.epoch = s.teth.epoch)) && !s.teth.formed && !s.wdog.stalled
      && decide (s.colls = 0) && (List.range (s.teth.sizeM1.toNat + 1)).all (fun i => present.contains i)) = true
      then formGroup intact (rollHome (.rollcall m id present intact) s) else rollHome (.rollcall m id present intact) s) = _
    rw [hcond]
    simp only [decide_eq_true_eq]

end

theorem rollAgain_late {s : State} (hc : s.calling = true) (hl : s.teth.rollAt.toNat + s.teth.lossUs.toNat * 1000 ≤ s.ctl.lcc.toNat) :
    rollAgain s = callRoll s :=
  if_pos (by rw [hc, decide_eq_true hl]; rfl)

theorem abandonGroup_late {s : State} (hg : s.grouped = true) (hl : s.leader = true) (hh : s.teth.held = true)
    (ha : s.teth.abandoned = false) (h0 : s.teth.holdLimit ≠ 0)
    (ht : s.teth.heldAt.toNat + s.teth.holdLimit.toNat * 10000000 < s.ctl.lcc.toNat) :
    abandonGroup s = endAll (fun r => r.model = s.teth.model) 0x30 0x30
      (logErr { code := 0x19, island := 16 } (onTeth (fun t => { t with abandoned := true }) s)) := by
  have hne : s.teth.holdLimit.toNat ≠ 0 := fun h => h0 (BitVec.eq_of_toNat_eq h)
  refine if_pos ?_
  simp only [hg, hl, hh, ha, decide_eq_true ht, Bool.not_false, Bool.and_true, Bool.true_and]
  exact decide_eq_true (Nat.mul_ne_zero hne (by decide))

/-! ### The lock (13 R349) -/

theorem lockLost_locked {s : State} (h : s.teth.lock = true) :
    lockLost s = holdGroup 3 (onTeth (fun t => { t with lock := false, brk := true }) s) :=
  if_neg (by rw [h]; decide)

theorem lockRegained_up {s : State} (h : s.teth.lock = false) (hen : s.out.tetherEn = true) : lockRegained s =
    let t := onTeth (fun t => { t with lock := true }) s
    let n := match s.sow.exec with | some x => if x.ended then x.num else x.num - 1 | none => s.sow.step
    if s.grouped then sendFrame 0x08 n 0 (.break_ (t.ownMeta n 0 true false false)) t else t :=
  if_neg (by rw [h, hen]; decide)

/-- Settles O58: the branches of each event of the ring. -/
theorem ringEvents : Obligations.RingEvents := by
  intro s hr u
  obtain ⟨hk, hp, hf⟩ := hr
  have hring := fun op => onRing_next s op hk hp hf
  refine ⟨fun kind step part o hu ho => ⟨?_, fun ha => ?_, fun ha => ?_, fun hl => ?_⟩, ?_, ?_, fun hc hl => ?_, ?_, fun hl => ?_,
    fun hl hen hg => ?_, fun hl hen hg => ?_⟩
  · exact (hring _).trans (settled_congr (ownReturned_own (s := u) hu ho false))
  · exact (hring _).trans (settled_congr ((ownReturned_own (s := u) hu ho true).trans (if_pos ha)))
  · exact (hring _).trans (settled_congr ((ownReturned_own (s := u) hu ho true).trans (if_neg (ne_true_of_eq_false ha))))
  · exact (hring _).trans (settled_congr (frameLost_late (s := u) hu ho hl))
  · intro m id present intact hu ho ht hs hl
    refine (hring _).trans (settled_congr ((rollcallIn_other (s := u) hu ho).trans (if_pos ?_)))
    change (s.takes (.rollcall m id present intact) && !s.wdog.stalled && !s.leader) = true
    rw [ht, hs, hl]
    rfl
  · intro m id present intact hu ho hl hn hg hs hi he hw hall v
    have hhome := rollcallIn_home (s := u) hu ho hl hn hg hs hi he hw hall
    exact ⟨fun h => (hring _).trans (settled_congr (hhome.trans (if_pos h))),
      fun h => (hring _).trans (settled_congr (hhome.trans (if_neg h)))⟩
  · exact (hring _).trans (settled_congr (rollAgain_late (s := u) hc hl))
  · intro hg hl hh ha h0 ht
    exact (hring _).trans (settled_congr (abandonGroup_late (s := u) hg hl hh ha h0 ht))
  · exact (hring _).trans (settled_congr (lockLost_locked (s := u) hl))
  · exact (hring _).trans (settled_congr ((lockRegained_up (s := u) hl hen).trans (if_pos hg)))
  · exact (hring _).trans (settled_congr ((lockRegained_up (s := u) hl hen).trans (if_neg (ne_true_of_eq_false hg))))

end Sys2Proof.Machine
end
